-- ==== Sys2Proof/Word.lean ====
section
/-! DEFINITION. The words of the module: bytes, 32-bit and 64-bit words (R6, R91), and the sparse table every map of the state uses. -/
namespace Sys2Proof

abbrev Byte := BitVec 8
abbrev W16 := BitVec 16
abbrev W32 := BitVec 32
abbrev W64 := BitVec 64

/-- A sparse map: entries at rising keys, a key that is not listed has the map's default. -/
abbrev Table (α : Type) := List (Nat × α)

end Sys2Proof
end

