-- ==== Sys2Proof/Syntax.lean ====
section
/-! DEFINITION. The commands of the block: one constructor of `Instr` per row of spec/opcode_table.json, and the data its operands are made of. Where the spec gives a layout the operand is the bytes or the fields of that layout; where it calls a payload internal or gives none, the operand is a structure of the fields the rules name. -/
namespace Sys2Proof

/-- A ring port or the Pair Link port, coded as in R418. -/
inductive Port where | n | e | s | w | pl
deriving DecidableEq, Repr

/-- Who reads a register that latches (R98, R312): each has its own shadow. -/
inductive Requester where | lane | service | host | tls
deriving DecidableEq, Repr

/-- The kinds of an access (R291, R301): R, W, X (code copy or service-core fetch) and P (publication). -/
inductive AccessKind where | r | w | x | p
deriving DecidableEq, Repr

/-- A ring frame as it arrives: the 16-byte header of R181, the payload and the CRC word received. -/
structure Frame where
  typeVc : Byte
  flags : Byte
  dst : W16
  src : W16
  lenHops : W16
  epoch : W32
  stamp : W32
  payload : List Byte
  crc : W32
deriving DecidableEq, Repr

/-- The IDENT control block (R176). `ring` is true for a row ring. -/
structure Ident where
  module : BitVec 12
  domain : W16
  ring : Bool
  port : Port
  nr : Nat
  nc : Nat
  up : Bool
deriving DecidableEq, Repr

/-- The seven payload bytes of a HEARTBEAT block (R220). -/
structure Heartbeat where
  flags : Byte
  term : W32
  seq : Byte
  epoch : Byte
deriving DecidableEq, Repr

/-- The type tags of R66. -/
inductive Tag where | bits | int | real64 | real32
deriving DecidableEq, Repr

/-- One word of a bundle (R17): value, LII and tag travel together. -/
structure BWord where
  lii : Nat
  tag : Tag
  val : W64
deriving DecidableEq, Repr

/-- A ring link by name: the ring (row or column), its number, and the position whose E (or S) port the link leaves. -/
structure LinkName where
  row : Bool
  ring : Nat
  pos : Nat
deriving DecidableEq, Repr

/-- A declared output of a task (R33): declared VID, the VID under which it is homed now (R143); `safe = none` is "hold". -/
structure OutVar where
  decl : W32
  vid : W32
  lii : Nat
  tag : Tag
  init : W64
  safe : Option W64
deriving DecidableEq, Repr

/-- A declared input of a task by declared VID (R33): `producer` is the writing task of a same-class input. -/
structure InVar where
  vid : W32
  lii : Nat
  tag : Tag
  same : Bool
  producer : W32
deriving DecidableEq, Repr

/-- What a relocation names: a declared VID and a place in its array, or the status word of the subscription with this number (R146). -/
inductive RelocOf where
  | var (vid : W32)
  | status (sub : Nat)
deriving DecidableEq, Repr

/-- One relocation of a package's list (R146): the variant, the byte offset in its code, the field (0 LII of Format C, 1 LII of a bit-logic instruction, 2 imm16 of IMLDX and IMSTX, 3 the constant of an LDHI and ORK pair), what it names, and the LII that the placer has assigned. -/
structure Reloc where
  codedPass : Bool
  off : Nat
  kind : Nat
  of : RelocOf
  lii : Nat
deriving DecidableEq, Repr

/-- One task of a plan on this module (R33, R92, R146): its lane, windows and declarations. -/
structure TaskPlan where
  task : W32
  lane : Nat
  cls : Nat
  bitLogic : Bool
  wcetP : Nat
  wcetC : Nat
  coded : Bool
  im : Nat
  dm : Nat
  bundle : Nat
  outs : List OutVar
  ins : List InVar
  inputDl : Nat
  endDl : Nat
  /-- Declared pin outputs: (output m, VID) (R33, R379). -/
  pins : List (Nat × W32)
  pinPair : Option Nat
  /-- Subscriptions: a VID that the publication set carries, and the maximum data age in µs (R33). -/
  subs : List (W32 × Nat)
  xwinP : W32
  dwinP : W32
  xwinC : W32
  dwinC : W32
  /-- DM layout digest of the package (R265). -/
  dmDigest : W32
  /-- Code of the primary and the coded variant, the initial DM contents of each, and the relocation list (R33, R92, R146). -/
  codeP : List Byte
  codeC : List Byte
  dmP : List Byte
  dmC : List Byte
  relocs : List Reloc
  /-- Declared arrays, each the VIDs in order (R146). -/
  arrays : List (List W32)
  /-- Which load brought the package in: the epoch that staged it. The placer tells two versions of a task apart by it and never by their code (R141). -/
  version : Nat := 0
deriving DecidableEq, Repr

/-- A published set of this module (R209, R212): words in set order by declared VID and LII, and the span ends (R187). `io`: it carries trip or CAN words and leaves with the freeze; `shadow`: a recovery shadow (R150). -/
structure SetPlan where
  set : W32
  part : Nat
  cls : Nat
  words : List (W32 × Nat)
  spans : List W16
  shadow : Bool
  io : Bool
deriving DecidableEq, Repr

/-- A subscription of a reading class (R13, R45, R144): the LII of each word of the set in set order. -/
structure SubPlan where
  set : W32
  part : Nat
  cls : Nat
  statusLii : Nat
  maxAge : Nat
  allowance : Nat
  home : Nat
  /-- `none`: a remote I/O adapter; otherwise the producer's class. -/
  producerCls : Option Nat
  words : List Nat
  inits : List W64
deriving DecidableEq, Repr

/-- A freeze of one word: another local class's variable, a trip word or a CAN word (R13). -/
inductive CopySrc where
  | local (lii : Nat) (cls : Nat)
  /-- A CAN word whose object the module's CAN configuration does not name. -/
  | io
  | tripIn
  | tripDiag
  | canWord (channel : Nat) (object : Nat) (word : Nat)
  | canWindow (channel : Nat) (word : Nat)
deriving DecidableEq, Repr

structure CopyPlan where
  src : CopySrc
  cls : Nat
  lii : Nat
  vid : W32
deriving DecidableEq, Repr

/-- An entry of a module's LII map (R66, R143, R300). -/
structure LiiEntry where
  lii : Nat
  vid : W32
  declared : W32
  tag : Tag
  cls : Nat
  part : Nat
  writer : W32
  init : W64
  /-- A replica, status or I/O entry that the freeze feeds (R144). -/
  replica : Bool
deriving DecidableEq, Repr

/-- An Access Guard rule, the four words of R290. -/
structure Rule where
  attr : W32
  base : W32
  limit : W32
  origin : W32
deriving DecidableEq, Repr

/-- An LII block of 512 on a module: its partition, and the epoch that released it (R295). -/
structure Block where
  num : Nat
  part : Nat
  released : Option Nat
deriving DecidableEq, Repr

/-- The part of a plan that concerns one module (R151: plan records are internal to the firmware). -/
structure ModPlan where
  tasks : List TaskPlan
  /-- Tasks linked and not in force: the other version of a change (R260, R261). -/
  staged : List TaskPlan
  sets : List SetPlan
  subs : List SubPlan
  copies : List CopyPlan
  lii : List LiiEntry
  blocks : List Block
  rules : List Rule
  /-- Classes the epoch affects on this module (R153). -/
  affected : List Nat
  /-- Home module of each published set of the domain (R156). -/
  setHome : List (W32 × Nat)
  /-- Units that arrive from or leave to another pair: (task, other even module) (R157). -/
  migrIn : List (W32 × Nat)
  migrOut : List (W32 × Nat)
  /-- Tasks that a loss epoch re-places here (R165, R166). -/
  replaced : List W32
  /-- Objects this epoch moves away: task or current VID, new pair, new current VID (R161). -/
  moved : List (W32 × Nat × W32)
  /-- Recovery shadows this module receives: set, declared VIDs in set order (R150). -/
  shadowSets : List (W32 × List W32)
  /-- Linked copies, held in DRAM, of the tasks this pair would receive as a recovery pair, and the LIIs they are linked to (R150). -/
  rescue : List TaskPlan := []
  rescueLii : List LiiEntry := []
deriving DecidableEq, Repr

/-- A Task Package as the placer reads it (R33, R140): `task` holds the declarations; LIIs and windows are filled at linking. -/
structure Package where
  task : TaskPlan
  /-- Items missing or out of range, as the tool that parsed the package found (R33). -/
  wellFormed : Bool
deriving DecidableEq, Repr

/-- Criticality classes and execution profiles (R37, R40). -/
inductive Crit where | p | c | s | a
deriving DecidableEq, Repr

inductive Profile where | winter | autumn | summer | spring
deriving DecidableEq, Repr

/-- Reservations of R37: lane-µs per class, image variables, ring bytes per class, spare lane-µs per class. -/
structure Reserve where
  lane : Table Nat
  image : Nat
  ring : Table Nat
  spare : Table Nat
deriving DecidableEq, Repr

/-- A partition configuration, as PARTITION_CREATE carries it (R37, R140). -/
structure PartCfg where
  part : Nat
  crit : Crit
  profile : Profile
  reserve : Reserve
  autostart : Bool
  degradeOk : Bool
  forceOk : Bool
  recSepRow : Bool
deriving DecidableEq, Repr

/-- The change states of R256. -/
inductive Change where | none | staged | unconfirmed
deriving DecidableEq, Repr

/-- A partition in the placer state (R38, R140, R256): commissioning order, the profile it had before a lowering of R168, its change with the version that is not in force, whether an overload holds it in SAFE. -/
structure PartPlan where
  cfg : PartCfg
  order : Nat
  lowered : Option Profile
  change : Change
  window : Nat
  cause : Nat
  /-- The change has ended by a revert. -/
  reverted : Bool
  other : List Package
  stopped : Bool
deriving DecidableEq, Repr

/-- A guarantee broken or restored (R170, R171, R348): the fields of RESERVATION and the epoch since when. -/
structure Broken where
  restored : Bool
  step : Nat
  victim : Nat
  beneficiary : Nat
  resource : Nat
  amount : Nat
  since : W32
deriving DecidableEq, Repr

/-- A recovery pair (R150): partition, hosting pair, recovery pair, and the spare lane-µs per class held there. -/
structure Spare where
  part : Nat
  host : Nat
  pair : Nat
  lane : Table Nat
deriving DecidableEq, Repr

/-- The placer state (R135, R140): each module's plan, partitions, packages in force, aliases (R143), class table, recovery pairs, broken guarantees, and what this epoch reports and puts in SAFE with its trigger code. -/
structure Domain where
  mods : Table ModPlan
  parts : List PartPlan
  packages : List Package
  aka : List (W32 × W32)
  classes : Table (Nat × Nat)
  spare : List Spare
  broken : List Broken
  news : List Broken
  safes : List (Nat × Nat)
deriving DecidableEq, Repr

/-- A comparison of GO between the modules of a pair (R154). -/
structure GoMsg where
  epoch : W32
  go : Option W64
deriving DecidableEq, Repr

/-- A state image or delta of a migrating unit (R157): words by declared VID, DM bytes by their place in the task's data window, and force entries (R145). -/
structure DeltaMsg where
  task : W32
  number : Nat
  image : Bool
  complete : Bool
  words : List (W32 × W64)
  dm : List (Nat × Byte)
  forces : List (W32 × W64)
  /-- It holds the cycle that ends at the switch boundary (R158). -/
  final : Bool := false
deriving DecidableEq, Repr

/-- A forwarded mailbox request (R330, R331). -/
structure ReqMsg where
  origin : Nat
  session : W64
  part : Nat
  login : Bool
  cmd : W16
  seq : W16
  payload : List Byte
  /-- The object it addresses, when it addresses a task or a variable (R162). -/
  object : Option W32
deriving DecidableEq, Repr

/-- The answer to a forwarded request (R331): `interim` while it is in progress. -/
structure RspMsg where
  session : W64
  cmd : W16
  seq : W16
  interim : Bool
  status : W16
  detail : W32
  payload : List Byte
  /-- The epoch, the plan of the module that asked for it, and the placer state (R154). -/
  plan : Option (W32 × ModPlan × Domain) := none
deriving DecidableEq, Repr

/-- The committed state of one class cycle of one partition (R225). -/
structure MirrorMsg where
  part : Nat
  cls : Nat
  bnd : W32
  committed : Bool
  complete : Bool
  words : List BWord
  pubSeq : List (W32 × W32)
  inSeq : List (W32 × W32)
  dm : List (Nat × Nat × Byte)
  overruns : List (W32 × Nat)
deriving DecidableEq, Repr

/-- A force change mirrored to the partner (R56), or its acknowledgement, or the loss of synchronisation it tells. -/
inductive ForceMsg where
  | set (vid : W32) (val : W64) (part : Nat) (e : W64)
  | clear (vid : W32) (part : Nat) (e : W64)
  | ack (vid : W32) (e : W64)
  | unsynced
deriving DecidableEq, Repr

/-- The ROLE handshakes (R246). -/
inductive RoleMsg where
  | propose (h : W64) (switch : Bool)
  | confirm (h : W64) (sent : W64) (term : W32)
  | refuse
  | cancel
  | giveWay
deriving DecidableEq, Repr

/-- A partition as a JOIN carries it: configuration, state (0 LOADED, 1 RUNNING, 2 SAFE), overrun limit and policies (R39, R52, R83, R255, R303). -/
structure JoinPart where
  cfg : PartCfg
  state : Nat
  limit : Nat
  mismatchSafe : Bool
  faultSafe : Bool
deriving DecidableEq, Repr

/-- The parts of a JOIN (R255). -/
inductive JoinMsg where
  | config (epoch : W32) (term : W32) (parts : List JoinPart) (classes : Table (Nat × Nat)) (keys : Table (List Byte))
  | plan (plan : ModPlan)
  | packages (dom : Domain)
  | forces (fs : List (W32 × W64 × Nat))
  /-- The image snapshot, the SEQ of each publication set, the overrun counts, and per subscription the set, its status word, SEQ, stamp and OLD of what was frozen last (R45, R213, R224). -/
  | image (words : List (Nat × W64)) (pubSeq : List (W32 × W32)) (overruns : List (W32 × Nat)) (frozen : List (W32 × Nat × W32 × W32 × Bool))
  /-- A standby whose synchronisation starts again asks for all of it (R255). -/
  | request
  | cleanCycle (part : Nat) (cls : Nat)
  /-- A module leaving BOOT asks for the RING_PLAN of its row or column ring with this t0 (R207). -/
  | bypass (row : Bool) (t0 : W64)
deriving DecidableEq, Repr

/-- Placer state mirrored before GO (R135). -/
structure PlacerMsg where
  epoch : W32
  dom : Domain
deriving DecidableEq, Repr

/-- A PTP dataset as Announce carries it, in the order of the comparison of IEEE 1588-2019 (R355). -/
structure PtpData where
  priority1 : Nat
  clockClass : Nat
  accuracy : Nat
  variance : Nat
  priority2 : Nat
  identity : Nat
  steps : Nat
deriving DecidableEq, Repr

/-- A PTP message on a station port: domain number, the sender's time-stamp with its correction, and T at arrival. -/
structure PtpMsg where
  domain : Nat
  ts : W64
  rx : W64
  identity : Nat
deriving DecidableEq, Repr

/-- What one sample shows one checker (R371, R373, R375, R380): levels at or above 11 V, at or below 5 V, low between the samples too, current limiter hot, readback closed, couplers lost. -/
structure Sample where
  hi : W32
  lo : W32
  idleLow : W32
  inOt : W32
  readback : W16
  lostIn : W32
  lostOut : W16
  /-- Output drivers whose junction is not below 130 °C (R375). -/
  outHot : W16
  clockBad : Bool
deriving DecidableEq, Repr

/-- A CAN data frame on the bus (R400, R405). -/
structure CanFrame where
  id : BitVec 29
  ide : Bool
  fdf : Bool
  brs : Bool
  esi : Bool
  remote : Bool
  dlc : BitVec 4
  data : List Byte
  sof : W32
deriving DecidableEq, Repr

/-- A receive object declaration: filter, size and VIDs (R405). -/
structure CanObjCfg where
  filter : Nat
  size : Nat
  vids : List W32
deriving DecidableEq, Repr

/-- A transmit object declaration (R407). `every = 0`: on change. -/
structure CanTxCfg where
  id : BitVec 29
  ide : Bool
  fdf : Bool
  brs : Bool
  dlc : BitVec 4
  cls : Nat
  every : Nat
  vids : List W32
deriving DecidableEq, Repr

/-- A bit-timing set: the register words of R416. -/
structure CanTiming where
  nbrp : Nat
  ntseg1 : Nat
  ntseg2 : Nat
  nsjw : Nat
  dbrp : Nat
  dtseg1 : Nat
  dtseg2 : Nat
  dsjw : Nat
deriving DecidableEq, Repr

/-- What CAN_CONFIG sets on one channel (R401, R404 to R410). -/
structure CanCfg where
  mode : BitVec 3
  timing : CanTiming
  tdc : W32
  tref : W32
  filters : List (W32 × W32)
  rx : List CanObjCfg
  tx : List CanTxCfg
  seqCls : Option Nat
  seqDepth : Nat
  table : List CanTiming
deriving DecidableEq, Repr

/-- What a frame asks of the IP stack itself: an ARP request for its address, an ICMP echo request, anything else (R412). -/
inductive EthAsk where | arp | echo | other
deriving DecidableEq, Repr

/-- An Ethernet frame as the port logic sees it (R412, R413): the RCT carries sequence number and LAN (true: A). -/
structure EthFrame where
  src : Nat
  rct : Option (Nat × Bool)
  ptp : Bool
  toStack : Bool
  vlanTagged : Bool
  asks : EthAsk
deriving DecidableEq, Repr

/-- A station publication (R414). -/
structure StationPub where
  id : W32
  dstIp : W32
  dstPort : W16
  cls : Nat
  every : Nat
  part : Nat
  vids : List W32
deriving DecidableEq, Repr

/-- How BOOT ends (R254, R283, R459): a failed step, and the environment's results of checks the firmware makes. -/
structure BootResult where
  selfTestOk : Bool
  slotAOk : Bool
  slotBOk : Bool
  /-- Comparators that failed the round, each with its first failing vector (R86, R88). -/
  cmpFailed : List (Nat × Nat)
deriving DecidableEq, Repr

/-- Where a request came from: mailbox n, TLS connection c, or a REQ of another module (R330). -/
inductive ReqSrc where
  | mailbox (n : Fin 512)
  | tls (c : Fin 16)
  | forwarded (origin : Fin 4096) (session : W64) (seq : W16)
deriving DecidableEq, Repr

/-- What STATION_CONFIG sets (R412, R413). -/
structure StationCfg where
  mode : BitVec 2
  ptpDomain : Nat
  /-- IPv4 address, mask and gateway, in force at the next link-up (R338). -/
  ipv4 : Option (W32 × W32 × W32)
deriving DecidableEq, Repr

/-- What TIME_SET sets (R354, R362). -/
structure TimeCfg where
  stepThr : Nat
  srcPrio : List Nat
  ptpDomain : Nat
deriving DecidableEq, Repr

/-- An HMAC or certificate item that CERT_INSTALL brings; `chains` is the outcome of verifying its chains. -/
structure CertSet where
  roots : List Nat
  device : Option Nat
  map : List (Nat × Nat)
  chains : Bool
deriving DecidableEq, Repr

/-- The commands: one constructor per row of spec/opcode_table.json, in the table's order. Native lane rows carry the lane and the raw fields of their format (R102); bit-logic rows the lane and bits [25:0] (R117). -/
inductive Instr where
  /-- CLASS_BOUNDARY (R12) -/
  | classBoundary (k : Fin 8)
  /-- FREEZE_COPY_DONE (R15) -/
  | freezeCopyDone (k : Fin 8)
  /-- LANE_WAKE_GRANT (R452) -/
  | laneWakeGrant
  /-- LANE_GATE_GRANT (R452) -/
  | laneGateGrant
  /-- PASS_VERDICT (R77) -/
  | passVerdict (c : Fin 16)
  /-- BUNDLE_COLLECTED (R19) -/
  | bundleCollected
  /-- CLASS_CYCLE_COMMIT (R22) -/
  | classCycleCommit (p : Fin 512) (k : Fin 8)
  /-- SIG_LATE (R228) -/
  | sigLate (p : Fin 512) (k : Fin 8) (task : W32)
  /-- INPUT_DEADLINE (R47) -/
  | inputDeadline (l : Fin 256) (lii : Nat)
  /-- TIMER_EVENT (R124) -/
  | timerEvent (l : Fin 256)
  /-- LANE_DEADLINE (R490) -/
  | laneDeadline (l : Fin 256)
  /-- EVENT_ENTRY (R127) -/
  | eventEntry (l : Fin 256)
  /-- ADD (R104) -/
  | add (l : Fin 256) (rd ra rb : BitVec 5)
  /-- SUB (R104) -/
  | sub (l : Fin 256) (rd ra rb : BitVec 5)
  /-- AND (R104) -/
  | and (l : Fin 256) (rd ra rb : BitVec 5)
  /-- OR (R104) -/
  | or (l : Fin 256) (rd ra rb : BitVec 5)
  /-- XOR (R104) -/
  | xor (l : Fin 256) (rd ra rb : BitVec 5)
  /-- ANDN (R104) -/
  | andn (l : Fin 256) (rd ra rb : BitVec 5)
  /-- SHL (R104) -/
  | shl (l : Fin 256) (rd ra rb : BitVec 5)
  /-- SHR (R104) -/
  | shr (l : Fin 256) (rd ra rb : BitVec 5)
  /-- SAR (R104) -/
  | sar (l : Fin 256) (rd ra rb : BitVec 5)
  /-- LTS (R104) -/
  | lts (l : Fin 256) (rd ra rb : BitVec 5)
  /-- LTU (R104) -/
  | ltu (l : Fin 256) (rd ra rb : BitVec 5)
  /-- ADDK (R104) -/
  | addk (l : Fin 256) (rd ra : BitVec 5) (imm : W16)
  /-- ANDK (R104) -/
  | andk (l : Fin 256) (rd ra : BitVec 5) (imm : W16)
  /-- ORK (R104) -/
  | ork (l : Fin 256) (rd ra : BitVec 5) (imm : W16)
  /-- XORK (R104) -/
  | xork (l : Fin 256) (rd ra : BitVec 5) (imm : W16)
  /-- SHLK (R104) -/
  | shlk (l : Fin 256) (rd ra : BitVec 5) (imm : W16)
  /-- SHRK (R104) -/
  | shrk (l : Fin 256) (rd ra : BitVec 5) (imm : W16)
  /-- SARK (R104) -/
  | sark (l : Fin 256) (rd ra : BitVec 5) (imm : W16)
  /-- LTSK (R104) -/
  | ltsk (l : Fin 256) (rd ra : BitVec 5) (imm : W16)
  /-- LDHI (R104) -/
  | ldhi (l : Fin 256) (rd : BitVec 5) (imm : BitVec 21)
  /-- MUL (R104) -/
  | mul (l : Fin 256) (rd ra rb : BitVec 5)
  /-- MULHS (R104) -/
  | mulhs (l : Fin 256) (rd ra rb : BitVec 5)
  /-- DIVS (R105) -/
  | divs (l : Fin 256) (rd ra rb : BitVec 5)
  /-- DIVU (R105) -/
  | divu (l : Fin 256) (rd ra rb : BitVec 5)
  /-- RMDS (R105) -/
  | rmds (l : Fin 256) (rd ra rb : BitVec 5)
  /-- RMDU (R105) -/
  | rmdu (l : Fin 256) (rd ra rb : BitVec 5)
  /-- CMUL (R71) -/
  | cmul (l : Fin 256) (rd ra rb : BitVec 5)
  /-- CDIV (R71) -/
  | cdiv (l : Fin 256) (rd ra rb : BitVec 5)
  /-- CCHK (R71) -/
  | cchk (l : Fin 256) (rd ra rb : BitVec 5)
  /-- FADD64 (R106) -/
  | fadd64 (l : Fin 256) (rd ra rb : BitVec 5)
  /-- FSUB64 (R106) -/
  | fsub64 (l : Fin 256) (rd ra rb : BitVec 5)
  /-- FMUL64 (R106) -/
  | fmul64 (l : Fin 256) (rd ra rb : BitVec 5)
  /-- FDIV64 (R106) -/
  | fdiv64 (l : Fin 256) (rd ra rb : BitVec 5)
  /-- FSQRT64 (R106) -/
  | fsqrt64 (l : Fin 256) (rd ra rb : BitVec 5)
  /-- FCEQ64 (R106) -/
  | fceq64 (l : Fin 256) (rd ra rb : BitVec 5)
  /-- FCLT64 (R106) -/
  | fclt64 (l : Fin 256) (rd ra rb : BitVec 5)
  /-- FCLE64 (R106) -/
  | fcle64 (l : Fin 256) (rd ra rb : BitVec 5)
  /-- ITOF64 (R106) -/
  | itof64 (l : Fin 256) (rd ra rb : BitVec 5)
  /-- FTOI64 (R106) -/
  | ftoi64 (l : Fin 256) (rd ra rb : BitVec 5)
  /-- F64TO32 (R106) -/
  | f64to32 (l : Fin 256) (rd ra rb : BitVec 5)
  /-- FADD32 (R106) -/
  | fadd32 (l : Fin 256) (rd ra rb : BitVec 5)
  /-- FSUB32 (R106) -/
  | fsub32 (l : Fin 256) (rd ra rb : BitVec 5)
  /-- FMUL32 (R106) -/
  | fmul32 (l : Fin 256) (rd ra rb : BitVec 5)
  /-- FDIV32 (R106) -/
  | fdiv32 (l : Fin 256) (rd ra rb : BitVec 5)
  /-- FSQRT32 (R106) -/
  | fsqrt32 (l : Fin 256) (rd ra rb : BitVec 5)
  /-- FCEQ32 (R106) -/
  | fceq32 (l : Fin 256) (rd ra rb : BitVec 5)
  /-- FCLT32 (R106) -/
  | fclt32 (l : Fin 256) (rd ra rb : BitVec 5)
  /-- FCLE32 (R106) -/
  | fcle32 (l : Fin 256) (rd ra rb : BitVec 5)
  /-- ITOF32 (R106) -/
  | itof32 (l : Fin 256) (rd ra rb : BitVec 5)
  /-- FTOI32 (R106) -/
  | ftoi32 (l : Fin 256) (rd ra rb : BitVec 5)
  /-- F32TO64 (R106) -/
  | f32to64 (l : Fin 256) (rd ra rb : BitVec 5)
  /-- LDS8 (R94) -/
  | lds8 (l : Fin 256) (rd ra : BitVec 5) (imm : W16)
  /-- LDU8 (R94) -/
  | ldu8 (l : Fin 256) (rd ra : BitVec 5) (imm : W16)
  /-- LDS16 (R94) -/
  | lds16 (l : Fin 256) (rd ra : BitVec 5) (imm : W16)
  /-- LDU16 (R94) -/
  | ldu16 (l : Fin 256) (rd ra : BitVec 5) (imm : W16)
  /-- LDS32 (R94) -/
  | lds32 (l : Fin 256) (rd ra : BitVec 5) (imm : W16)
  /-- LDU32 (R94) -/
  | ldu32 (l : Fin 256) (rd ra : BitVec 5) (imm : W16)
  /-- LD64 (R94) -/
  | ld64 (l : Fin 256) (rd ra : BitVec 5) (imm : W16)
  /-- ST8 (R94) -/
  | st8 (l : Fin 256) (rd ra : BitVec 5) (imm : W16)
  /-- ST16 (R94) -/
  | st16 (l : Fin 256) (rd ra : BitVec 5) (imm : W16)
  /-- ST32 (R95) -/
  | st32 (l : Fin 256) (rd ra : BitVec 5) (imm : W16)
  /-- ST64 (R94) -/
  | st64 (l : Fin 256) (rd ra : BitVec 5) (imm : W16)
  /-- IMLD (R107) -/
  | imld (l : Fin 256) (rd : BitVec 5) (lii : BitVec 21)
  /-- IMST (R108) -/
  | imst (l : Fin 256) (rd : BitVec 5) (lii : BitVec 21)
  /-- IMLDX (R107) -/
  | imldx (l : Fin 256) (rd ra : BitVec 5) (imm : W16)
  /-- IMSTX (R108) -/
  | imstx (l : Fin 256) (rd ra : BitVec 5) (imm : W16)
  /-- BREQ (R104) -/
  | breq (l : Fin 256) (ra rb : BitVec 5) (off : W16)
  /-- BRNE (R104) -/
  | brne (l : Fin 256) (ra rb : BitVec 5) (off : W16)
  /-- BRLTS (R104) -/
  | brlts (l : Fin 256) (ra rb : BitVec 5) (off : W16)
  /-- BRGES (R104) -/
  | brges (l : Fin 256) (ra rb : BitVec 5) (off : W16)
  /-- BRLTU (R104) -/
  | brltu (l : Fin 256) (ra rb : BitVec 5) (off : W16)
  /-- BRGEU (R104) -/
  | brgeu (l : Fin 256) (ra rb : BitVec 5) (off : W16)
  /-- JREL (R104) -/
  | jrel (l : Fin 256) (rd : BitVec 5) (imm : BitVec 21)
  /-- JIND (R99) -/
  | jind (l : Fin 256) (rd ra : BitVec 5) (imm : W16)
  /-- WAITEV (R130) -/
  | waitev (l : Fin 256) (rd ra rb : BitVec 5)
  /-- RETEV (R128) -/
  | retev (l : Fin 256) (rd ra rb : BitVec 5)
  /-- RDTIME (R109) -/
  | rdtime (l : Fin 256) (rd ra rb : BitVec 5)
  /-- RDBND (R109) -/
  | rdbnd (l : Fin 256) (rd ra rb : BitVec 5)
  /-- RDCTR (R109) -/
  | rdctr (l : Fin 256) (rd ra rb : BitVec 5)
  /-- YIELD (R129) -/
  | yieldPass (l : Fin 256) (rd ra rb : BitVec 5)
  /-- BL_NOP (R120) -/
  | blNop (l : Fin 256) (f : BitVec 26)
  /-- BL_LD (R120) -/
  | blLd (l : Fin 256) (f : BitVec 26)
  /-- BL_LDN (R120) -/
  | blLdn (l : Fin 256) (f : BitVec 26)
  /-- BL_AND (R120) -/
  | blAnd (l : Fin 256) (f : BitVec 26)
  /-- BL_ANDN (R120) -/
  | blAndn (l : Fin 256) (f : BitVec 26)
  /-- BL_OR (R120) -/
  | blOr (l : Fin 256) (f : BitVec 26)
  /-- BL_ORN (R120) -/
  | blOrn (l : Fin 256) (f : BitVec 26)
  /-- BL_XOR (R120) -/
  | blXor (l : Fin 256) (f : BitVec 26)
  /-- BL_XNOR (R120) -/
  | blXnor (l : Fin 256) (f : BitVec 26)
  /-- BL_ST (R120) -/
  | blSt (l : Fin 256) (f : BitVec 26)
  /-- BL_STN (R120) -/
  | blStn (l : Fin 256) (f : BitVec 26)
  /-- BL_SET (R120) -/
  | blSet (l : Fin 256) (f : BitVec 26)
  /-- BL_RST (R120) -/
  | blRst (l : Fin 256) (f : BitVec 26)
  /-- BL_EP (R120) -/
  | blEp (l : Fin 256) (f : BitVec 26)
  /-- BL_EN (R120) -/
  | blEn (l : Fin 256) (f : BitVec 26)
  /-- BL_PUSH (R123) -/
  | blPush (l : Fin 256) (f : BitVec 26)
  /-- BL_POPA (R120) -/
  | blPopa (l : Fin 256) (f : BitVec 26)
  /-- BL_POPO (R120) -/
  | blPopo (l : Fin 256) (f : BitVec 26)
  /-- BL_POP (R120) -/
  | blPop (l : Fin 256) (f : BitVec 26)
  /-- BL_PEEK (R120) -/
  | blPeek (l : Fin 256) (f : BitVec 26)
  /-- BL_NOT (R120) -/
  | blNot (l : Fin 256) (f : BitVec 26)
  /-- BL_ONE (R120) -/
  | blOne (l : Fin 256) (f : BitVec 26)
  /-- BL_ZERO (R120) -/
  | blZero (l : Fin 256) (f : BitVec 26)
  /-- BL_JC (R122) -/
  | blJc (l : Fin 256) (f : BitVec 26)
  /-- BL_JCN (R122) -/
  | blJcn (l : Fin 256) (f : BitVec 26)
  /-- BL_JMP (R122) -/
  | blJmp (l : Fin 256) (f : BitVec 26)
  /-- BL_END (R120) -/
  | blEnd (l : Fin 256) (f : BitVec 26)
  /-- L_EVSWI_WRITE (R124) -/
  | lEvswiWrite (l : Fin 256) (v : W32)
  /-- L_CLK_LO_READ (R98) -/
  | lClkLoRead (l : Fin 256) (q : Requester)
  /-- L_ECC_READ (R97) -/
  | lEccRead (l : Fin 256)
  /-- REGISTER_WRITE (R4) -/
  | registerWrite (addr : BitVec 40) (v : W32)
  /-- IM_DM_SCRUB (R96) -/
  | imDmScrub (l : Fin 256)
  /-- MEMORY_SCRUB (R250) -/
  | memoryScrub (addr : BitVec 40)
  /-- COMPARATOR_TEST_ROUND (R86) -/
  | comparatorTestRound
  /-- CMP_SHADOW_PERIOD_END (R86) -/
  | cmpShadowPeriodEnd
  /-- CMP_VECTOR_TEST_DONE (R85) -/
  | cmpVectorTestDone (fail : Option (Fin 144))
  /-- BACKGROUND_TEST_COMPLETE (R249) -/
  | backgroundTestComplete (l : Fin 256) (passed : Bool)
  /-- BEACON_SEND (R136) -/
  | beaconSend
  /-- HEALTH_FRAME_SEND (R136) -/
  | healthFrameSend
  /-- BEACON (R138) -/
  | beacon (p : Port) (f : Frame)
  /-- BEACON_TIMEOUT (R137) -/
  | beaconTimeout
  /-- LEADER_QUERY_TIMEOUT (R137) -/
  | leaderQueryTimeout
  /-- HEALTH_REPORT_FRAME (R139) -/
  | healthReportFrame (p : Port) (f : Frame)
  /-- EPOCH_ISSUE (R152) -/
  | epochIssue
  /-- PREPARE (R152) -/
  | prepare (p : Port) (f : Frame) (plan : ModPlan) (dom : Domain)
  /-- READY (R152) -/
  | ready (p : Port) (f : Frame)
  /-- REFUSE (R152) -/
  | refuse (p : Port) (f : Frame)
  /-- GO (R153) -/
  | go (p : Port) (f : Frame)
  /-- ABANDON (R152) -/
  | abandon (p : Port) (f : Frame)
  /-- GO_REPEAT (R152) -/
  | goRepeat
  /-- PREPARED_EPOCH_TIMEOUT (R152) -/
  | preparedEpochTimeout
  /-- EPOCH_READY_TIMEOUT (R263) -/
  | epochReadyTimeout
  /-- GO_COMPARE_INSTANT (R154) -/
  | goCompareInstant
  /-- GO_CMP (R154) -/
  | goCmp (m : GoMsg)
  /-- EPOCH_APPLY (R153) -/
  | epochApply
  /-- PAIR_LOST_DETECT (R164) -/
  | pairLostDetect (pair : Fin 2048)
  /-- MIGRATION_DELTA (R157) -/
  | migrationDelta (p : Port) (f : Frame) (d : DeltaMsg)
  /-- DELTA_AGREEMENT (R158) -/
  | deltaAgreement (task : W32) (partnerNewest : Nat)
  /-- HELD_FRAME_EXPIRY (R162) -/
  | heldFrameExpiry
  /-- SAFE_NOTICE (R61) -/
  | safeNotice (p : Port) (f : Frame) (part : Fin 512) (entry : W64) (code : W16)
  /-- IDENT (R178) -/
  | ident (p : Port) (i : Ident)
  /-- IDENT_SEND (R176) -/
  | identSend (p : Port)
  /-- LINK_UP (R178) -/
  | linkUp (p : Port)
  /-- LOCK_LOSS (R179) -/
  | lockLoss (p : Port) (lane : Fin 4)
  /-- IDENT_UP_TIMEOUT (R179) -/
  | identUpTimeout (p : Port)
  /-- ALIGN (R175) -/
  | align (p : Port) (lane : Fin 4)
  /-- ALIGN_SEND (R175) -/
  | alignSend (p : Port) (lane : Fin 4)
  /-- CREDIT (R194) -/
  | credit (p : Port) (vc : Fin 2) (pool : Fin 2) (count : Byte)
  /-- PREEMPT (R196) -/
  | preempt (p : Port) (vc : Fin 3) (pool : Fin 2)
  /-- RESUME (R196) -/
  | resume (p : Port) (vc : Fin 3) (pool : Fin 2)
  /-- CONTROL_BLOCK_UNKNOWN (R176) -/
  | controlBlockUnknown (p : Port) (ty : Byte)
  /-- PUB (R211) -/
  | pub (p : Port) (f : Frame)
  /-- REQ (R330) -/
  | req (p : Port) (f : Frame) (m : ReqMsg)
  /-- RSP (R331) -/
  | rsp (p : Port) (f : Frame) (m : RspMsg)
  /-- REQ_RETRY (R331) -/
  | reqRetry (session : W64) (seq : W16)
  /-- REQ_TIMEOUT (R331) -/
  | reqTimeout (session : W64) (seq : W16)
  /-- RING_BREAK (R199) -/
  | ringBreak (p : Port) (f : Frame) (link : LinkName)
  /-- RING_BREAK_REPEAT (R199) -/
  | ringBreakRepeat (p : Port)
  /-- RING_MEND (R202) -/
  | ringMend (p : Port) (f : Frame) (link : LinkName)
  /-- RING_PLAN (R206) -/
  | ringPlan (p : Port) (f : Frame) (links : List LinkName) (t0 : W64)
  /-- RING_PLAN_T0 (R206) -/
  | ringPlanT0
  /-- BYPASS_OPEN (R207) -/
  | bypassOpen (row : Bool)
  /-- BYPASS_CLOSE (R208) -/
  | bypassClose
  /-- HEARTBEAT (R220) -/
  | heartbeat (b : Heartbeat)
  /-- HEARTBEAT_SEND (R220) -/
  | heartbeatSend
  /-- HEARTBEAT_MISS (R236) -/
  | heartbeatMiss
  /-- ECHO (R236) -/
  | echo (p : Port) (f : Frame)
  /-- ECHO_ANSWER (R237) -/
  | echoAnswer (p : Port) (f : Frame)
  /-- TAKEOVER_EVALUATION (R237) -/
  | takeoverEvaluation
  /-- SIG (R231) -/
  | sig (f : Frame)
  /-- BUNDLE_REQ (R232) -/
  | bundleReq (task : W32) (bnd : W32)
  /-- BUNDLE (R232) -/
  | bundle (task : W32) (bnd : W32) (words : List BWord)
  /-- ADOPTION_TIMEOUT (R232) -/
  | adoptionTimeout (task : W32)
  /-- MIRROR (R225) -/
  | mirror (m : MirrorMsg)
  /-- MIRROR_LATE (R226) -/
  | mirrorLate (p : Fin 512) (k : Fin 8)
  /-- FORCE (R56) -/
  | force (m : ForceMsg)
  /-- FORCE_REPEAT (R56) -/
  | forceRepeat
  /-- FORCE_EFFECTIVE (R56) -/
  | forceEffective
  /-- ROLE (R246) -/
  | role (m : RoleMsg)
  /-- TAKE_BACK_EVALUATION (R245) -/
  | takeBackEvaluation
  /-- HANDOVER_INSTANT (R246) -/
  | handoverInstant
  /-- PLACER (R135) -/
  | placer (m : PlacerMsg)
  /-- JOIN (R255) -/
  | join (m : JoinMsg)
  /-- SYNC_COMPLETE (R255) -/
  | syncComplete
  /-- JOINING_PARTNER_SILENT (R254) -/
  | joiningPartnerSilent
  /-- HEALTH_REPORT_TIMER (R251) -/
  | healthReportTimer
  /-- TRIP_WORDS (R378) -/
  | tripWords (k : Fin 8) (tripIn : W64) (tripDiag : W64)
  /-- CAN_WORDS (R403) -/
  | canWords (k : Fin 8) (channel : Fin 4) (objs : List (List W64)) (window : List W64)
  /-- REVERT_WINDOW_END (R268) -/
  | revertWindowEnd (p : Fin 512)
  /-- REVERT_RETRY (R268) -/
  | revertRetry (p : Fin 512)
  /-- TRIAL_TIME_LIMIT (R279) -/
  | trialTimeLimit
  /-- TRIAL_TIME_SAVE (R278) -/
  | trialTimeSave
  /-- FALLBACK_RETRY (R279) -/
  | fallbackRetry
  /-- G_WDATA3_WRITE (R297) -/
  | gWdata3Write (v : W32)
  /-- G_COMMIT_WRITE (R297) -/
  | gCommitWrite (v : W32)
  /-- GUARD_CHECK_DONE (R297) -/
  | guardCheckDone
  /-- G_NMISS_READ (R305) -/
  | gNmissRead
  /-- PRIVILEGED_ACCESS (R301) -/
  | privilegedAccess (core : Fin 4) (addr : BitVec 40) (kind : AccessKind) (data : List Byte)
  /-- READ (R307) -/
  | read (addr : BitVec 24) (len : Nat)
  /-- WRITE (R309) -/
  | write (addr : BitVec 24) (data : List Byte)
  /-- QREAD (R307) -/
  | qread (addr : BitVec 24) (len : Nat)
  /-- QWRITE (R309) -/
  | qwrite (addr : BitVec 24) (data : List Byte)
  /-- HOST_UNKNOWN_COMMAND (R307) -/
  | hostUnknownCommand (cmd : Byte)
  /-- HOST_LO_READ (R312) -/
  | hostLoRead (addr : BitVec 24) (q : Requester)
  /-- H_CTL_DOZE_WRITE (R317) -/
  | hCtlDozeWrite
  /-- IRQ_MODERATION_EXPIRY (R316) -/
  | irqModerationExpiry
  /-- SUBMIT (R318) -/
  | submit (n : Fin 512)
  /-- RELEASE (R318) -/
  | release (n : Fin 512)
  /-- RESPONSE_FILL (R318) -/
  | responseFill (n : Fin 512)
  /-- TLS_ACCEPT (R327) -/
  | tlsAccept (port : Fin 2) (chains : Bool) (cert : Nat)
  /-- TLS_REQUEST (R328) -/
  | tlsRequest (c : Fin 16) (bytes : List Byte)
  /-- TLS_CLOSE (R323) -/
  | tlsClose (c : Fin 16)
  /-- TLS_NO_SESSION_TIMEOUT (R328) -/
  | tlsNoSessionTimeout (c : Fin 16)
  /-- SESSION_IDLE_EXPIRY (R323) -/
  | sessionIdleExpiry (tag : W64)
  /-- OPEN_SESSION (R337) -/
  | openSession (q : ReqSrc)
  /-- CLOSE_SESSION (R323) -/
  | closeSession (q : ReqSrc)
  /-- MODULE_INFO (R335) -/
  | moduleInfo (q : ReqSrc)
  /-- MODULE_RESET (R345) -/
  | moduleReset (q : ReqSrc)
  /-- CONFIG_SET (R338) -/
  | configSet (q : ReqSrc)
  /-- CONFIG_GET (R335) -/
  | configGet (q : ReqSrc)
  /-- HOSTKEY_SET (R335) -/
  | hostkeySet (q : ReqSrc) (part : Fin 512) (key : List Byte)
  /-- CERT_INSTALL (R335) -/
  | certInstall (q : ReqSrc) (certs : CertSet)
  /-- PARTITION_CREATE (R38) -/
  | partitionCreate (q : ReqSrc) (cfg : PartCfg)
  /-- PARTITION_REMOVE (R335) -/
  | partitionRemove (q : ReqSrc) (part : Fin 512)
  /-- PARTITION_START (R63) -/
  | partitionStart (q : ReqSrc) (part : Fin 512)
  /-- PARTITION_STOP (R39) -/
  | partitionStop (q : ReqSrc) (part : Fin 512)
  /-- PARTITION_SAFE (R61) -/
  | partitionSafe (q : ReqSrc) (part : Fin 512)
  /-- PARTITION_SET_PROFILE (R42) -/
  | partitionSetProfile (q : ReqSrc)
  /-- PARTITION_SET_POLICY (R303) -/
  | partitionSetPolicy (q : ReqSrc) (part : Fin 512) (mismatchSafe : Bool) (faultSafe : Bool) (limit : Nat)
  /-- GUARD_SET (R294) -/
  | guardSet (q : ReqSrc) (rules : List Rule)
  /-- GUARD_COMMIT (R299) -/
  | guardCommit (q : ReqSrc)
  /-- GUARD_QUERY (R299) -/
  | guardQuery (q : ReqSrc)
  /-- PARTITION_STATUS (R335) -/
  | partitionStatus (q : ReqSrc) (part : Fin 512)
  /-- PARTITION_SET_RESERVATION (R335) -/
  | partitionSetReservation (q : ReqSrc) (part : Fin 512) (r : Reserve)
  /-- PROGRAM_LOAD (R259) -/
  | programLoad (q : ReqSrc) (pkgs : List Package)
  /-- PROGRAM_ACTIVATE (R262) -/
  | programActivate (q : ReqSrc)
  /-- PROGRAM_CONFIRM (R267) -/
  | programConfirm (q : ReqSrc)
  /-- PROGRAM_REVERT (R268) -/
  | programRevert (q : ReqSrc)
  /-- PROGRAM_STATUS (R256) -/
  | programStatus (q : ReqSrc) (part : Fin 512)
  /-- PROGRAM_DISCARD (R256) -/
  | programDiscard (q : ReqSrc)
  /-- PROGRAM_DATA (R339) -/
  | programData (q : ReqSrc)
  /-- CLASS_SET (R30) -/
  | classSet (q : ReqSrc) (k : Fin 8) (period : Nat) (phase : Nat)
  /-- CLASS_GET (R335) -/
  | classGet (q : ReqSrc)
  /-- PLACE_QUERY (R341) -/
  | placeQuery (q : ReqSrc)
  /-- PLACE_REBALANCE (R172) -/
  | placeRebalance (q : ReqSrc) (parts : List Nat)
  /-- PAIR_STATUS (R247) -/
  | pairStatus (q : ReqSrc)
  /-- PAIR_SWITCH (R247) -/
  | pairSwitch (q : ReqSrc)
  /-- PAIR_REVERT_INHIBIT (R343) -/
  | pairRevertInhibit (q : ReqSrc)
  /-- PAIR_SET_HOLD (R343) -/
  | pairSetHold (q : ReqSrc)
  /-- PAIR_SERVICE (R247) -/
  | pairService (q : ReqSrc)
  /-- TIME_STATUS (R335) -/
  | timeStatus (q : ReqSrc)
  /-- TIME_ACCEPT_STEP (R344) -/
  | timeAcceptStep (q : ReqSrc)
  /-- TIME_SET (R362) -/
  | timeSet (q : ReqSrc) (cfg : TimeCfg)
  /-- FORCE_SET (R342) -/
  | forceSet (q : ReqSrc)
  /-- FORCE_CLEAR (R342) -/
  | forceClear (q : ReqSrc)
  /-- FORCE_LIST (R335) -/
  | forceList (q : ReqSrc)
  /-- VAR_READ (R335) -/
  | varRead (q : ReqSrc) (vids : List W32)
  /-- FORCE_CLEAR_ALL (R335) -/
  | forceClearAll (q : ReqSrc)
  /-- REC_READ (R432) -/
  | recRead (q : ReqSrc)
  /-- REC_CLEAR (R427) -/
  | recClear (q : ReqSrc)
  /-- REC_SET_MODE (R426) -/
  | recSetMode (q : ReqSrc)
  /-- CTR_SET (R443) -/
  | ctrSet (q : ReqSrc)
  /-- CTR_ACL_SET (R443) -/
  | ctrAclSet (q : ReqSrc)
  /-- CTR_READ (R443) -/
  | ctrRead (q : ReqSrc) (counters : List (Fin 64))
  /-- UPDATE_BEGIN (R274) -/
  | updateBegin (q : ReqSrc)
  /-- UPDATE_DATA (R275) -/
  | updateData (q : ReqSrc) (result : List Byte)
  /-- UPDATE_VERIFY (R276) -/
  | updateVerify (q : ReqSrc)
  /-- UPDATE_ACTIVATE (R277) -/
  | updateActivate (q : ReqSrc)
  /-- COMMIT_UPDATE (R280) -/
  | commitUpdate (q : ReqSrc)
  /-- UPDATE_ROLLBACK (R280) -/
  | updateRollback (q : ReqSrc)
  /-- UPDATE_STATUS (R276) -/
  | updateStatus (q : ReqSrc)
  /-- ENTER_RECOVERY (R283) -/
  | enterRecovery (q : ReqSrc)
  /-- SAFETY_LOGIN (R394) -/
  | safetyLogin (q : ReqSrc) (password : List Byte)
  /-- SAFETY_LOGIN_EXPIRY (R333) -/
  | safetyLoginExpiry (tag : W64)
  /-- SAFETY_PARAM_SET (R393) -/
  | safetyParamSet (q : ReqSrc) (image : List Byte)
  /-- SAFETY_CONFIRM (R396) -/
  | safetyConfirm (q : ReqSrc)
  /-- SAFETY_STATUS (R335) -/
  | safetyStatus (q : ReqSrc)
  /-- SAFETY_LOG_READ (R397) -/
  | safetyLogRead (q : ReqSrc)
  /-- SAFETY_PASSWORD_SET (R394) -/
  | safetyPasswordSet (q : ReqSrc) (password : List Byte)
  /-- CAN_CONFIG (R401) -/
  | canConfig (q : ReqSrc) (channel : Fin 4) (cfg : CanCfg)
  /-- CAN_ABORT (R409) -/
  | canAbort (q : ReqSrc)
  /-- CAN_DETECT_RATE (R411) -/
  | canDetectRate (q : ReqSrc)
  /-- CAN_STATUS (R416) -/
  | canStatus (q : ReqSrc)
  /-- STATION_CONFIG (R413) -/
  | stationConfig (q : ReqSrc) (cfg : StationCfg)
  /-- STATION_PUB_SET (R414) -/
  | stationPubSet (q : ReqSrc) (pub : StationPub)
  /-- STATION_STATUS (R416) -/
  | stationStatus (q : ReqSrc)
  /-- TIME_SHADOW_APPLY (R350) -/
  | timeShadowApply
  /-- TIME_ANCHOR (R353) -/
  | timeAnchor
  /-- PTP_SYNC (R362) -/
  | ptpSync (port : Fin 2) (m : PtpMsg)
  /-- PTP_ANNOUNCE (R355) -/
  | ptpAnnounce (port : Fin 2) (m : PtpMsg) (d : PtpData)
  /-- PTP_PDELAY_REQ (R354) -/
  | ptpPdelayReq (port : Fin 2) (m : PtpMsg)
  /-- PTP_PDELAY_RESP (R354) -/
  | ptpPdelayResp (port : Fin 2) (m : PtpMsg) (turnaround : Nat)
  /-- PTP_PORT_SWITCH (R355) -/
  | ptpPortSwitch
  /-- PPS_IN_EDGE (R356) -/
  | ppsInEdge
  /-- PPS_OUT_PULSE (R368) -/
  | ppsOutPulse
  /-- PPS_OUT_PULSE_END (R368) -/
  | ppsOutPulseEnd
  /-- SYNC (R360) -/
  | sync (p : Port) (f : Frame)
  /-- SYNC_SEND (R360) -/
  | syncSend
  /-- ANNOUNCE (R361) -/
  | announce (p : Port) (f : Frame)
  /-- ANNOUNCE_SEND (R361) -/
  | announceSend
  /-- PDELAY_REQ (R359) -/
  | pdelayReq (p : Port) (f : Frame)
  /-- PDELAY_RESP (R359) -/
  | pdelayResp (p : Port) (f : Frame)
  /-- PDELAY_REQ_SEND (R359) -/
  | pdelayReqSend (p : Port)
  /-- MASTER_SYNC_TIMEOUT (R361) -/
  | masterSyncTimeout
  /-- HOLDOVER_ENTRY (R366) -/
  | holdoverEntry
  /-- HOLDOVER_EXPIRY (R366) -/
  | holdoverExpiry
  /-- TRIP_SAMPLE (R372) -/
  | tripSample (a : Sample) (b : Sample)
  /-- TRIP_WORD_LATCH (R377) -/
  | tripWordLatch (k : Fin 8)
  /-- OUTPUT_OVERLOAD (R375) -/
  | outputOverload (m : Fin 16)
  /-- OUTPUT_OVERTEMP (R375) -/
  | outputOvertemp (m : Fin 16)
  /-- OUTPUT_RETRY (R375) -/
  | outputRetry (m : Fin 16)
  /-- TEST_PULSE_START (R390) -/
  | testPulseStart (m : Fin 16)
  /-- TEST_PULSE_END (R390) -/
  | testPulseEnd (opened : Bool) (closed : Bool)
  /-- SAFETY_PAIR_DIFF (R397) -/
  | safetyPairDiff (partner : W32)
  /-- CAN_FRAME_RECEIVED (R404) -/
  | canFrameReceived (c : Fin 4) (fr : CanFrame)
  /-- CAN_FRAME_SENT (R408) -/
  | canFrameSent (c : Fin 4) (slot : Fin 65)
  /-- CAN_TX_RETRANSMIT (R408) -/
  | canTxRetransmit (c : Fin 4) (slot : Fin 65) (inc : Byte)
  /-- CAN_BUS_OFF (R400) -/
  | canBusOff (c : Fin 4)
  /-- CAN_BUS_OFF_RECOVERY (R400) -/
  | canBusOffRecovery (c : Fin 4)
  /-- CAN_DWELL_EXPIRY (R411) -/
  | canDwellExpiry (c : Fin 4)
  /-- CAN_SEARCH_EXPIRY (R411) -/
  | canSearchExpiry (c : Fin 4)
  /-- STATION_LINK_UP (R412) -/
  | stationLinkUp (port : Fin 2) (speed : Fin 3) (fullDuplex : Bool)
  /-- STATION_LINK_DOWN (R412) -/
  | stationLinkDown (port : Fin 2)
  /-- GRATUITOUS_ARP (R415) -/
  | gratuitousArp (port : Fin 2)
  /-- STATION_FRAME_RECEIVED (R412) -/
  | stationFrameReceived (port : Fin 2) (fr : EthFrame)
  /-- PRP_SUPERVISION_SEND (R413) -/
  | prpSupervisionSend
  /-- RECORDER_MRAM_WRITE (R421) -/
  | recorderMramWrite
  /-- TOKEN_REFILL (R424) -/
  | tokenRefill (code : W16) (part : Fin 512)
  /-- SUPPRESSED (R425) -/
  | suppressed (code : W16) (part : Fin 512)
  /-- E_SESS_HI_WRITE (R429) -/
  | eSessHiWrite (n : Fin 512) (v : W32)
  /-- LOAD (R430) -/
  | load (n : Fin 512) (ctl : W32)
  /-- ADVANCE (R430) -/
  | advance (n : Fin 512) (ctl : W32)
  /-- UNBIND (R429) -/
  | unbind (n : Fin 512) (ctl : W32)
  /-- SNAPSHOT_READY (R430) -/
  | snapshotReady (n : Fin 512)
  /-- C_EN_HI_WRITE (R435) -/
  | cEnHiWrite (v : W32)
  /-- C_UNLOCK_HI_WRITE (R442) -/
  | cUnlockHiWrite (n : Fin 512) (v : W32)
  /-- LEDTEST (R460) -/
  | ledtest
  /-- VIN_APPLIED (R444) -/
  | vinApplied (mv : Nat)
  /-- POWER_LOSS (R456) -/
  | powerLoss (mv : Nat)
  /-- START_DELAY_EXPIRY (R451) -/
  | startDelayExpiry
  /-- HOLDUP_CHARGED (R446) -/
  | holdupCharged
  /-- STRAP_CHANGE (R450) -/
  | strapChange (addr : BitVec 12) (addrp : Bool) (side : Bool) (recoveryN : Bool)
  /-- RST_N_LOW (R454) -/
  | rstNLow
  /-- RST_N_HIGH (R454) -/
  | rstNHigh
  /-- PRESENT_N_HIGH (R466) -/
  | presentNHigh
  /-- PRESENT_N_LOW (R467) -/
  | presentNLow
  /-- STOP_IN_ORDER_WAIT_END (R455) -/
  | stopInOrderWaitEnd
  /-- POWER_LOSS_SEQUENCE_DONE (R456) -/
  | powerLossSequenceDone
  /-- RAIL_OUT_5 (R457) -/
  | railOut5 (rail : Fin 8)
  /-- RAIL_FAULT (R457) -/
  | railFault (rail : Fin 8)
  /-- TEMP_WARNING (R457) -/
  | tempWarning (tdie : W16) (tinlet : W16)
  /-- TEMP_FAULT (R457) -/
  | tempFault (tdie : W16) (tinlet : W16)
  /-- FAULT_RESTART (R458) -/
  | faultRestart (tdie : W16)
  /-- WATCHDOG_EXPIRY (R453) -/
  | watchdogExpiry (core : Fin 4)
  /-- BOOT_TIMEOUT (R453) -/
  | bootTimeout
  /-- CLOCK_MONITOR_FAULT (R449) -/
  | clockMonitorFault
  /-- BOOT_COMPLETE (R459) -/
  | bootComplete (r : BootResult)
  /-- BLOCK_LOCK (R178) -/
  | blockLock (p : Port) (lane : Fin 4)
  /-- MGMT_QUERY_ANSWER (R137) -/
  | mgmtQueryAnswer (p : Port) (f : Frame)
  /-- BACKGROUND_TEST_START (R249) -/
  | backgroundTestStart (l : Fin 256)
  /-- PTP_PDELAY_REQ_SEND (R354) -/
  | ptpPdelayReqSend (port : Fin 2)
  /-- CAN_BUS_ERROR (R411) -/
  | canBusError (c : Fin 4) (inc : Byte)
  /-- CAN_INTEGRATION (R415) -/
  | canIntegration (c : Fin 4)
  /-- TCXO_VALID (R449) -/
  | tcxoValid
  /-- LEDTEST_END (R460) -/
  | ledtestEnd
  /-- COMMAND_TIMEOUT (R334) -/
  | commandTimeout (q : ReqSrc)
  /-- DELAYED_RESET (R345) -/
  | delayedReset
deriving DecidableEq, Repr

end Sys2Proof
end

