-- ==== Sys2Proof/Decode.lean ====
section
/-! DEFINITION. What a word spells. By the bits of spec/opcode_table.json no word spells a command, since no row of the table gives bits (every row's "fields" is empty). The words of Instruction Memory have encodings of their own: the five native formats (R102 to R104) and the bit-logic encoding (R117, R120), each with its encoder. -/
namespace Sys2Proof

/-- The command that a word spells by the table's bits: the table gives none, so there is none (log 3). -/
def decodeTableWord (_nbits _w : Nat) : Option Instr := none

/-! ### Fields of an instruction word (R102, R117) -/

def fOp (w : W32) : BitVec 6 := w.extractLsb' 26 6
def fRd (w : W32) : BitVec 5 := w.extractLsb' 21 5
def fRa (w : W32) : BitVec 5 := w.extractLsb' 16 5
def fRb (w : W32) : BitVec 5 := w.extractLsb' 11 5
def fFn (w : W32) : BitVec 11 := w.extractLsb' 0 11
def fImm16 (w : W32) : W16 := w.extractLsb' 0 16
def fImm21 (w : W32) : BitVec 21 := w.extractLsb' 0 21
def fBits26 (w : W32) : BitVec 26 := w.extractLsb' 0 26

/-! ### Native instructions (R102 to R104) -/

/-- Integer operations: Format A, opcode 0x00, by function code (R104). -/
def decodeInt (l : Fin 256) (w : W32) : Option Instr :=
  match (fFn w).toNat with
  | 0x000 => some (.add l (fRd w) (fRa w) (fRb w))
  | 0x001 => some (.sub l (fRd w) (fRa w) (fRb w))
  | 0x002 => some (.and l (fRd w) (fRa w) (fRb w))
  | 0x003 => some (.or l (fRd w) (fRa w) (fRb w))
  | 0x004 => some (.xor l (fRd w) (fRa w) (fRb w))
  | 0x005 => some (.andn l (fRd w) (fRa w) (fRb w))
  | 0x006 => some (.shl l (fRd w) (fRa w) (fRb w))
  | 0x007 => some (.shr l (fRd w) (fRa w) (fRb w))
  | 0x008 => some (.sar l (fRd w) (fRa w) (fRb w))
  | 0x009 => some (.lts l (fRd w) (fRa w) (fRb w))
  | 0x00A => some (.ltu l (fRd w) (fRa w) (fRb w))
  | _ => none

/-- Multiply and divide: Format A, opcode 0x01, by function code (R104). -/
def decodeMul (l : Fin 256) (w : W32) : Option Instr :=
  match (fFn w).toNat with
  | 0x000 => some (.mul l (fRd w) (fRa w) (fRb w))
  | 0x001 => some (.mulhs l (fRd w) (fRa w) (fRb w))
  | 0x002 => some (.divs l (fRd w) (fRa w) (fRb w))
  | 0x003 => some (.divu l (fRd w) (fRa w) (fRb w))
  | 0x004 => some (.rmds l (fRd w) (fRa w) (fRb w))
  | 0x005 => some (.rmdu l (fRd w) (fRa w) (fRb w))
  | _ => none

/-- Floating point, binary64: Format A, opcode 0x02, by function code (R104). -/
def decodeF64 (l : Fin 256) (w : W32) : Option Instr :=
  match (fFn w).toNat with
  | 0x000 => some (.fadd64 l (fRd w) (fRa w) (fRb w))
  | 0x001 => some (.fsub64 l (fRd w) (fRa w) (fRb w))
  | 0x002 => some (.fmul64 l (fRd w) (fRa w) (fRb w))
  | 0x003 => some (.fdiv64 l (fRd w) (fRa w) (fRb w))
  | 0x004 => some (.fsqrt64 l (fRd w) (fRa w) (fRb w))
  | 0x008 => some (.fceq64 l (fRd w) (fRa w) (fRb w))
  | 0x009 => some (.fclt64 l (fRd w) (fRa w) (fRb w))
  | 0x00A => some (.fcle64 l (fRd w) (fRa w) (fRb w))
  | 0x010 => some (.itof64 l (fRd w) (fRa w) (fRb w))
  | 0x011 => some (.ftoi64 l (fRd w) (fRa w) (fRb w))
  | 0x012 => some (.f64to32 l (fRd w) (fRa w) (fRb w))
  | _ => none

/-- Floating point, binary32: Format A, opcode 0x03, by function code (R104). -/
def decodeF32 (l : Fin 256) (w : W32) : Option Instr :=
  match (fFn w).toNat with
  | 0x000 => some (.fadd32 l (fRd w) (fRa w) (fRb w))
  | 0x001 => some (.fsub32 l (fRd w) (fRa w) (fRb w))
  | 0x002 => some (.fmul32 l (fRd w) (fRa w) (fRb w))
  | 0x003 => some (.fdiv32 l (fRd w) (fRa w) (fRb w))
  | 0x004 => some (.fsqrt32 l (fRd w) (fRa w) (fRb w))
  | 0x008 => some (.fceq32 l (fRd w) (fRa w) (fRb w))
  | 0x009 => some (.fclt32 l (fRd w) (fRa w) (fRb w))
  | 0x00A => some (.fcle32 l (fRd w) (fRa w) (fRb w))
  | 0x010 => some (.itof32 l (fRd w) (fRa w) (fRb w))
  | 0x011 => some (.ftoi32 l (fRd w) (fRa w) (fRb w))
  | 0x012 => some (.f32to64 l (fRd w) (fRa w) (fRb w))
  | _ => none

/-- Coded arithmetic: Format A, opcode 0x04, by function code (R104). -/
def decodeCoded (l : Fin 256) (w : W32) : Option Instr :=
  match (fFn w).toNat with
  | 0x000 => some (.cmul l (fRd w) (fRa w) (fRb w))
  | 0x001 => some (.cdiv l (fRd w) (fRa w) (fRb w))
  | 0x002 => some (.cchk l (fRd w) (fRa w) (fRb w))
  | _ => none

/-- System operations: Format A, opcode 0x05, by function code (R104). -/
def decodeSys (l : Fin 256) (w : W32) : Option Instr :=
  match (fFn w).toNat with
  | 0x000 => some (.waitev l (fRd w) (fRa w) (fRb w))
  | 0x001 => some (.retev l (fRd w) (fRa w) (fRb w))
  | 0x002 => some (.rdtime l (fRd w) (fRa w) (fRb w))
  | 0x003 => some (.rdbnd l (fRd w) (fRa w) (fRb w))
  | 0x004 => some (.rdctr l (fRd w) (fRa w) (fRb w))
  | 0x005 => some (.yieldPass l (fRd w) (fRa w) (fRb w))
  | _ => none

/-- Immediates, DM access, indexed image access and JIND: Format B (R104). -/
def decodeB (l : Fin 256) (w : W32) : Option Instr :=
  match (fOp w).toNat with
  | 0x08 => some (.addk l (fRd w) (fRa w) (fImm16 w))
  | 0x09 => some (.andk l (fRd w) (fRa w) (fImm16 w))
  | 0x0A => some (.ork l (fRd w) (fRa w) (fImm16 w))
  | 0x0B => some (.xork l (fRd w) (fRa w) (fImm16 w))
  | 0x0C => some (.shlk l (fRd w) (fRa w) (fImm16 w))
  | 0x0D => some (.shrk l (fRd w) (fRa w) (fImm16 w))
  | 0x0E => some (.sark l (fRd w) (fRa w) (fImm16 w))
  | 0x0F => some (.ltsk l (fRd w) (fRa w) (fImm16 w))
  | 0x10 => some (.lds8 l (fRd w) (fRa w) (fImm16 w))
  | 0x11 => some (.ldu8 l (fRd w) (fRa w) (fImm16 w))
  | 0x12 => some (.lds16 l (fRd w) (fRa w) (fImm16 w))
  | 0x13 => some (.ldu16 l (fRd w) (fRa w) (fImm16 w))
  | 0x14 => some (.lds32 l (fRd w) (fRa w) (fImm16 w))
  | 0x15 => some (.ldu32 l (fRd w) (fRa w) (fImm16 w))
  | 0x16 => some (.ld64 l (fRd w) (fRa w) (fImm16 w))
  | 0x18 => some (.st8 l (fRd w) (fRa w) (fImm16 w))
  | 0x19 => some (.st16 l (fRd w) (fRa w) (fImm16 w))
  | 0x1A => some (.st32 l (fRd w) (fRa w) (fImm16 w))
  | 0x1B => some (.st64 l (fRd w) (fRa w) (fImm16 w))
  | 0x22 => some (.imldx l (fRd w) (fRa w) (fImm16 w))
  | 0x23 => some (.imstx l (fRd w) (fRa w) (fImm16 w))
  | 0x32 => some (.jind l (fRd w) (fRa w) (fImm16 w))
  | _ => none

/-- Image access by LII, branches, JREL and LDHI: Formats C, D and E (R104). Bit 20 of Format C stays with the LII: that it must be 0 the instruction checks. -/
def decodeCDE (l : Fin 256) (w : W32) : Option Instr :=
  match (fOp w).toNat with
  | 0x20 => some (.imld l (fRd w) (fImm21 w))
  | 0x21 => some (.imst l (fRd w) (fImm21 w))
  | 0x28 => some (.breq l (fRd w) (fRa w) (fImm16 w))
  | 0x29 => some (.brne l (fRd w) (fRa w) (fImm16 w))
  | 0x2A => some (.brlts l (fRd w) (fRa w) (fImm16 w))
  | 0x2B => some (.brges l (fRd w) (fRa w) (fImm16 w))
  | 0x2C => some (.brltu l (fRd w) (fRa w) (fImm16 w))
  | 0x2D => some (.brgeu l (fRd w) (fRa w) (fImm16 w))
  | 0x30 => some (.jrel l (fRd w) (fImm21 w))
  | 0x31 => some (.ldhi l (fRd w) (fImm21 w))
  | _ => none

/-- The native instruction a word spells for a lane; none where the tables list no such opcode or function code (R103). -/
def decodeNative (l : Fin 256) (w : W32) : Option Instr :=
  match (fOp w).toNat with
  | 0x00 => decodeInt l w
  | 0x01 => decodeMul l w
  | 0x02 => decodeF64 l w
  | 0x03 => decodeF32 l w
  | 0x04 => decodeCoded l w
  | 0x05 => decodeSys l w
  | _ => (decodeB l w).orElse fun _ => decodeCDE l w

/-! ### Bit-logic instructions (R117, R120) -/

/-- The bit-logic instruction a word spells for a lane; none for an operation that the table does not list (R117). -/
def decodeBitLogic (l : Fin 256) (w : W32) : Option Instr :=
  match (fOp w).toNat with
  | 0x00 => some (.blNop l (fBits26 w))
  | 0x01 => some (.blLd l (fBits26 w))
  | 0x02 => some (.blLdn l (fBits26 w))
  | 0x03 => some (.blAnd l (fBits26 w))
  | 0x04 => some (.blAndn l (fBits26 w))
  | 0x05 => some (.blOr l (fBits26 w))
  | 0x06 => some (.blOrn l (fBits26 w))
  | 0x07 => some (.blXor l (fBits26 w))
  | 0x08 => some (.blXnor l (fBits26 w))
  | 0x09 => some (.blSt l (fBits26 w))
  | 0x0A => some (.blStn l (fBits26 w))
  | 0x0B => some (.blSet l (fBits26 w))
  | 0x0C => some (.blRst l (fBits26 w))
  | 0x0D => some (.blEp l (fBits26 w))
  | 0x0E => some (.blEn l (fBits26 w))
  | 0x0F => some (.blPush l (fBits26 w))
  | 0x10 => some (.blPopa l (fBits26 w))
  | 0x11 => some (.blPopo l (fBits26 w))
  | 0x12 => some (.blPop l (fBits26 w))
  | 0x13 => some (.blPeek l (fBits26 w))
  | 0x14 => some (.blNot l (fBits26 w))
  | 0x15 => some (.blOne l (fBits26 w))
  | 0x16 => some (.blZero l (fBits26 w))
  | 0x17 => some (.blJc l (fBits26 w))
  | 0x18 => some (.blJcn l (fBits26 w))
  | 0x19 => some (.blJmp l (fBits26 w))
  | 0x1A => some (.blEnd l (fBits26 w))
  | _ => none

/-- A word is defined in the encoding a lane decodes it in (R103, R117). -/
def wordDefined (bitLogic : Bool) (w : W32) : Bool :=
  if bitLogic then (decodeBitLogic 0 w).isSome else (decodeNative 0 w).isSome

/-! ### The encoder -/

/-- Format A (R102). -/
def wordA (op : BitVec 6) (fn : BitVec 11) (rd ra rb : BitVec 5) : W32 := op ++ rd ++ ra ++ rb ++ fn
/-- Formats B and D (R102). -/
def wordB (op : BitVec 6) (r1 r2 : BitVec 5) (imm : W16) : W32 := op ++ r1 ++ r2 ++ imm
/-- Formats C and E (R102). -/
def wordC (op : BitVec 6) (rd : BitVec 5) (imm : BitVec 21) : W32 := op ++ rd ++ imm
/-- The bit-logic encoding (R117). -/
def wordBl (op : BitVec 6) (f : BitVec 26) : W32 := op ++ f

/-- The instruction word of a lane instruction; other commands have none. -/
def encodeLane : Instr → Option W32
  | .add _ rd ra rb => some (wordA 0x00 0x000 rd ra rb)
  | .sub _ rd ra rb => some (wordA 0x00 0x001 rd ra rb)
  | .and _ rd ra rb => some (wordA 0x00 0x002 rd ra rb)
  | .or _ rd ra rb => some (wordA 0x00 0x003 rd ra rb)
  | .xor _ rd ra rb => some (wordA 0x00 0x004 rd ra rb)
  | .andn _ rd ra rb => some (wordA 0x00 0x005 rd ra rb)
  | .shl _ rd ra rb => some (wordA 0x00 0x006 rd ra rb)
  | .shr _ rd ra rb => some (wordA 0x00 0x007 rd ra rb)
  | .sar _ rd ra rb => some (wordA 0x00 0x008 rd ra rb)
  | .lts _ rd ra rb => some (wordA 0x00 0x009 rd ra rb)
  | .ltu _ rd ra rb => some (wordA 0x00 0x00A rd ra rb)
  | .mul _ rd ra rb => some (wordA 0x01 0x000 rd ra rb)
  | .mulhs _ rd ra rb => some (wordA 0x01 0x001 rd ra rb)
  | .divs _ rd ra rb => some (wordA 0x01 0x002 rd ra rb)
  | .divu _ rd ra rb => some (wordA 0x01 0x003 rd ra rb)
  | .rmds _ rd ra rb => some (wordA 0x01 0x004 rd ra rb)
  | .rmdu _ rd ra rb => some (wordA 0x01 0x005 rd ra rb)
  | .fadd64 _ rd ra rb => some (wordA 0x02 0x000 rd ra rb)
  | .fsub64 _ rd ra rb => some (wordA 0x02 0x001 rd ra rb)
  | .fmul64 _ rd ra rb => some (wordA 0x02 0x002 rd ra rb)
  | .fdiv64 _ rd ra rb => some (wordA 0x02 0x003 rd ra rb)
  | .fsqrt64 _ rd ra rb => some (wordA 0x02 0x004 rd ra rb)
  | .fceq64 _ rd ra rb => some (wordA 0x02 0x008 rd ra rb)
  | .fclt64 _ rd ra rb => some (wordA 0x02 0x009 rd ra rb)
  | .fcle64 _ rd ra rb => some (wordA 0x02 0x00A rd ra rb)
  | .itof64 _ rd ra rb => some (wordA 0x02 0x010 rd ra rb)
  | .ftoi64 _ rd ra rb => some (wordA 0x02 0x011 rd ra rb)
  | .f64to32 _ rd ra rb => some (wordA 0x02 0x012 rd ra rb)
  | .fadd32 _ rd ra rb => some (wordA 0x03 0x000 rd ra rb)
  | .fsub32 _ rd ra rb => some (wordA 0x03 0x001 rd ra rb)
  | .fmul32 _ rd ra rb => some (wordA 0x03 0x002 rd ra rb)
  | .fdiv32 _ rd ra rb => some (wordA 0x03 0x003 rd ra rb)
  | .fsqrt32 _ rd ra rb => some (wordA 0x03 0x004 rd ra rb)
  | .fceq32 _ rd ra rb => some (wordA 0x03 0x008 rd ra rb)
  | .fclt32 _ rd ra rb => some (wordA 0x03 0x009 rd ra rb)
  | .fcle32 _ rd ra rb => some (wordA 0x03 0x00A rd ra rb)
  | .itof32 _ rd ra rb => some (wordA 0x03 0x010 rd ra rb)
  | .ftoi32 _ rd ra rb => some (wordA 0x03 0x011 rd ra rb)
  | .f32to64 _ rd ra rb => some (wordA 0x03 0x012 rd ra rb)
  | .cmul _ rd ra rb => some (wordA 0x04 0x000 rd ra rb)
  | .cdiv _ rd ra rb => some (wordA 0x04 0x001 rd ra rb)
  | .cchk _ rd ra rb => some (wordA 0x04 0x002 rd ra rb)
  | .waitev _ rd ra rb => some (wordA 0x05 0x000 rd ra rb)
  | .retev _ rd ra rb => some (wordA 0x05 0x001 rd ra rb)
  | .rdtime _ rd ra rb => some (wordA 0x05 0x002 rd ra rb)
  | .rdbnd _ rd ra rb => some (wordA 0x05 0x003 rd ra rb)
  | .rdctr _ rd ra rb => some (wordA 0x05 0x004 rd ra rb)
  | .yieldPass _ rd ra rb => some (wordA 0x05 0x005 rd ra rb)
  | .addk _ rd ra imm => some (wordB 0x08 rd ra imm)
  | .andk _ rd ra imm => some (wordB 0x09 rd ra imm)
  | .ork _ rd ra imm => some (wordB 0x0A rd ra imm)
  | .xork _ rd ra imm => some (wordB 0x0B rd ra imm)
  | .shlk _ rd ra imm => some (wordB 0x0C rd ra imm)
  | .shrk _ rd ra imm => some (wordB 0x0D rd ra imm)
  | .sark _ rd ra imm => some (wordB 0x0E rd ra imm)
  | .ltsk _ rd ra imm => some (wordB 0x0F rd ra imm)
  | .lds8 _ rd ra imm => some (wordB 0x10 rd ra imm)
  | .ldu8 _ rd ra imm => some (wordB 0x11 rd ra imm)
  | .lds16 _ rd ra imm => some (wordB 0x12 rd ra imm)
  | .ldu16 _ rd ra imm => some (wordB 0x13 rd ra imm)
  | .lds32 _ rd ra imm => some (wordB 0x14 rd ra imm)
  | .ldu32 _ rd ra imm => some (wordB 0x15 rd ra imm)
  | .ld64 _ rd ra imm => some (wordB 0x16 rd ra imm)
  | .st8 _ rd ra imm => some (wordB 0x18 rd ra imm)
  | .st16 _ rd ra imm => some (wordB 0x19 rd ra imm)
  | .st32 _ rd ra imm => some (wordB 0x1A rd ra imm)
  | .st64 _ rd ra imm => some (wordB 0x1B rd ra imm)
  | .imldx _ rd ra imm => some (wordB 0x22 rd ra imm)
  | .imstx _ rd ra imm => some (wordB 0x23 rd ra imm)
  | .jind _ rd ra imm => some (wordB 0x32 rd ra imm)
  | .imld _ rd lii => some (wordC 0x20 rd lii)
  | .imst _ rd lii => some (wordC 0x21 rd lii)
  | .breq _ ra rb off => some (wordB 0x28 ra rb off)
  | .brne _ ra rb off => some (wordB 0x29 ra rb off)
  | .brlts _ ra rb off => some (wordB 0x2A ra rb off)
  | .brges _ ra rb off => some (wordB 0x2B ra rb off)
  | .brltu _ ra rb off => some (wordB 0x2C ra rb off)
  | .brgeu _ ra rb off => some (wordB 0x2D ra rb off)
  | .jrel _ rd imm => some (wordC 0x30 rd imm)
  | .ldhi _ rd imm => some (wordC 0x31 rd imm)
  | .blNop _ f => some (wordBl 0x00 f)
  | .blLd _ f => some (wordBl 0x01 f)
  | .blLdn _ f => some (wordBl 0x02 f)
  | .blAnd _ f => some (wordBl 0x03 f)
  | .blAndn _ f => some (wordBl 0x04 f)
  | .blOr _ f => some (wordBl 0x05 f)
  | .blOrn _ f => some (wordBl 0x06 f)
  | .blXor _ f => some (wordBl 0x07 f)
  | .blXnor _ f => some (wordBl 0x08 f)
  | .blSt _ f => some (wordBl 0x09 f)
  | .blStn _ f => some (wordBl 0x0A f)
  | .blSet _ f => some (wordBl 0x0B f)
  | .blRst _ f => some (wordBl 0x0C f)
  | .blEp _ f => some (wordBl 0x0D f)
  | .blEn _ f => some (wordBl 0x0E f)
  | .blPush _ f => some (wordBl 0x0F f)
  | .blPopa _ f => some (wordBl 0x10 f)
  | .blPopo _ f => some (wordBl 0x11 f)
  | .blPop _ f => some (wordBl 0x12 f)
  | .blPeek _ f => some (wordBl 0x13 f)
  | .blNot _ f => some (wordBl 0x14 f)
  | .blOne _ f => some (wordBl 0x15 f)
  | .blZero _ f => some (wordBl 0x16 f)
  | .blJc _ f => some (wordBl 0x17 f)
  | .blJcn _ f => some (wordBl 0x18 f)
  | .blJmp _ f => some (wordBl 0x19 f)
  | .blEnd _ f => some (wordBl 0x1A f)
  | _ => none

end Sys2Proof
end

