-- ==== Sys2Proof/Config.lean ====
section
/-! DEFINITION. What one unit fixes, and the values the spec leaves open. Opaque constants have no body: a statement holds for every value of them. -/
namespace Sys2Proof.Config

/-- Free values, one per index: random session tags, challenges and probe values (R323, R337). Notes 10. -/
opaque freeValue : Nat → W64

/-- Payload word of the firmware's MGMT messages, whose layouts are internal to it (R181): 0 ECHO query, 1 ECHO answer, 2 query of the leader pair, 3 answer to it. Notes 10. -/
opaque mgmtWord : Nat → W32

/-- The unit serial, H_SERIAL (R314). Notes 9. -/
opaque serial : W64

/-- The host key that partition 0 has as delivered (R323). Notes 9. -/
opaque systemKey : List Byte

/-- The digest PROGRAM_STATUS gives of a version's code (R256): the spec names no algorithm. Notes 10. -/
opaque versionDigest : List Byte → W64

/-- The P-384 public key in the Recovery ROM that verifies updates (R273), as its affine coordinates. Notes 9. -/
opaque updateKeyX : Nat
opaque updateKeyY : Nat

/-- SHA-384 of the firmware image in each slot as delivered, for FROM_HASH (R274): slot B when the argument is true. Notes 9. -/
opaque imageHash : Bool → List Byte

/-- The bytes of the Recovery ROM, whose contents the spec does not give (R26, R282). Notes 9. -/
opaque romByte : Nat → Byte

/-- The input power a unit measures at an instant of clk, in 0.1 W (PWR_PIN, 17): no command carries it. Notes 10. -/
opaque inputPower : Nat → W16

/-- The period in µs at which a remote I/O adapter publishes a set, its own pace (R209, R214): the spec gives the placer none. Notes 77. -/
opaque adapterPeriod : W32 → Nat

/-- The unit is of the conformally coated variant C00, not A00 (R3). Notes 9. -/
opaque conformal : Bool

/-- H_REV.ISSUE (R314). -/
def issue : Byte := 0x03

/-- H_ID: FAMILY 0x4C5A above TYPE 0x9256 (R2, R314). -/
def hid : W32 := 0x4C5A9256

end Sys2Proof.Config
end

