-- ==== Sys2Proof/Machine/State.lean ====
section
/-! DEFINITION. The state of the block as plain data: every register, buffer, queue, counter, mode and pin the spec gives the module, the queue of waiting commands, and `State.reset`. Each structure names the rules of spec/ it follows; INVENTORY.md lists each field with its reset value. -/
namespace Sys2Proof.Machine

/-- Reasons a step can stop with a fault. The spec gives every command an effect or none, so no meaning raises it; safe. -/
inductive Fault where
  /-- Raised by nobody; kept because the host's interface asks for a type of faults. Safe. -/
  | none
deriving DecidableEq, Repr

/-- Reasons a step has no meaning. -/
inductive Refusal where
  /-- Raised by an arm of exec whose row has no meaning yet. Safe: nothing can be proved of such a step. -/
  | notModelled (mnemonic : String)
deriving DecidableEq, Repr

/-- Module states (R253). -/
inductive MState where
  | off | bypass | boot | recovery | joining | unsynced | synced | active | safe | service
deriving DecidableEq, Repr

/-- Names of the time bounds the rules state; each armed one stands in `State.timers` with its due instant. -/
inductive Timer where
  | hbSend | hbMiss | takeover | partnerSilent | healthReport | healthFrame | beaconSend | leaderQuery
  | goRepeat | prepared | readyWait | goCompare | pairQuery (pair : Nat) | held
  | identSend (p : Nat) | identUp (p : Nat) | breakRepeat (p : Nat) | alignSend (p : Nat) (lane : Nat)
  | reqRetry (session : Nat) (seq : Nat) | reqTimeout (session : Nat) (seq : Nat)
  | bypassOpen (row : Bool) | bypassClose
  | adoption (task : Nat) | forceRepeat | forceEffective | takeBack
  | tripSample | scrubLane (l : Nat) | cmpRound | cmpShadow | bgTest (l : Nat)
  | revertRetry (p : Nat) | trialSave | trialLimit | fallback
  | irqMod | tlsSession (c : Nat) | command (session : Nat) (seq : Nat) | delayedReset
  | safetyDiff | outputRetry (m : Nat) | testPulseEnd
  | canDwell (c : Nat) | canSearch (c : Nat) | canOn (c : Nat) | arp (p : Nat) | prp
  | ptpPdelay (p : Nat) | syncSend | announceSend | pdelaySend (p : Nat) | masterSync | ppsEnd
  | startDelay | stopWait | powerSeq | restart | led | bootLimit | rstRelease
deriving DecidableEq, Repr

/-- What the frames carry whose payload layouts are internal to the firmware, or which the spec does not lay out (R61, R151, R157, R181, R186, R219, R330, R378, R403). -/
inductive Msg where
  | plan (epoch : W32) (loss : Bool) (plan : ModPlan) (dom : Domain)
  | delta (d : DeltaMsg)
  | agree (task : W32) (number : Nat)
  | safeNotice (part : Nat) (entry : W64) (code : Nat)
  | bundleReq (task : W32) (bnd : W32)
  | bundle (task : W32) (bnd : W32) (words : List BWord)
  | mirror (m : MirrorMsg)
  | force (m : ForceMsg)
  | role (m : RoleMsg)
  | goCmp (m : GoMsg)
  | placer (m : PlacerMsg)
  | join (m : JoinMsg)
  | req (m : ReqMsg)
  | rsp (m : RspMsg)
  | notice (kind : Byte) (links : List LinkName) (t0 : W64)
  | tripWords (cls : Nat) (tripIn tripDiag : W64)
  | canWords (cls : Nat) (channel : Nat) (objs : List (List W64)) (window : List W64)
deriving DecidableEq, Repr

/-- What the module has sent at its ports and pins. -/
inductive Out where
  | frame (p : Port) (f : Frame)
  /-- A frame whose payload begins with the bytes that `f` has; the rest, of internal layout, carries `m`. -/
  | msg (p : Port) (f : Frame) (m : Msg)
  | control (p : Port) (kind : Byte) (data : List Byte)
  | ident (p : Port) (i : Ident)
  | heartbeat (b : Heartbeat)
  | can (channel : Nat) (f : CanFrame)
  | udp (bytes : List Byte) (dstIp : W32) (dstPort : W16)
  | tls (conn : Nat) (bytes : List Byte)
  | tlsClosed (conn : Nat)
  | arp (port : Nat)
  /-- The answer to an ARP or ICMP echo request of a source (R412). -/
  | ethReply (port src : Nat) (asks : EthAsk)
  | prpSupervision
  | ptpPdelayReq (port : Nat)
  | ptpPdelayResp (port : Nat) (rx tx : W64)
  /-- What a service core's access reads (R301). -/
  | core (core : Nat) (data : List Byte)
deriving DecidableEq, Repr

/-- The stage of a stop in order (R455) and what follows it. -/
inductive Stop where
  | none
  | waiting (cause : Byte) (withdrawn : Bool)
  | planned (cause : Byte) (withdrawn : Bool)
  | powerSeq (cause : Byte)
  | silent
deriving DecidableEq, Repr

/-- Module-wide control and health state (R251 to R254). -/
structure Mod where
  st : MState
  solo : Bool
  isolated : Bool
  bootOk : Bool
  stop : Stop
  resetDue : Option Byte
  watchdog : Bool
  resetAt : Nat
  hrSeq : W16
  ce : W32
  overruns : W32
  disagree : W32
  bgFail : W16
  bgFailAt : Option Nat
  imgEccAt : Option Nat
  dramEccAt : Option Nat
  cmpFlag : Bool
  supply : Bool
  temp : Bool
  syncPct : Nat
  /-- A commit has been made as ACTIVE since reset (R415). -/
  firstCommit : Bool
  restarts : List Nat
deriving DecidableEq, Repr

/-- Contacts and front panel (R306, R444, R450, R460, R466, R204, R368). -/
structure Pins where
  vin : Nat
  /-- The clk at which VIN reached 18.5 V (R451). -/
  vinSince : Nat
  rstN : Bool
  presentN : Bool
  addr : BitVec 12
  addrp : Bool
  pairSide : Bool
  recoveryN : Bool
  bypEW : Bool
  bypNS : Bool
  hrdy : Bool
  hirq : Bool
  hio : List Byte
  ppsOut : Bool
  ledTest : Bool
deriving DecidableEq, Repr

/-- One PTP port (R354, R355). -/
structure PtpPort where
  /-- The selected master: its port identity and dataset, and the clk of its latest Announce. -/
  master : Option (Nat × PtpData)
  annAt : Nat
  lastSync : Option Nat
  delay : Nat
  reqAt : Option W64
deriving DecidableEq, Repr

/-- Link-delay measurement of one ring port (R359). -/
structure LinkDelay where
  delay : Nat
  samples : List Nat
  reqAt : Option W64
deriving DecidableEq, Repr

/-- The Time Unit and the servo (R349 to R369). -/
structure Time where
  cnt : W64
  offset : W64
  rate : W32
  anchor : W64
  shOffset : W64
  shRate : W32
  applyAt : W64
  ppsoutEn : Bool
  ppsinEn : Bool
  applyArm : Bool
  grade : BitVec 4
  src : BitVec 4
  master : Bool
  stepRefused : Bool
  state : BitVec 2
  stepThr : W32
  refused : W64
  errEst : W32
  ppsin : W64
  hold : W32
  holdE0 : Int
  holdTemp : W16
  holdAt : Nat
  everSet : Bool
  lastMeas : Nat
  /-- An announced or accepted step: (S, step) (R364). -/
  step : Option (W64 × W64)
  stepLoaded : Bool
  /-- Per class, the boundary under the old time after which the new grid starts (R365). -/
  grid : Table W64
  ppsSec : Option Nat
  masterMod : Option Nat
  masterGrade : Nat
  /-- Per module heard: grade and error of its latest ANNOUNCE, its clk, and how many in succession had a lower grade than the master (R361). -/
  heard : Table (Nat × Nat × Nat × Nat)
  /-- The clk of the last PPS_IN edge used (R356), and T of the last TIME_ANCHOR (R353). -/
  ppsAt : Option Nat
  anchored : Option W64
  syncSeq : W16
  annSeq : W16
  pdSeq : W16
  links : Table LinkDelay
  ptp : Table PtpPort
  ptpPort : Option Nat
  ptpBetter : Nat
  ptpDomain : Nat
  srcPrio : List Nat
deriving DecidableEq, Repr

/-- Bundle buffers of a lane: P and K (R17, R76) and the words a bit-logic pass preloaded (R119). -/
structure Bundles where
  p : List BWord
  k : List BWord
  pre : List Nat
deriving DecidableEq, Repr

/-- What a fast event banks (R127): w24 to w31, the bit-logic state, L_FPCTL and L_FPSTAT. -/
structure Bank where
  w : Table W64
  acc : Bool
  stack : List Bool
  scratch : W64
  fpctl : BitVec 3
  fpstat : BitVec 5
deriving DecidableEq, Repr

/-- The two groups of wake requests (R452). -/
inductive Wake where | cycle | other
deriving DecidableEq, Repr

/-- What the dispatcher saves of a pre-empted context before it starts a fast-class pass, and restores before RETEV: w1 to w23, L_TASK, L_RUN, the windows, and the armed timer (R128, R490). -/
structure Saved where
  w : Table W64
  task : W32
  runKind : Bool
  runPass : Bool
  xwin : W32
  dwin : W32
  timer : W32
  tarm : Bool
deriving DecidableEq, Repr

/-- One Execution Lane with its Lane Event Controller (R91 to R133, R490). -/
structure Lane where
  w : Table W64
  alt : Bank
  pc : W64
  eclass : BitVec 2
  wait : Bool
  gated : Bool
  kind : Bool
  pass : Bool
  mode : Bool
  run : Bool
  en : Bool
  bgtest : Bool
  retire : Bool
  runKind : Bool
  runPass : Bool
  task : W32
  xwin : W32
  dwin : W32
  fpctl : BitVec 3
  fpstat : BitVec 5
  fltValid : Bool
  fltPass : Bool
  fltMode : Bool
  fltCause : Byte
  fltPc : W32
  fltAddr : W32
  bun : Bundles
  hold : Bundles
  imCorr : W16
  dmCorr : W16
  clk : W64
  shLane : Option W32
  shSvc : Option W32
  evpend : BitVec 13
  evmask : BitVec 13
  evclass : BitVec 13
  lvlRepl : Bool
  lvlCdone : Bool
  tarm : Bool
  gate : Bool
  timer : W32
  evretN : W32
  evretF : W32
  evvecN : BitVec 17
  evvecF : BitVec 17
  dspent : BitVec 17
  replwait : W32
  acc : Bool
  stack : List Bool
  scratch : W64
  /-- Class and boundary of the cycle each event class runs (R36, R109). -/
  clsN : Option Nat
  clsF : Option Nat
  bndN : W64
  bndF : W64
  /-- Per event class: bundles handed over in the current class cycle, and those of them not yet in NEXT (R124 CDONE). -/
  handedN : Nat
  outN : Nat
  handedF : Nat
  outF : Nat
  /-- Cycle-start events owed to the lane until its wake and the freeze are complete (R16). -/
  owed : BitVec 8
  /-- A normal handler has been pre-empted by the fast handler that runs (R128). -/
  inNormal : Bool
  /-- The event class whose cycle start the lane took last is the fast one: while no handler runs, its cycle is the current one (R124). -/
  curFast : Bool
  saved : Option Saved
  hwVerdicts : List Nat
  bgPasses : Nat
  scrub : Nat
  alu : Bool
deriving DecidableEq, Repr

/-- Errors a protected 8-byte word holds (R96, R250). -/
inductive MemErr where | single | uncorrectable
deriving DecidableEq, Repr

/-- A cycle class on this module (R12, R23, R29, R153). -/
structure Cls where
  period : Nat
  phase : Nat
  cur : Bool
  bnd : Option W64
  prevBnd : Option W64
  /-- The boundary whose freeze has begun (R13), and the clk at which the copy completes (R15). -/
  frozen : Option W64
  freezing : Option Nat
  /-- The class runs the new plan of `pl.plan`; false while it still runs `pl.old`. -/
  switched : Bool
  count : Nat
deriving DecidableEq, Repr

/-- One entry of a SIG (R221) with the clk at which it was ready or arrived. -/
structure SigEntry where
  task : W32
  status : Byte
  code : Byte
  sig : W64
  at_ : Nat
deriving DecidableEq, Repr

/-- One class cycle of one partition (R221, R227 to R233). -/
structure Cycle where
  part : Nat
  cls : Nat
  bnd : W64
  own : List SigEntry
  partner : List SigEntry
  lateOwn : List W32
  latePartner : List W32
  /-- Tasks settled: to be committed (true) or not (false). -/
  settled : List (W32 × Bool)
  disputed : List W32
  /-- Tasks whose cycle has counted under R52. -/
  counted : List W32
  arbitration : Bool
  withheld : Bool
  committed : Bool
deriving DecidableEq, Repr

/-- A received instance of a publication set (R211). -/
structure Inst where
  seq : W32
  stamp : W32
  src : Nat
  nfrag : Nat
  frags : List Nat
  words : Table W64
  safe : Bool
deriving DecidableEq, Repr

/-- Reception of one publication set (R45, R211); `frozen` per reading class: SEQ, stamp and last OLD flag, none while NEVER. -/
structure SetRx where
  complete : List Inst
  partial_ : List Inst
  frozen : Table (W32 × W32 × Bool)
deriving DecidableEq, Repr

inductive PState where | loaded | running | safe
deriving DecidableEq, Repr

/-- An ordered state of a partition: the corrected time from which classes enter it, the code of its trigger, the classes that have entered it (R39, R61, R491). -/
structure Order where
  st : PState
  e : W64
  code : W16
  entered : List Nat
deriving DecidableEq, Repr

/-- A user partition (R37 to R44, R52, R63, R256). -/
structure Part where
  cfg : PartCfg
  order : Nat
  state : PState
  limit : Nat
  mismatchSafe : Bool
  faultSafe : Bool
  /-- An ordered state, the corrected time from which classes enter it, the trigger code. -/
  pend : Option (PState × W64 × W16)
  /-- The state before it, in which classes run until they enter (R491). -/
  was : PState
  /-- Classes that have entered the ordered state. -/
  entered : List Nat
  /-- Orders that follow the one in `pend`, by rising instants: a SAFE trigger before a STOP, or one while a START is still being entered (R60, R61). -/
  later : List Order
  pendProfile : Option (Profile × W64)
  profEntered : List Nat
  /-- Per class, the boundary from which its cycles have a MIRROR, where cycles before it had none (R226). -/
  owedFrom : Table W64
  change : Change
  applyAt : W64
  window : Nat
  reverting : Bool
  stagedLen : Nat
  stagedCrc : W32
  keepStaged : Bool
deriving DecidableEq, Repr

/-- A hand-over to a Pass Comparator (R76): the bundles, whether a coded pass was checked, a flagged trap. -/
structure HandOver where
  lane : Nat
  task : W32
  cls : Nat
  bnd : W64
  p : List BWord
  k : List BWord
  coded : Bool
  trap : Option Byte
deriving DecidableEq, Repr

/-- One Pass Comparator (R85 to R89); unit 16 is the spare. -/
structure Cmp where
  target : BitVec 4
  subst : Bool
  shadow : Bool
  test : Bool
  en : Bool
  faulted : Bool
  fltValid : Bool
  last : BitVec 4
  fltInfo : W32
  fltTask : W32
  fltPri : W64
  fltCod : W64
  ncmp : W32
  nmism : W32
  round : Byte
  vector : Byte
  fail : Bool
  done : Bool
  queue : List HandOver
  /-- A permanent defect of this unit shows while it runs in shadow: the verdict it gives instead (physical condition). -/
  defect : Option (BitVec 4)
deriving DecidableEq, Repr

/-- Steps of a comparator test (R86, R87): the spare in place, shadow before, vectors, shadow after. -/
inductive CmpStep where | spare | before (c : Nat) | vectors (c : Nat) | after (c : Nat)
deriving DecidableEq, Repr

structure CmpRound where
  step : Option CmpStep
  /-- A re-test of one cluster under R87; the round continues with the next cluster afterwards if `resume`. -/
  retest : Bool
  resume : Option Nat
  /-- The cluster that a re-test is for. -/
  cluster : Nat
  stopped : Bool
  permanent : Option Nat
  /-- Clusters left without a comparator (R88). -/
  lost : List Nat
  rounds : Byte
deriving DecidableEq, Repr

/-- The Image Collector (R19): bundles offered to it, cluster granted last. -/
structure Coll where
  last : Nat
  waiting : List HandOver
deriving DecidableEq, Repr

/-- Access Guard registers and tables (R290 to R305). -/
structure Guard where
  fltIrq : Bool
  checking : Bool
  privf : Bool
  badrule : Bool
  overlap : Bool
  done : Bool
  widx : BitVec 12
  ridx : BitVec 12
  wdata0 : W32
  wdata1 : W32
  wdata2 : W32
  wdata3 : W32
  ovlA : BitVec 12
  ovlB : BitVec 12
  fltValid : Bool
  fltMaster : BitVec 2
  fltKind : BitVec 2
  fltPart : BitVec 9
  fltSource : Byte
  fltAddr : BitVec 40
  nmiss : W32
  act : Table W32
  active : Table Rule
  staging : Table Rule
  configured : List Rule
deriving DecidableEq, Repr

/-- What a leader keeps of each module's HEALTH frames (R134, R139, R164). -/
structure HealthView where
  at_ : Nat
  st : Byte
  epoch : W32
  level : Byte
  flags : W32
  /-- Lanes that may not be used, and clusters without coded work (R84, R88, R140). -/
  lanes : List Nat
  clusters : List Nat
deriving DecidableEq, Repr

/-- An epoch held prepared by this module (R152, R153). -/
structure Prep where
  epoch : W32
  leader : Nat
  loss : Bool
  plan : ModPlan
  dom : Domain
  go : Option W64
deriving DecidableEq, Repr

/-- Work that makes the leader issue an epoch. -/
inductive Work where
  | rebalance (parts : List Nat)
  /-- Pairs found lost: one epoch re-places the units of all of them (R155, R165). -/
  | loss (pairs : List Nat)
  | wrap
  | mend
  | guard
  | stage (part : Nat) (pkgs : List Package)
  /-- `idle`: the partition is LOADED, and the change ends with the switch (R266). -/
  | switch (part : Nat) (notBefore : W64) (window : Nat) (idle : Bool)
  | confirm (part : Nat)
  | revert (part : Nat) (cause : Nat)
  | discard (part : Nat)
  | profile (part : Nat) (p : Profile)
  | create (cfg : PartCfg)
  | remove (part : Nat)
  | flags (part : Nat) (autostart degradeOk forceOk recSepRow : Bool)
  | reservation (part : Nat) (r : Reserve)
  | classSet (k : Nat) (period : Nat) (phase : Nat)
  /-- A partition that an overload put in SAFE starts again (R171). -/
  | restart (part : Nat)
deriving DecidableEq, Repr

/-- An epoch this leader is issuing (R152, R155): the modules it addresses, those that have answered READY, the classes it affects. -/
structure Issue where
  epoch : W32
  work : Work
  dom : Domain
  mods : List Nat
  ready : List Nat
  go : Option W64
  affects : List Nat
  req : Option (ReqSrc × W16 × W16)
deriving DecidableEq, Repr

/-- The state of a migrating unit after one numbered delta (R157): words by declared VID, DM bytes, force entries. -/
structure Snap where
  number : Nat
  words : List (W32 × W64)
  dm : List (Nat × Byte)
  forces : List (W32 × W64)
deriving DecidableEq, Repr

/-- A migration stream this module sends or receives (R157, R158). -/
structure Migr where
  task : W32
  other : Nat
  incoming : Bool
  newest : Nat
  final : Bool
  words : List (W32 × W64)
  dm : List (Nat × Byte)
  forces : List (W32 × W64)
  agreed : Option Nat
  /-- What it held complete before, the newest first: number, words, DM bytes, force entries (R158, R159). -/
  past : List Snap := []
deriving DecidableEq, Repr

/-- What a module keeps of an earlier plan (R156): its epoch and apply instant, the home of each set, its own subscriptions and recovery shadows. -/
structure Past where
  epoch : W32
  apply : W64
  setHome : List (W32 × Nat)
  subs : List SubPlan
  shadowSets : List (W32 × List W32)
deriving DecidableEq, Repr

/-- The fragments of a PREPARE received so far: its epoch and sender, how many there are, and the plan records of each by its number (R151). -/
structure Frags where
  epoch : W32
  src : Nat
  total : Nat
  parts : Table (List Byte)
deriving DecidableEq, Repr

/-- Placement state (R134 to R172). -/
structure Place where
  epoch : W32
  leader : Option Nat
  lastBeacon : Option Nat
  health : Table HealthView
  plan : ModPlan
  old : ModPlan
  history : List Past
  prep : Option Prep
  issue : Option Issue
  todo : List (Work × Option (ReqSrc × W16 × W16))
  /-- The placer state of the epoch applied last. -/
  dom : Domain
  /-- An epoch that is current at the leader and not here: its plan is asked for (R154). -/
  asked : Option W32
  /-- Pairs found lost that have not been heard from again (R164, R165). -/
  gone : List Nat
  frags : Option Frags
  /-- Forwarding records: task or VID, new pair, new current VID, epoch of the move (R161). -/
  fwd : List (W32 × Nat × W32 × W32)
  migr : List Migr
  /-- Recovery shadows: set, stamp, values by declared VID (R150, R166). -/
  shadow : List (W32 × W32 × List (W32 × W64))
  held : List (Frame × Nat × ReqMsg)
  stale : Nat
  /-- Publication frames dropped under R156. -/
  wrongSource : Nat
  queries : List Nat
  quorumRec : Option Nat
  lastApply : W64
deriving DecidableEq, Repr

inductive LinkSt where | down | train | up
deriving DecidableEq, Repr

/-- Ring counters (07, Ring counters). -/
structure PortCnt where
  fwd : W32
  rxd : W32
  crcErr : W32
  stomped : W32
  malformed : W32
  dropBreak : W32
  unreachable : W32
  hopLimit : W32
  roleMiss : W32
  vc2Drop : W32
  down : W32
deriving DecidableEq, Repr

/-- The place a frame of VC0 or VC1 holds in an input port's pools: port, a number of its own, VC, pool and 64-byte units (R194). -/
structure Org where
  port : Nat
  id : Nat
  vc : Nat
  pool : Nat
  units : Nat
deriving DecidableEq, Repr

/-- A frame at an output: what it carries of internal layout, and where it came in; `org` is none for a frame of this module. -/
structure Tx where
  f : Frame
  body : Option Msg
  org : Option Org
deriving DecidableEq, Repr

/-- A VC2 frame on its way through the module: its outputs, each with whether it turns into a new ring there (R195). -/
structure Vc2 where
  f : Frame
  body : Option Msg
  outs : List (Port × Bool)
deriving DecidableEq, Repr

/-- One ring port or the Pair Link port (R175 to R197). -/
structure PortSt where
  st : LinkSt
  lock : List Nat
  aligned : List Nat
  identOkAt : Option Nat
  far : Option Nat
  upSeen : Bool
  crcTimes : List Nat
  /-- Credit in 64-byte units at 2 × vc + pool (R194). -/
  credit : Table Nat
  /-- Frames that wait for this output, in arrival order. -/
  txq : List Tx
  /-- The frame on the wire with the clk at which its last byte leaves, above those it suspends, each with the ns left of it (R196). -/
  sending : List (Tx × Nat)
  /-- VC2 frames that came in here and go on (R195). -/
  vc2 : List Vc2
  /-- Frames suspended at the other end: VC and pool (R196). -/
  susp : List (Nat × Nat)
  cnt : PortCnt
deriving DecidableEq, Repr

/-- A ring-state table entry (R198, R206, R237): DOWN since a clk, or planned from t0. -/
structure LinkEntry where
  link : LinkName
  downAt : Option Nat
  planT0 : Option W64
deriving DecidableEq, Repr

/-- The Ring Engine (R173 to R215). -/
structure Ring where
  ports : Table PortSt
  links : List LinkEntry
  seen : List (Nat × Nat × W32)
  /-- Notices still to be repeated: how often, the links, the kind (R199). -/
  repeats : Table (Nat × List LinkName × Byte)
  once : List (Nat × Nat × Nat)
  /-- A module leaving BOOT still has to open its column bypass after its row (R207). -/
  openNext : Bool
  /-- Rings, true the row's, whose bypass has opened here and whose RING_MEND is still to be sent (R207). -/
  opened : List Bool
  /-- The number the next frame to arrive has in a pool. -/
  nextId : Nat
deriving DecidableEq, Repr

/-- The partner as its latest HEARTBEAT shows it (R220). -/
structure PartnerView where
  st : BitVec 4
  solo : Bool
  inhibit : Bool
  modfault : Bool
  term : W32
  seq : Byte
  epoch : Byte
deriving DecidableEq, Repr

/-- A handover in progress (R246). `stage`: 0 proposed, 1 confirmed, 2 after H until step 4 completes. -/
structure Handover where
  h : W64
  conf : W64
  incoming : Bool
  switch : Bool
  stage : Nat
deriving DecidableEq, Repr

/-- Synchronisation progress (R255). -/
structure SyncSt where
  config : Bool
  plan : Bool
  packages : Bool
  forces : Bool
  image : Bool
  clean : List (Nat × Nat)
  restarts : Nat
deriving DecidableEq, Repr

/-- A force change that is open: the request it answers, and whether the partner has acknowledged it (R56). -/
structure ForceChg where
  msg : ForceMsg
  req : Option (ReqSrc × W16 × W16)
  acked : Bool
deriving DecidableEq, Repr

structure Adopt where
  part : Nat
  cls : Nat
  task : W32
  bnd : W64
  sig : W64
deriving DecidableEq, Repr

/-- The redundant pair (R216 to R255). -/
structure Pair where
  term : W32
  hbSeq : Byte
  view : Option PartnerView
  lastHb : Option Nat
  misses : Nat
  firstMiss : Option Nat
  echoed : Bool
  qE : Bool
  qW : Bool
  withhold : Bool
  pReport : List Byte
  level : Option Byte
  syncedAt : Option Nat
  hand : Option Handover
  sync : SyncSt
  adopt : List Adopt
  mirrorRx : List MirrorMsg
  plDownAt : Option Nat
  eDownAt : Option Nat
  wDownAt : Option Nat
  /-- Open force changes (R56). -/
  forceChg : List ForceChg
  /-- A handover cancelled by a GO is proposed again after the apply instant; true for PAIR_SWITCH (R248). -/
  rehand : Option Bool
deriving DecidableEq, Repr

/-- A force (R54 to R56): in effect for a class from its first boundary at or after `e`; `prev` is the value it replaces until then, none if there was none; `live` false marks a removal not yet effective everywhere. -/
structure Force where
  vid : W32
  val : W64
  part : Nat
  e : W64
  prev : Option W64
  live : Bool
deriving DecidableEq, Repr

/-- A doorbell (R318): BUF 0 empty, 1 response, 2 notice. NQ and H_DONE follow from it and the notice queue. -/
structure Doorbell where
  seq : W16
  buf : BitVec 2
  out : Bool
deriving DecidableEq, Repr

/-- The Host Port (R306 to R319). -/
structure HostIf where
  doze : Bool
  irqEn : Bool
  err : BitVec 6
  stState : Bool
  stBoot : Bool
  stMbox : Bool
  mask : BitVec 4
  modTime : BitVec 10
  unsig : Option Nat
  dozeHold : Bool
  db : Table Doorbell
  req : Table Byte
  rsp : Table (List Byte)
  /-- Latched HI words: key 4 × LO address + requester (R312). -/
  shadow : Table W32
deriving DecidableEq, Repr

/-- A session (R323, R333). -/
structure Session where
  tag : W64
  part : Nat
  src : ReqSrc
  last : Nat
  idle : Nat
  login : Option Nat
deriving DecidableEq, Repr

/-- A request accepted and waiting or in progress (R321, R326). `running` once its command has started and an answer is owed. -/
structure Request where
  src : ReqSrc
  cmd : W16
  seq : W16
  tag : W64
  part : Nat
  login : Bool
  noirq : Bool
  payload : List Byte
  running : Bool
deriving DecidableEq, Repr

/-- A response or notice (R322); `key` is the tag of the request it answers. -/
structure Response where
  cmd : W16
  seq : W16
  status : W16
  rflags : W16
  detail : W32
  time : W32
  epoch : W32
  payload : List Byte
  noirq : Bool
  key : W64
deriving DecidableEq, Repr

/-- Failed OPEN_SESSIONs of a mailbox or connection (R323). -/
structure AuthSt where
  fails : List Nat
  lockUntil : Option Nat
deriving DecidableEq, Repr

/-- A TLS connection (R327, R328). -/
structure TlsConn where
  conn : Nat
  cert : Nat
  busy : Bool
deriving DecidableEq, Repr

/-- Requests, responses, sessions and notices (R317 to R333); mailbox n has index n, connection c index 512 + c. -/
structure Mail where
  sessions : List Session
  issued : List W64
  chal : Table (W32 × List Byte × Nat)
  auth : Table AuthSt
  queue : List Request
  last : Table Response
  ready : Table Response
  notices : Table (List Response)
  lost : Table Nat
  tls : List TlsConn
  fwd : List (Request × Nat)
  rsps : List (Nat × RspMsg)
  /-- What the homes of a VAR_READ have answered so far (R335). -/
  gather : List ((ReqSrc × W16 × W16) × List Byte)
deriving DecidableEq, Repr

/-- Pair states of a Safety Checker (R383). -/
inductive SpState where | run | demand | ready | fault
deriving DecidableEq, Repr

structure SpSt where
  st : SpState
  sawDemand : Bool
  mixedAt : Option Nat
  mixedLong : Bool
  readySinceStart : Bool
  healthyAt : Option Nat
  demandSinceStart : Bool
deriving DecidableEq, Repr

/-- One Safety Checker (R374, R380 to R391). -/
structure Checker where
  raw : W32
  deb : W32
  /-- Per input: the value being counted and the clk of its first sample. -/
  cand : Table (Bool × Nat)
  ow : W32
  owCnt : Table Nat
  inOt : W32
  pairs : Table SpSt
  /-- Per RESET pair: has been seen low, clk of the rising edge. -/
  seenLow : W16
  rose : Table Nat
  en : W16
deriving DecidableEq, Repr

/-- An entry of the safety change log (R397). -/
structure SafetyLog where
  seq : W32
  t : W64
  source : W16
  kind : Byte
  result : Byte
  oldCheck : W32
  newCheck : W32
deriving DecidableEq, Repr

/-- The Trip I/O Block and the safety store (R370 to R399). -/
structure Trip where
  image : List Byte
  pendImage : Option (List Byte)
  safetyPart : Nat
  permitVids : List W32
  running : Bool
  cfgValid : Bool
  global : List Byte
  a : Checker
  b : Checker
  ovl : W16
  ot : W16
  drive : W16
  rb : W16
  latch : Table Byte
  value : W16
  diffCnt : Nat
  rbBadAt : Table Nat
  lostInCnt : Table Nat
  lostOutCnt : Table Nat
  retries : Table Nat
  pulse : Option Nat
  /-- Per output: when its last test pulse began and whether checker B gave it (R390). -/
  lastPulse : Table (Nat × Bool)
  pulseB : Bool
  pulseEndAt : Option Nat
  tripIn : Table W64
  tripDiag : Table W64
  /-- Per class, the boundary whose words have been latched (R377). -/
  latchFor : Table W64
  rxIn : Table (W64 × W64)
  /-- Classes whose words were late at a boundary and have not come since (R378). -/
  lateAt : Table W64
  pPairRun : W16
  fltInfo : W32
  password : Option (List Byte × List Byte)
  pwFails : List Nat
  pwLockUntil : Option Nat
  log : List SafetyLog
  logSeq : W32
deriving DecidableEq, Repr

/-- A receive object (R405): words, and per reading class the frames since its latch. -/
structure CanObj where
  cfg : CanObjCfg
  words : List W64
  count : Table Nat
deriving DecidableEq, Repr

structure CanTx where
  cfg : CanTxCfg
  pend : Option CanFrame
  /-- Newer contents of the slot while the pending frame is on the bus. -/
  next : Option CanFrame
  /-- The pending frame is on the bus; an abort has asked for its removal (R409). -/
  onBus : Bool
  aborting : Bool
  last : Option (List W64)
  commits : Nat
deriving DecidableEq, Repr

/-- A rate search (R411). -/
structure CanDetect where
  req : ReqSrc
  cmdSeq : W16
  index : Nat
  good : Nat
  frames : Nat
  apply : Bool
  dwell : Nat
deriving DecidableEq, Repr

/-- A CAN channel (R400 to R411, R416). -/
structure Can where
  mode : BitVec 3
  q1ovf : Bool
  q0ovf : Bool
  conflict : Bool
  on : Bool
  estate : BitVec 2
  tec : Byte
  recCnt : Byte
  nbt : W32
  dbt : W32
  tdc : W32
  tref : W32
  match_ : Table W32
  mask : Table W32
  q0 : List (Nat × CanFrame)
  q1 : List CanFrame
  objs : List CanObj
  seqCls : Option Nat
  seqDepth : Nat
  dropped : Nat
  /-- Frames that a full RXQ0 has dropped (R404). -/
  dropped0 : Nat
  takeover : Bool
  tx : List CanTx
  ref : Option CanFrame
  /-- Reference messages have stopped until the next CAN_CONFIG (R410). -/
  refStop : Bool
  remote : Nat
  noMatch : Nat
  replaced : Nat
  withdrawn : Nat
  detect : Option CanDetect
  table : List CanTiming
  latched : Table (List (List W64) × List W64)
  rx : Table (List (List W64) × List W64)
  lateAt : Table W64
deriving DecidableEq, Repr

/-- The station ports (R412 to R416). -/
structure Station where
  mode : BitVec 2
  link1 : Bool
  link2 : Bool
  spd1 : BitVec 2
  spd2 : BitVec 2
  dup : W32
  errA : W32
  errB : W32
  rxDrop : W32
  /-- Per port: the second and the frames processed in it (R412). -/
  rxCnt : Table (Nat × Nat)
  seen : List (Nat × Nat × Nat)
  arp : Table Nat
  pubs : List (StationPub × W32 × Nat)
  ip : W32
  ipMask : W32
  ipGate : W32
deriving DecidableEq, Repr

/-- A record of the Event Recorder (R417). -/
structure Rec where
  seq : W32
  time : W32
  code : W16
  part : Nat
  sev : Nat
  srcCls : Nat
  source : W32
  p0 : W32
  p1 : W32
  p2 : W32
  p3 : W32
deriving DecidableEq, Repr

/-- A token bucket of one code and partition (R424) and its run of drops (R425): `since` is the instant its tokens count from, `ticks` the multiples already added, `run` the end of the second being counted. -/
structure Bucket where
  code : W16
  part : Nat
  since : Nat
  ticks : Nat
  tokens : Nat
  run : Option Nat
  drops : Nat
  first : W32
  last : W32
deriving DecidableEq, Repr

structure RecMode where
  rate : Nat
  burst : Nat
  stat : Bool
  base : Nat
deriving DecidableEq, Repr

structure Hist where
  min : W32
  max : W32
  bins : Table Nat
deriving DecidableEq, Repr

/-- A recorder view (R429 to R431). -/
structure View where
  sessLo : W32
  bound : Option W64
  area : Bool
  adv : Nat
  cur : W32
  ready : Bool
  lost : Bool
  head : W32
  oldest : W32
  lostN : W32
  next : W32
  /-- The records shown, each with the cursor that follows it. -/
  data : List (W32 × Rec)
  /-- The snapshot taken, not yet shown: records with the cursor that follows each, LOST, head, oldest, LOSTN, next. -/
  snap : Option (List (W32 × Rec) × Bool × W32 × W32 × W32 × W32)
deriving DecidableEq, Repr

/-- The Event Recorder (R421 to R434). -/
structure Recorder where
  seq : W32
  /-- Records waiting for MRAM; true where the record is copied into the first-fault area (R422). -/
  staging : List (Rec × Bool)
  lostCnt : Nat
  circ : List Rec
  ff : List Rec
  ffAnchor : Option Nat
  ffCount : Nat
  buckets : List Bucket
  modes : List (W16 × RecMode)
  hist : List (W16 × Hist)
  views : Table View
deriving DecidableEq, Repr

/-- A counter of the Counter Unit (R436, R441). -/
structure Counter where
  evt : W32
  sel : W32
  abase : W32
  alim : W32
  val : W32
  acl : W32
deriving DecidableEq, Repr

/-- The Counter Unit (R435 to R443). -/
structure Ctr where
  halt : Bool
  en : W64
  enLo : Option W32
  ovf : W64
  cnt : Table Counter
  unlockLo : Table W32
  bind : Table W64
deriving DecidableEq, Repr

/-- The Power System (R444 to R462). -/
structure Pwr where
  holdupOk : Bool
  ploss : Bool
  railOk : Byte
  cause : Byte
  strap : W16
  vin : W16
  tinlet : W16
  tdie : W16
  out10 : Byte
  out5 : Byte
  fltopen : Bool
  startDly : W16
  convOn : Bool
  /-- The restart of R458 has been refused until VIN is removed or RST_N pulsed. -/
  locked : Bool
  wakeQ : List (Nat × Wake)
  gateQ : List Nat
  tcxoBad : Bool
deriving DecidableEq, Repr

inductive SlotSt where | confirmed | trial | valid | invalid
deriving DecidableEq, Repr

structure Slot where
  st : SlotSt
  version : W32
  floor : W32
  len : Nat
deriving DecidableEq, Repr

/-- The open update (R272 to R276). -/
structure Update where
  header : List Byte
  crcs : List W32
  opsDone : Nat
  /-- Bytes of the result written into the slot. -/
  len : Nat
  blocks : Nat
deriving DecidableEq, Repr

/-- What a domain position holds (R10). -/
inductive Position where | module | adapter | empty
deriving DecidableEq, Repr

/-- A move of a partition's version into the committed half of the application store (R258): all its entries, those not yet moved, and whether the first of these has been written and waits for its read-back. -/
structure Move where
  part : Nat
  want : List Package
  left : List Package
  written : Bool
deriving DecidableEq, Repr

/-- Non-volatile stores (R270, R223, R245, R247, R338). -/
structure Nv where
  slotA : Slot
  slotB : Slot
  runB : Bool
  floor : W32
  failedBoots : Nat
  trialTime : Nat
  trialStart : Option Nat
  recReq : Bool
  recCause : Option Nat
  fallback : Option Nat
  update : Option Update
  domainId : W16
  nr : Nat
  nc : Nat
  pendDomain : Option (W16 × Nat × Nat)
  positions : Table Position
  /-- The sets that the domain's remote I/O adapters publish: set ID and VIDs in set order (R10, R209). -/
  adapters : List (W32 × List W32)
  preferOdd : Table Bool
  inhibit : Bool
  hold : Nat
  idle : Nat
  /-- Host keys by partition; log 9 says which key partition 0 has where none is listed. -/
  keys : Table (List Byte)
  certs : Option CertSet
  pendIp : Option (W32 × W32 × W32)
  /-- The configuration runs in a converted copy since the first start of the TRIAL slot (R281). -/
  cfgBoth : Bool
  /-- The committed half of the application store, its other half, and the moves that are open (R257, R258). -/
  app : List Package
  appNew : List Package
  moves : List Move
deriving DecidableEq, Repr

/-- The block's state. `clk`, `free`, `out` and `timers` are the model's own fields. -/
structure State where
  pending : List Instr
  clk : Nat
  free : Nat
  out : List Out
  timers : List (Timer × Nat)
  mod : Mod
  pins : Pins
  time : Time
  lanes : Table Lane
  mem : List Host.Cell
  memErr : Table MemErr
  cls : Table Cls
  cycles : List Cycle
  inNext : List (W32 × W64)
  words : List (W32 × W64 × List BWord)
  overrun : Table Nat
  delays : List (W32 × W64 × Nat)
  late : List (W32 × W64)
  setRx : Table SetRx
  pubSeq : Table W32
  parts : Table Part
  cmp : Table Cmp
  rnd : CmpRound
  coll : Coll
  guard : Guard
  pl : Place
  ring : Ring
  pair : Pair
  forces : List Force
  host : HostIf
  mb : Mail
  trip : Trip
  can : Table Can
  stn : Station
  rcd : Recorder
  ctr : Ctr
  pwr : Pwr
  nv : Nv
deriving DecidableEq, Repr

/-- A plan part with nothing in it. -/
def emptyPlan : ModPlan :=
  { tasks := [], staged := [], sets := [], subs := [], copies := [], lii := [], blocks := [], rules := [], affected := [], setHome := [],
    migrIn := [], migrOut := [], replaced := [], moved := [], shadowSets := [] }

/-- The placer state of a domain in which nothing is placed. -/
def emptyDomain : Domain :=
  { mods := [], parts := [], packages := [], aka := [], classes := [], spare := [], broken := [], news := [], safes := [] }

def Bundles.reset : Bundles := { p := [], k := [], pre := [] }

def Bank.reset : Bank := { w := [], acc := false, stack := [], scratch := 0, fpctl := 0, fpstat := 0 }

/-- A lane after reset (the register maps of R97 and R131; the rest: log 4). -/
def Lane.reset : Lane :=
  { w := [], alt := Bank.reset, pc := 0x1F000, eclass := 0, wait := false, gated := true, kind := false, pass := false,
    mode := false, run := false, en := false, bgtest := false, retire := false, runKind := false, runPass := false,
    task := 0, xwin := 0x01EF0000, dwin := 0x01EF0000, fpctl := 0, fpstat := 0, fltValid := false, fltPass := false,
    fltMode := false, fltCause := 0, fltPc := 0, fltAddr := 0, bun := Bundles.reset, hold := Bundles.reset,
    imCorr := 0, dmCorr := 0, clk := 0, shLane := none, shSvc := none, evpend := 0, evmask := 0, evclass := 0x200,
    lvlRepl := false, lvlCdone := false, tarm := false, gate := false, timer := 0, evretN := 0, evretF := 0,
    evvecN := 0x1F000, evvecF := 0x1F080, dspent := 0x1F100, replwait := 0, acc := false, stack := [], scratch := 0,
    clsN := none, clsF := none, bndN := 0, bndF := 0, handedN := 0, outN := 0, handedF := 0, outF := 0, owed := 0, inNormal := false, curFast := false, saved := none, hwVerdicts := [], bgPasses := 0,
    scrub := 0, alu := false }

/-- A class that the class table does not configure has period 0. -/
def Cls.reset : Cls :=
  { period := 0, phase := 0, cur := false, bnd := none, prevBnd := none, frozen := none, freezing := none, switched := true, count := 0 }

def SetRx.reset : SetRx := { complete := [], partial_ := [], frozen := [] }

/-- A Pass Comparator after reset (R89): EN is 1 on cluster comparators, 0 on the spare (unit 16). -/
def Cmp.reset (u : Nat) : Cmp :=
  { target := 0, subst := false, shadow := false, test := false, en := u != 16, faulted := false, fltValid := false,
    last := 0, fltInfo := 0, fltTask := 0, fltPri := 0, fltCod := 0, ncmp := 0, nmism := 0, round := 0, vector := 0xFF,
    fail := false, done := false, queue := [], defect := none }

def PortCnt.reset : PortCnt :=
  { fwd := 0, rxd := 0, crcErr := 0, stomped := 0, malformed := 0, dropBreak := 0, unreachable := 0, hopLimit := 0,
    roleMiss := 0, vc2Drop := 0, down := 0 }

/-- 4 KiB per pool is 64 units of credit (R194). -/
def PortSt.fullCredit : Nat := 64

def PortSt.reset : PortSt :=
  { st := .down, lock := [], aligned := [], identOkAt := none, far := none, upSeen := false, crcTimes := [],
    credit := [], txq := [], sending := [], vc2 := [], susp := [], cnt := PortCnt.reset }

def Counter.reset : Counter := { evt := 0, sel := 0x1FF, abase := 0, alim := 0, val := 0, acl := 0 }

def LinkDelay.reset : LinkDelay := { delay := 0, samples := [], reqAt := none }

def PtpPort.reset : PtpPort := { master := none, annAt := 0, lastSync := none, delay := 0, reqAt := none }

def Doorbell.reset : Doorbell := { seq := 0, buf := 0, out := false }

def AuthSt.reset : AuthSt := { fails := [], lockUntil := none }

def SpSt.reset : SpSt :=
  { st := .run, sawDemand := false, mixedAt := none, mixedLong := false, readySinceStart := false, healthyAt := none,
    demandSinceStart := false }

def Checker.reset : Checker :=
  { raw := 0, deb := 0, cand := [], ow := 0, owCnt := [], inOt := 0, pairs := [], seenLow := 0, rose := [], en := 0 }

def View.reset : View :=
  { sessLo := 0, bound := none, area := false, adv := 0x20, cur := 0, ready := false, lost := false, head := 0,
    oldest := 0, lostN := 0, next := 0, data := [], snap := none }

def Hist.reset : Hist := { min := 0xFFFFFFFF, max := 0, bins := [] }

/-- The default candidate sets of R411: classical sets sampling at 80 %, of 1000, 500, 250, 125, 100, 50, 20 and 10 kbit/s. -/
def canDefaultTable : List CanTiming :=
  let t (brp s1 s2 : Nat) : CanTiming :=
    { nbrp := brp, ntseg1 := s1, ntseg2 := s2, nsjw := s2, dbrp := brp, dtseg1 := 1, dtseg2 := 1, dsjw := 1 }
  [t 1 99 25, t 2 99 25, t 4 99 25, t 8 99 25, t 10 99 25, t 20 99 25, t 50 99 25, t 100 99 25]

def Can.reset : Can :=
  { mode := 0, q1ovf := false, q0ovf := false, conflict := false, on := false, estate := 0, tec := 0, recCnt := 0, nbt := 0,
    dbt := 0, tdc := 0x8000, tref := 0, match_ := [], mask := [], q0 := [], q1 := [], objs := [], seqCls := none,
    seqDepth := 1, dropped := 0, dropped0 := 0, takeover := false, tx := [], ref := none, refStop := false, remote := 0, noMatch := 0, replaced := 0,
    withdrawn := 0, detect := none, table := canDefaultTable, latched := [], rx := [], lateAt := [] }

def Mod.reset : Mod :=
  { st := .bypass, solo := false, isolated := false, bootOk := false, stop := .none, resetDue := none, watchdog := false,
    resetAt := 0, hrSeq := 0, ce := 0, overruns := 0, disagree := 0, bgFail := 0, bgFailAt := none, imgEccAt := none,
    dramEccAt := none, cmpFlag := false, supply := false, temp := false, syncPct := 0, firstCommit := false, restarts := [] }

def Pins.reset : Pins :=
  { vin := 24000, vinSince := 0, rstN := true, presentN := false, addr := 0, addrp := true, pairSide := false, recoveryN := true,
    bypEW := true, bypNS := true, hrdy := false, hirq := false, hio := [], ppsOut := false, ledTest := false }

def Time.reset : Time :=
  { cnt := 0, offset := 0, rate := 0, anchor := 0, shOffset := 0, shRate := 0, applyAt := 0, ppsoutEn := true,
    ppsinEn := false, applyArm := false, grade := 5, src := 0, master := false, stepRefused := false, state := 2,
    stepThr := 0x3E8, refused := 0, errEst := 0xFFFFFFFF, ppsin := 0, hold := 0, holdE0 := 0, holdTemp := 0, holdAt := 0,
    everSet := false, lastMeas := 0, step := none, stepLoaded := false, grid := [], ppsSec := none, masterMod := none,
    masterGrade := 5, heard := [], ppsAt := none, anchored := none, syncSeq := 0, annSeq := 0,
    pdSeq := 0, links := [], ptp := [], ptpPort := none, ptpBetter := 0, ptpDomain := 0, srcPrio := [] }

def CmpRound.reset : CmpRound :=
  { step := none, retest := false, resume := none, cluster := 0, stopped := false, permanent := none, lost := [], rounds := 0 }

def Guard.reset : Guard :=
  { fltIrq := false, checking := false, privf := false, badrule := false, overlap := false, done := false, widx := 0,
    ridx := 0, wdata0 := 0, wdata1 := 0, wdata2 := 0, wdata3 := 0, ovlA := 0, ovlB := 0, fltValid := false,
    fltMaster := 0, fltKind := 0, fltPart := 0, fltSource := 0, fltAddr := 0, nmiss := 0, act := [], active := [],
    staging := [], configured := [] }

def Place.reset : Place :=
  { epoch := 0, leader := none, lastBeacon := none, health := [], plan := emptyPlan, old := emptyPlan, history := [],
    prep := none, issue := none, todo := [], dom := emptyDomain, asked := none, gone := [], frags := none, fwd := [], migr := [], shadow := [], held := [], stale := 0, wrongSource := 0, queries := [], quorumRec := none, lastApply := 0 }

def Ring.reset : Ring := { ports := [], links := [], seen := [], repeats := [], once := [], openNext := false, opened := [], nextId := 0 }

def SyncSt.reset : SyncSt :=
  { config := false, plan := false, packages := false, forces := false, image := false, clean := [], restarts := 0 }

def Pair.reset : Pair :=
  { term := 0, hbSeq := 0, view := none, lastHb := none, misses := 0, firstMiss := none, echoed := false, qE := false,
    qW := false, withhold := false, pReport := [], level := none, syncedAt := none, hand := none,
    sync := SyncSt.reset, adopt := [], mirrorRx := [], plDownAt := none, eDownAt := none, wDownAt := none, forceChg := [], rehand := none }

def HostIf.reset : HostIf :=
  { doze := false, irqEn := false, err := 0, stState := false, stBoot := true, stMbox := false, mask := 0,
    modTime := 0x64, unsig := none, dozeHold := false, db := [], req := [], rsp := [], shadow := [] }

def Mail.reset : Mail :=
  { sessions := [], issued := [], chal := [], auth := [], queue := [], last := [], ready := [], notices := [], lost := [],
    tls := [], fwd := [], rsps := [], gather := [] }

def Trip.reset : Trip :=
  { image := [], pendImage := none, safetyPart := 0, permitVids := [], running := false, cfgValid := false, global := [],
    a := Checker.reset, b := Checker.reset, ovl := 0, ot := 0, drive := 0, rb := 0, latch := [], value := 0,
    diffCnt := 0, rbBadAt := [], lostInCnt := [], lostOutCnt := [], retries := [], pulse := none,
    lastPulse := [], pulseB := false, pulseEndAt := none, tripIn := [], tripDiag := [], latchFor := [], rxIn := [], lateAt := [], pPairRun := 0, fltInfo := 0,
    password := none, pwFails := [], pwLockUntil := none, log := [], logSeq := 0 }

def Station.reset : Station :=
  { mode := 2, link1 := false, link2 := false, spd1 := 0, spd2 := 0, dup := 0, errA := 0, errB := 0, rxDrop := 0,
    rxCnt := [], seen := [], arp := [], pubs := [], ip := 0, ipMask := 0, ipGate := 0 }

def Recorder.reset : Recorder :=
  { seq := 0, staging := [], lostCnt := 0, circ := [], ff := [], ffAnchor := none, ffCount := 0, buckets := [],
    modes := [], hist := [], views := [] }

def Ctr.reset : Ctr := { halt := false, en := 0, enLo := none, ovf := 0, cnt := [], unlockLo := [], bind := [] }

/-- PWR_STRAP of the reset straps: PARITY_OK, RECOVERY_N, PAIR_SIDE low, ADDRP (R462; log 6). -/
def Pwr.reset : Pwr :=
  { holdupOk := false, ploss := false, railOk := 1, cause := 0, strap := 0xD000, vin := 0, tinlet := 0, tdie := 0,
    out10 := 0, out5 := 0, fltopen := false, startDly := 0, convOn := false, locked := false, wakeQ := [], gateQ := [],
    tcxoBad := false }

/-- The non-volatile stores of a module as delivered (log 9): firmware 5.2.0 in slot A. Versions hold major, minor, patch, build from the top byte down. -/
def Nv.reset : Nv :=
  { slotA := { st := .confirmed, version := 0x05020000, floor := 0, len := 0 },
    slotB := { st := .invalid, version := 0, floor := 0, len := 0 },
    runB := false, floor := 0, failedBoots := 0, trialTime := 0, trialStart := none, recReq := false, recCause := none,
    fallback := none, update := none, domainId := 0, nr := 1, nc := 2, pendDomain := none, positions := [], adapters := [],
    preferOdd := [], inhibit := false, hold := 60, idle := 600, keys := [], certs := none, pendIp := none, cfgBoth := false,
    app := [], appNew := [], moves := [] }

/-- The module right after the reset that VIN causes (R453, CAUSE 0x00): in BYPASS, every register at its reset value, no command waiting, the start delay of column 0 begun (R451). -/
def State.reset : State :=
  { pending := [], clk := 0, free := 0, out := [], timers := [(.startDelay, 10000000)], mod := Mod.reset, pins := Pins.reset, time := Time.reset,
    lanes := [], mem := [], memErr := [], cls := [], cycles := [], inNext := [], words := [], overrun := [], delays := [],
    late := [], setRx := [], pubSeq := [], parts := [], cmp := [], rnd := CmpRound.reset,
    coll := { last := 15, waiting := [] }, guard := Guard.reset, pl := Place.reset, ring := Ring.reset,
    pair := Pair.reset, forces := [], host := HostIf.reset, mb := Mail.reset, trip := Trip.reset, can := [],
    stn := Station.reset, rcd := Recorder.reset, ctr := Ctr.reset, pwr := Pwr.reset, nv := Nv.reset }

end Sys2Proof.Machine
end

