-- ==== Sys2Proof/Machine/Ops.lean ====
section
/-! DEFINITION. The named operations every meaning is built from: sparse tables, byte memory in its canonical form, corrected time, timers, what is sent, records with their rate limits, counters and notices. Each changes only the part of the state its name says. -/
namespace Sys2Proof.Machine

/-! ### Sparse tables -/

/-- The entry of a key, if it is listed. -/
def tfind {α : Type} : Table α → Nat → Option α
  | [], _ => none
  | (j, v) :: r, k => if j = k then some v else tfind r k

/-- The entry of a key, or the map's default. -/
def tget {α : Type} (d : α) (t : Table α) (k : Nat) : α := (tfind t k).getD d

/-- Lists a value at a key, keeping the keys rising. -/
def tput {α : Type} : Table α → Nat → α → Table α
  | [], k, v => [(k, v)]
  | (j, u) :: r, k, v =>
    if k < j then (k, v) :: (j, u) :: r
    else if k = j then (k, v) :: r
    else (j, u) :: tput r k v

/-- Removes the entry of a key. -/
def terase {α : Type} : Table α → Nat → Table α
  | [], _ => []
  | (j, u) :: r, k => if j = k then terase r k else (j, u) :: terase r k

/-! ### Bytes and words, little-endian (R6) -/

/-- The number a list of bytes holds, first byte least significant (R6). -/
def leNat : List Byte → Nat
  | [] => 0
  | b :: r => b.toNat + 256 * leNat r

/-- The n low bytes of a number, least significant first (R6). -/
def leBytes : Nat → Nat → List Byte
  | 0, _ => []
  | n + 1, x => BitVec.ofNat 8 x :: leBytes n (x / 256)

/-- Bytes `off` to `off + n - 1` as a number. -/
def field (bs : List Byte) (off n : Nat) : Nat := leNat ((bs.drop off).take n)

/-- Bits [lo + n - 1 : lo] of a number. -/
def bitsAt (x lo n : Nat) : Nat := x / 2 ^ lo % 2 ^ n

/-- A number sign-extended from its n low bits, as an integer. -/
def signed (n x : Nat) : Int := if x % 2 ^ n < 2 ^ (n - 1) then (x % 2 ^ n : Nat) else (x % 2 ^ n : Nat) - (2 ^ n : Nat)

/-- 1 for true. -/
def bit (b : Bool) : Nat := if b then 1 else 0

/-- The first 32-bit half and the second of a 64-bit word. -/
def lo32 (x : W64) : W32 := x.setWidth 32
def hi32 (x : W64) : W32 := (x >>> 32).setWidth 32
def mk64 (lo hi : W32) : W64 := hi ++ lo

/-- Saturating conversion to 32 bits (R420). -/
def sat32 (n : Nat) : W32 := BitVec.ofNat 32 (min n 0xFFFFFFFF)

/-! ### Byte memory (R26). An unlisted byte reads 0 (log 5) -/

namespace Mem

/-- The byte at an address. -/
def rd (m : List Host.Cell) (a : Nat) : Byte := tget 0#8 m a

/-- Writes a byte; a 0 is not listed, so that equal memories are equal lists. -/
def wr (m : List Host.Cell) (a : Nat) (b : Byte) : List Host.Cell :=
  if b = 0#8 then terase m a else tput m a b

/-- n bytes from an address. -/
def rdN (m : List Host.Cell) : Nat → Nat → List Byte
  | _, 0 => []
  | a, n + 1 => rd m a :: rdN m (a + 1) n

/-- Writes bytes at rising addresses. -/
def wrN (m : List Host.Cell) (a : Nat) : List Byte → List Host.Cell
  | [] => m
  | b :: r => wrN (wr m a b) (a + 1) r

/-- Keys rise strictly and lie above `lo`; no entry is 0. -/
def wfFrom (lo : Nat) : List Host.Cell → Bool
  | [] => true
  | (a, b) :: r => decide (lo ≤ a) && decide (b ≠ 0#8) && wfFrom (a + 1) r

/-- The canonical form. -/
def wf (m : List Host.Cell) : Bool := wfFrom 0 m

end Mem

/-- Reads n bytes as a number. -/
def State.rdMem (s : State) (a n : Nat) : Nat := leNat (Mem.rdN s.mem a n)

/-- Writes the n low bytes of x, least significant at the lowest address (R6). -/
def State.wrMem (s : State) (a n x : Nat) : State := { s with mem := Mem.wrN s.mem a (leBytes n x) }

def State.wrBytes (s : State) (a : Nat) (bs : List Byte) : State := { s with mem := Mem.wrN s.mem a bs }

/-! ### Straps, positions and pairs (R8 to R10, R216) -/

/-- The module number, row × 64 + column (R8), as the straps were when the module left BYPASS (R450). -/
def State.module (s : State) : Nat := bitsAt s.pwr.strap.toNat 0 12

def rowOf (m : Nat) : Nat := m / 64
def colOf (m : Nat) : Nat := m % 64

/-- The other module of a pair position: the other column of the pair (R9). -/
def partnerOf (m : Nat) : Nat := if m % 2 = 0 then m + 1 else m - 1

/-- The even-column module names the pair (R9). -/
def pairOf (m : Nat) : Nat := m - m % 2

def State.partner (s : State) : Nat := partnerOf s.module

/-- Whether a position of the domain holds a module (R10); log 9 says what an unlisted position holds. -/
def State.position (s : State) (m : Nat) : Position :=
  match tfind s.nv.positions m with
  | some p => p
  | none => if rowOf m < s.nv.nr ∧ colOf m < s.nv.nc then .module else .empty

/-- A module is unpaired when its pair position holds no module (R10). -/
def State.unpaired (s : State) : Bool := decide (s.position s.partner ≠ .module)

/-- All pairs of the domain: even-column modules whose two positions hold modules (R9, R10). -/
def State.pairs (s : State) : List Nat :=
  (List.range s.nv.nr).flatMap fun r =>
    ((List.range 32).map fun k => r * 64 + 2 * k).filter fun m =>
      decide (s.position m = .module) && decide (s.position (m + 1) = .module)

/-- All modules of the domain (R10). -/
def State.modules (s : State) : List Nat :=
  (List.range s.nv.nr).flatMap fun r =>
    ((List.range 64).map fun c => r * 64 + c).filter fun m => decide (s.position m = .module)

/-- The preferred unit: the even column unless PREFER_ODD is set for the pair (R217). -/
def State.preferred (s : State) : Bool :=
  if tget false s.nv.preferOdd (pairOf s.module) then s.module % 2 = 1 else s.module % 2 = 0

/-- The module stops in order, or is silent after it (R455, R466). -/
def State.stopping (s : State) : Bool := decide (s.mod.stop ≠ .none)

/-- ACTIVE; a module that stops in order no longer is (R455). -/
def State.active (s : State) : Bool := decide (s.mod.st = .active) && !s.stopping

/-- The module publishes: ACTIVE, or SAFE with safe values only (R253). -/
def State.publishes (s : State) : Bool := s.active || (decide (s.mod.st = .safe) && !s.stopping)

/-- States from JOINING onwards, in which the module is on the rings (R253, R459). -/
def State.joined (s : State) : Bool :=
  match s.mod.st with
  | .joining | .unsynced | .synced | .active | .safe => true
  | _ => false

/-- The main converters are on and no reset holds the module: BOOT and later (R453, R459). -/
def State.powered (s : State) : Bool :=
  match s.mod.st with
  | .off | .bypass => false
  | _ => true

/-- PWR_PIN: what the unit measures while it has power. -/
def State.inputPower (s : State) : W16 := if s.powered then Config.inputPower s.clk else 0

/-! ### Corrected time (R349, R352) -/

/-- T for a counter value: T_CNT + T_OFFSET + (((T_CNT − T_ANCHOR) × T_RATE) >> 40) modulo 2^64 (R349). -/
def Time.correct (t : Time) (cnt : W64) : W64 :=
  let d : Int := (cnt - t.anchor).toInt
  let k : Int := d * t.rate.toInt / (2 ^ 40 : Int)
  cnt + t.offset + BitVec.ofInt 64 k

/-- T now. -/
def State.now (s : State) : W64 := s.time.correct s.time.cnt

/-- What the estimated error has grown by in HOLDOVER: (1 + 20 × |ΔT|) × t ns, the die temperature being kept in 0.1 K (R367). -/
def State.holdGrowth (s : State) : Nat :=
  let t := s.time
  (1 + 2 * (s.pwr.tdie.toInt - t.holdTemp.toInt).natAbs) * (t.hold.toNat * 1000000000 + (s.clk - t.holdAt)) / 1000000000

/-- T_ERR_EST in ns; in HOLDOVER it grows from the error at entry (R366, R367). -/
def State.timeErr (s : State) : Nat := if s.time.state = 1 then (s.time.holdE0 + (s.holdGrowth : Int)).toNat else s.time.errEst.toNat

/-- TIME32 of now: bits [31:0] of T (R352). -/
def State.now32 (s : State) : W32 := lo32 s.now

/-- A TIME32 value taken at or after R, less than one wrap later (R353, first form). -/
def extAfter (r : W64) (x : W32) : W64 := r + (x - lo32 r).setWidth 64

/-- A TIME32 value within 2^31 ns either side of R (R353, second form). -/
def extNear (r : W64) (x : W32) : W64 := r + (x - lo32 r).signExtend 64

/-- The signed distance a − b between two instants. -/
def since (a b : W64) : Int := (a - b).toInt

/-- Instant a has been reached at instant b. -/
def reached (a b : W64) : Bool := decide (0 ≤ since b a)

/-- The first whole second of T that lies at or after T + d (R344, R364). -/
def wholeSecond (t : W64) (d : Nat) : W64 :=
  BitVec.ofNat 64 ((t.toNat + d + 999999999) / 1000000000 * 1000000000)

/-! ### Durations in ns of clk -/

def usec : Nat := 1000
def msec : Nat := 1000000
def sec : Nat := 1000000000

/-! ### Timers: the time bounds the rules state -/

/-- The due instant of a timer, if it is armed. -/
def tdue (ts : List (Timer × Nat)) (t : Timer) : Option Nat :=
  match ts with
  | [] => none
  | (u, d) :: r => if u = t then some d else tdue r t

/-- Stops a timer. -/
def disarmT (ts : List (Timer × Nat)) (t : Timer) : List (Timer × Nat) :=
  ts.filter fun p => decide (p.1 ≠ t)

def State.arm (s : State) (t : Timer) (due : Nat) : State := { s with timers := (t, due) :: disarmT s.timers t }
def State.disarm (s : State) (t : Timer) : State := { s with timers := disarmT s.timers t }
def State.armed (s : State) (t : Timer) : Bool := (tdue s.timers t).isSome

/-- Starts a timer d ns from now. -/
def State.after (s : State) (t : Timer) (d : Nat) : State := s.arm t (s.clk + d)

/-- A one-shot bound has run out: the timer is armed and its instant has come. -/
def State.expired (s : State) (t : Timer) : Bool :=
  match tdue s.timers t with
  | some d => decide (d ≤ s.clk)
  | none => false

/-- A one-shot bound has been passed: its instant itself is still within it (R7). -/
def State.overdue (s : State) (t : Timer) : Bool :=
  match tdue s.timers t with
  | some d => decide (d < s.clk)
  | none => false

/-- A periodic send is due: its instant has come, or it has not been sent yet. -/
def State.due (s : State) (t : Timer) : Bool :=
  match tdue s.timers t with
  | some d => decide (d ≤ s.clk)
  | none => true

/-- The next due instant of something done every d ns. -/
def State.again (s : State) (t : Timer) (d : Nat) : State := s.arm t ((tdue s.timers t).getD s.clk + d)

/-- A RING_PLAN notice (R206). -/
def Msg.isPlan (m : Msg) : Bool :=
  match m with
  | .notice k _ _ => decide (k = 0x04)
  | _ => false

/-- Messages of the module itself on the rings and the Pair Link. RING_PLAN, which a module that stops in order still sends (R208), is not among them. -/
def Out.own (m : Nat) (o : Out) : Bool :=
  match o with
  | .frame _ f => decide (bitsAt f.src.toNat 0 12 = m)
  | .msg _ f x => decide (bitsAt f.src.toNat 0 12 = m) && !x.isPlan
  | .heartbeat _ => true
  | _ => false

/-- A module that stops in order, or has isolated itself, sends no frame of its own (R241, R455). -/
def State.silent (s : State) : Bool := s.stopping || s.mod.isolated

/-- What is sent at a port or pin, unless the module is silent and it is its own. -/
def State.send (s : State) (o : Out) : State :=
  if s.silent && o.own (bitsAt s.pwr.strap.toNat 0 12) then s else { s with out := o :: s.out }

/-! ### Free values (log 10) -/

/-- The free value of an index as a tag: not 0 and not issued before (R323); counts up past the taken ones. -/
def freshFrom (issued : List W64) : Nat → W64 → W64
  | 0, x => x
  | n + 1, x => if x = 0 ∨ x ∈ issued then freshFrom issued n (x + 1) else x

/-- A fresh random value and the state after drawing it. -/
def State.draw (s : State) : W64 × State := (Config.freeValue s.free, { s with free := s.free + 1 })

/-! ### Counters (R435 to R439) -/

/-- An event of the Counter Unit with what the filters look at; `n` of them in this clock. -/
structure CtrEv where
  code : Nat
  n : Nat
  sel : Nat
  /-- Privileged, or SUP mode for lane events. -/
  priv : Bool
  part : Nat
  master : Nat
  kind : Nat
  page : Nat
deriving DecidableEq, Repr

/-- Plain event without filters. -/
def ctrEv (code n sel : Nat) : CtrEv :=
  { code := code, n := n, sel := sel, priv := false, part := 0, master := 0, kind := 0, page := 0 }

/-- Events with a PRIV filter, and those with all filters (R436). -/
def ctrHasPriv (c : Nat) : Bool := decide (c ∈ [0x01, 0x02, 0x05, 0x06, 0x07, 0x08, 0x0A]) || decide (c ∈ [0x03, 0x04, 0x10, 0x11, 0x12, 0x13])
def ctrHasAll (c : Nat) : Bool := decide (c ∈ [0x03, 0x04, 0x10, 0x11, 0x12, 0x13])
def ctrHasSel (c : Nat) : Bool := decide (1 ≤ c ∧ c ≤ 0x0A) || decide (0x30 ≤ c ∧ c ≤ 0x33)

/-- Whether a counter's configuration lets an event count (R436, R437). -/
def Counter.takes (c : Counter) (e : CtrEv) : Bool :=
  let ev := c.evt.toNat / 2 ^ 24
  let sel := bitsAt c.sel.toNat 0 9
  let priv := bitsAt c.evt.toNat 21 2
  let master := bitsAt c.evt.toNat 17 4
  let cls := bitsAt c.evt.toNat 13 4
  let afilt := bitsAt c.evt.toNat 12 1
  decide (ev = e.code) && decide (ev ≠ 0)
    && (!ctrHasSel ev || decide (sel = 0x1FF) || decide (sel = e.sel))
    && (!ctrHasPriv ev || match priv with
        | 0 => true
        | 1 => e.priv
        | 2 => !e.priv && decide (e.part = 0)
        | _ => decide (e.part ≠ 0) && decide (e.part = bitsAt c.sel.toNat 16 9))
    && (!ctrHasAll ev ||
        ((decide (master = 0) || decide (bitsAt master e.master 1 = 1))
          && (decide (cls = 0) || decide (bitsAt cls e.kind 1 = 1))
          && (decide (afilt = 0) || (decide (c.abase.toNat ≤ e.page) && decide (e.page ≤ c.alim.toNat)))))

/-- CHAIN of an odd counter (R439). -/
def Counter.chain (c : Counter) (i : Nat) : Bool := decide (i % 2 = 1) && decide (bitsAt c.evt.toNat 23 1 = 1)

def Ctr.get (c : Ctr) (i : Nat) : Counter := tget Counter.reset c.cnt i

/-- Adds to one counter; a wrap sets its bit in C_OVF and steps a chained odd counter above it (R439). -/
def Ctr.bump (c : Ctr) (i n : Nat) : Ctr :=
  let k := c.get i
  let sum := k.val.toNat + n
  let c := { c with cnt := tput c.cnt i { k with val := BitVec.ofNat 32 sum } }
  if sum < 2 ^ 32 then c
  else
    let c := { c with ovf := c.ovf ||| BitVec.twoPow 64 i }
    let o := c.get (i + 1)
    if i % 2 = 0 ∧ o.chain (i + 1) ∧ c.en.getLsbD (i + 1) then
      let sum := o.val.toNat + 1
      let c := { c with cnt := tput c.cnt (i + 1) { o with val := BitVec.ofNat 32 sum } }
      if sum < 2 ^ 32 then c else { c with ovf := c.ovf ||| BitVec.twoPow 64 (i + 1) }
    else c

/-- One clock's events of one kind reach every enabled counter (R435). -/
def Ctr.count (c : Ctr) (e : CtrEv) : Ctr :=
  if c.halt ∨ e.n = 0 ∨ c.en = 0 then c
  else (List.range 64).foldl (init := c) fun c i =>
    let k := c.get i
    if c.en.getLsbD i ∧ !k.chain i ∧ k.takes e then c.bump i e.n else c

/-- Who may read counter i (R440). -/
def Ctr.readable (c : Ctr) (part i : Nat) : Bool :=
  let a := (c.get i).acl
  decide (part = 0) || (a.getLsbD 9 && (a.getLsbD 10 || decide (bitsAt a.toNat 0 9 = part)))

def State.count (s : State) (e : CtrEv) : State := { s with ctr := s.ctr.count e }

/-! ### Records (R417 to R425, R433) -/

/-- Severity of a record code (R420). -/
def sevOf (code : Nat) : Nat :=
  if code ∈ [0x0001, 0x040A] then 0
  else if code ∈ [0x0002, 0x00FE, 0x0101, 0x0201, 0x0206, 0x0208, 0x0209, 0x0401, 0x0406, 0x0503, 0x0606, 0x0609, 0x0702,
      0x0802, 0x0803] then 1
  else if code ∈ [0x0003, 0x0004, 0x0202, 0x0203, 0x0204, 0x0205, 0x0407, 0x0408, 0x0409, 0x0504, 0x0505, 0x0506, 0x0507,
      0x0508, 0x0604, 0x0607, 0x0608, 0x0703, 0x0706, 0x0904, 0x0A04, 0x0B01, 0x0B03] then 2
  else if code ∈ [0x0103, 0x0104, 0x0302, 0x0303, 0x0304, 0x0403, 0x0601, 0x060A] then 4
  else if code ∈ [0x0A01, 0x0A02, 0x0A03, 0x0A05, 0x0A06] then 5
  else 3

/-- Statistic codes, marked ‡ in R420. -/
def isStatCode (code : Nat) : Bool := decide (code ∈ [0x0202, 0x0203, 0x0204, 0x0407, 0x0A04, 0x0B01])

/-- Codes that are never limited (R424). -/
def isUnlimited (code : Nat) : Bool := decide (code ∈ [0x0001, 0x00FE, 0x0002, 0x0003, 0x0004])

/-- All codes of R420. -/
def recCodes : List Nat :=
  [0x0001, 0x0002, 0x0003, 0x0004, 0x00FE, 0x0101, 0x0102, 0x0103, 0x0104] ++ (List.range 9).map (0x0201 + ·)
    ++ (List.range 4).map (0x0301 + ·) ++ (List.range 10).map (0x0401 + ·) ++ (List.range 8).map (0x0501 + ·)
    ++ (List.range 11).map (0x0601 + ·) ++ (List.range 7).map (0x0701 + ·) ++ (List.range 3).map (0x0801 + ·)
    ++ (List.range 4).map (0x0901 + ·) ++ (List.range 6).map (0x0A01 + ·) ++ (List.range 4).map (0x0B01 + ·)

/-- Source class of a record code; R418 gives the classes, log 12 which code takes which. -/
def srcClassOf (code : Nat) : Nat :=
  if code = 0x0001 then 0x7
  else if code ∈ [0x0004, 0x0103, 0x0104] then 0xD
  else if code < 0x0100 then 0xE
  else if code ∈ [0x0202, 0x0207, 0x0302] then 0x1
  else if code ∈ [0x0301, 0x0303, 0x0304] then 0x2
  else if code < 0x0400 then 0x0
  else if code < 0x0500 then 0x6
  else if code < 0x0600 then 0x4
  else if code < 0x0700 then 0x5
  else if code < 0x0704 then 0x0
  else if code < 0x0800 then 0xC
  else if code < 0x0900 then 0x7
  else if code < 0x0904 then 0x3
  else if code = 0x0904 then 0xB
  else if code < 0x0B00 then 0x8
  else 0x9

/-- RATE, BURST, MODE and BASE of a code (R424, R433). -/
def Recorder.mode (r : Recorder) (code : W16) : RecMode :=
  match r.modes.find? fun p => decide (p.1 = code) with
  | some p => p.2
  | none =>
    if code = 0x0409 then { rate := 1, burst := 1, stat := false, base := 10 }
    else { rate := 20, burst := 50, stat := false, base := 10 }

/-- The bin of a value (R433). -/
def histBin (base v : Nat) : Nat :=
  if v < 2 ^ base then 0
  else ((List.range 15).find? fun i => decide (v < 2 ^ (base + i + 1))).elim 15 fun i => if i + 1 ≤ 14 then i + 1 else 15

/-- Folds a value into the histogram of its code; bins and extremes saturate (R433). -/
def Recorder.fold (r : Recorder) (code : W16) (v : W32) : Recorder :=
  let h := ((r.hist.find? fun p => decide (p.1 = code)).map (·.2)).getD Hist.reset
  let b := histBin (r.mode code).base v.toNat
  let h : Hist :=
    { min := if v.toNat < h.min.toNat then v else h.min, max := if h.max.toNat < v.toNat then v else h.max,
      bins := tput h.bins b (min 0xFFFFFFFF (tget 0 h.bins b + 1)) }
  { r with hist := (code, h) :: r.hist.filter fun p => decide (p.1 ≠ code) }

/-- The instant of an event as the recorder sees it: clk, T and the module's own number and sources. -/
structure RecAt where
  clk : Nat
  t : W64
  timeSrc : Nat
deriving DecidableEq, Repr

/-- Room in the staging queue of 4096 records (R421). -/
def stagingMax : Nat := 4096

/-- Puts one record into the staging queue, or counts it as lost; while losses are untold nothing comes before RECORDER_LOST (R421). `ff`: it is copied into the first-fault area. -/
def Recorder.enqueue (r : Recorder) (e : Rec) (ff : Bool) : Recorder :=
  if r.staging.length < stagingMax ∧ r.lostCnt = 0 then
    { r with staging := r.staging ++ [({ e with seq := r.seq }, ff)], seq := r.seq + 1,
             ffCount := if ff then r.ffCount + 1 else r.ffCount }
  else { r with lostCnt := r.lostCnt + 1 }

/-- A TIME_ANCHOR of an instant (R353). -/
def anchorRec (w : RecAt) : Rec :=
  { seq := 0, time := lo32 w.t, code := 0x0001, part := 0, sev := 0, srcCls := 0x7, source := BitVec.ofNat 32 w.timeSrc,
    p0 := lo32 w.t, p1 := hi32 w.t, p2 := 0, p3 := 0 }

/-- Accepts a record: the first-fault area gets a fresh anchor first when it holds none from the last 2 s; with one entry left neither is copied (R422). -/
def Recorder.accept (r : Recorder) (w : RecAt) (e : Rec) : Recorder :=
  if 4096 ≤ r.ffCount then r.enqueue e false
  else
    let stale := match r.ffAnchor with
      | some a => decide (2 * sec ≤ w.clk - a)
      | none => true
    if !stale then r.enqueue e true
    else if r.ffCount = 4095 then r.enqueue e false
    else
      let r := { r.enqueue (anchorRec w) true with ffAnchor := some w.clk }
      r.enqueue e (decide (r.ffCount < 4096))

/-- A bucket brought up to an instant: one token at each whole multiple of 1/RATE s since its creation, lost while it is full (R424). -/
def Bucket.fill (b : Bucket) (m : RecMode) (clk : Nat) : Bucket :=
  let t := (clk - b.since) * m.rate / sec
  { b with tokens := min m.burst (b.tokens + (t - b.ticks)), ticks := t }

def Bucket.new (code : W16) (part : Nat) (m : RecMode) (clk : Nat) : Bucket :=
  { code := code, part := part, since := clk, ticks := 0, tokens := m.burst, run := none, drops := 0, first := 0, last := 0 }

/-- A drop at a bucket: it begins or continues a run (R425). -/
def Bucket.drop (b : Bucket) (clk : Nat) (t : W32) : Bucket :=
  { b with run := (match b.run with | some x => some x | none => some (clk + sec)), first := if b.drops = 0 then t else b.first, last := t,
           drops := b.drops + 1 }

def Recorder.setBucket (r : Recorder) (b : Bucket) : Recorder :=
  { r with buckets := b :: r.buckets.filter (fun c => !(decide (c.code = b.code) && decide (c.part = b.part))) }

def Recorder.bucket (r : Recorder) (code : W16) (part : Nat) : Option Bucket :=
  r.buckets.find? fun c => decide (c.code = code) && decide (c.part = part)

/-- Offers a record (R424, R425, R433): a ‡ code in statistic mode is folded, an unlimited code accepted, any other takes a token or is dropped. -/
def Recorder.offer (r : Recorder) (w : RecAt) (e : Rec) : Recorder :=
  let m := r.mode e.code
  if isStatCode e.code.toNat && m.stat then r.fold e.code e.p3
  else if isUnlimited e.code.toNat then r.accept w e
  else
    let b := ((r.bucket e.code e.part).getD (Bucket.new e.code e.part m w.clk)).fill m w.clk
    if b.tokens = 0 then r.setBucket (b.drop w.clk (lo32 w.t))
    else (r.setBucket { b with tokens := b.tokens - 1 }).accept w e

def State.recAt (s : State) : RecAt := { clk := s.clk, t := s.now, timeSrc := s.time.src.toNat }

/-- A record of a code, partition and source with its parameters, of an instant. -/
def mkRec (t : W32) (code part : Nat) (source : Nat) (p0 p1 p2 p3 : W32) : Rec :=
  { seq := 0, time := t, code := BitVec.ofNat 16 code, part := part, sev := sevOf code, srcCls := srcClassOf code,
    source := BitVec.ofNat 32 source, p0 := p0, p1 := p1, p2 := p2, p3 := p3 }

/-- SOURCE by source class (R418): where the class fixes it, that; else what the event names. -/
def State.recSource (s : State) (code source : Nat) : Nat :=
  match srcClassOf code with
  | 0x0 => s.module
  | 0x5 => s.partner
  | 0x6 => s.pl.leader.getD s.module
  | 0x7 => s.time.src.toNat
  | 0xD | 0xE => 0
  | _ => source

/-- Offers a record of this instant. -/
def State.record (s : State) (code part source : Nat) (p0 p1 p2 p3 : W32) : State :=
  { s with rcd := s.rcd.offer s.recAt (mkRec s.now32 code part (s.recSource code source) p0 p1 p2 p3) }

/-- Offers a record whose event lay at another instant. -/
def State.recordAt (s : State) (t : W32) (code part source : Nat) (p0 p1 p2 p3 : W32) : State :=
  { s with rcd := s.rcd.offer s.recAt (mkRec t code part (s.recSource code source) p0 p1 p2 p3) }

/-- A record of which one is written per second for one key; `kind` separates the rules that say so. -/
def State.oncePer (s : State) (kind key period : Nat) : Bool :=
  match s.ring.once.find? fun o => decide (o.1 = kind) && decide (o.2.1 = key) with
  | some o => decide (period ≤ s.clk - o.2.2)
  | none => true

def State.markOnce (s : State) (kind key : Nat) : State :=
  let old := s.ring.once.filter fun o => !(decide (o.1 = kind) && decide (o.2.1 = key))
  { s with ring := { s.ring with once := (kind, key, s.clk) :: old } }

/-! ### Responses and notices (R318 to R322) -/

/-- The index of a request's source: mailbox n, TLS connection 512 + c. -/
def srcIx : ReqSrc → Nat
  | .mailbox n => n.val
  | .tls c => 512 + c.val
  | .forwarded _ _ _ => 0

/-- The 32-byte header of a response or notice with its payload (R322). -/
def Response.bytes (r : Response) : List Byte :=
  leBytes 2 r.cmd.toNat ++ leBytes 2 r.seq.toNat ++ leBytes 4 r.payload.length ++ leBytes 2 r.status.toNat
    ++ leBytes 2 r.rflags.toNat ++ leBytes 4 r.detail.toNat ++ leBytes 4 r.time.toNat ++ leBytes 4 r.epoch.toNat
    ++ leBytes 8 0 ++ r.payload

/-- A notice completed now (R320, R322): RFLAGS has NOTICE. -/
def State.mkNotice (s : State) (code : Nat) (payload : List Byte) : Response :=
  { cmd := BitVec.ofNat 16 code, seq := 0, status := 0, rflags := 1, detail := 0, time := s.now32, epoch := s.pl.epoch,
    payload := payload, noirq := false, key := 0 }

/-- Queues a notice at a mailbox: 64 at most, the oldest dropped and counted (R320). -/
def Mail.queueNotice (m : Mail) (n : Nat) (r : Response) : Mail :=
  let q := tget [] m.notices n
  if q.length < 64 then { m with notices := tput m.notices n (q ++ [r]) }
  else { m with notices := tput m.notices n (q.drop 1 ++ [r]), lost := tput m.lost n (tget 0 m.lost n + 1) }

/-- The open connections whose session is of a partition (R328). -/
def Mail.connsOf (m : Mail) (part : Nat) : List Nat :=
  m.sessions.filterMap fun x =>
    match x.src with
    | .tls c => if x.part = part then some c.val else none
    | _ => none

/-- A notice for a partition: its mailbox, and the connections of its sessions, which have no doorbell (R320, R328). -/
def State.notify (s : State) (part code : Nat) (payload : List Byte) : State :=
  let r := s.mkNotice code payload
  { s with mb := s.mb.queueNotice part r,
           out := (s.mb.connsOf part).foldl (fun o c => Out.tls c r.bytes :: o) s.out }

/-- A notice for a partition and for partition 0 (R320). -/
def State.notifyBoth (s : State) (part code : Nat) (payload : List Byte) : State :=
  let s := s.notify part code payload
  if part = 0 then s else s.notify 0 code payload

end Sys2Proof.Machine
end

