-- ==== Sys2Proof/Machine/Coding.lean ====
section
/-! DEFINITION. Coded representations (R66, R68, R71), the verdict logic of the Pass Comparator (R77, R78), and the cyclic checks of the module: CRC-64 of signatures (R80), CRC-32C of frames and packages (R182). -/
namespace Sys2Proof.Machine

/-! ### Coded words (R66) -/

/-- A of the INT code. -/
def codeA : Nat := 65521

/-- A signed value lies in the INT range |p| < 2^47. -/
def intInRange (p : Int) : Bool := decide (p.natAbs < 2 ^ 47)

/-- Exponent field and fraction of a REAL word. -/
def realParts (tag : Tag) (p : W64) : Nat × Nat × Nat × Nat :=
  match tag with
  | .real32 => (bitsAt p.toNat 23 8, bitsAt p.toNat 0 23, 0xFF, 8)
  | _ => (bitsAt p.toNat 52 11, bitsAt p.toNat 0 52, 0x7FF, 11)

def realIsNan (tag : Tag) (p : W64) : Bool :=
  let (e, f, top, _) := realParts tag p
  decide (e = top) && decide (f ≠ 0)

def realIsInf (tag : Tag) (p : W64) : Bool :=
  let (e, f, top, _) := realParts tag p
  decide (e = top) && decide (f = 0)

/-- A finite REAL word lies below 2^1019 (REAL64) or 2^123 (REAL32) (R66). -/
def realBelow (tag : Tag) (p : W64) : Bool :=
  match tag with
  | .real32 => decide (bitsAt p.toNat 23 8 < 123 + 127)
  | _ => decide (bitsAt p.toNat 52 11 < 1019 + 1023)

/-- The valid range of a tag (R66). -/
def tagInRange (tag : Tag) (p : W64) : Bool :=
  match tag with
  | .bits => true
  | .int => intInRange p.toInt
  | .real64 => realIsInf tag p || (!realIsNan tag p && realBelow tag p)
  | .real32 => decide (hi32 p = 0) && (realIsInf tag p || (!realIsNan tag p && realBelow tag p))

/-- −p × 2^5 of a REAL pattern: the sign turned and the exponent raised by 5. A zero and an infinity keep their magnitude; a subnormal becomes its exact image. -/
def realE (ebits fb : Nat) (p : Nat) : Nat :=
  let s := p / 2 ^ (ebits + fb) % 2
  let e := p / 2 ^ fb % 2 ^ ebits
  let f := p % 2 ^ fb
  let top := (1 - s) * 2 ^ (ebits + fb)
  if e = 2 ^ ebits - 1 then top + e * 2 ^ fb + f
  else if e ≠ 0 then top + (e + 5) * 2 ^ fb + f
  else if f = 0 then top
  else
    let n := Nat.log2 f
    if n + 5 < fb then top + f * 32
    else top + (n + 5 - fb + 1) * 2 ^ fb + (f * 2 ^ (fb - n) - 2 ^ fb)

/-- The encode function E (R66), defined on the valid range. -/
def encodeE (tag : Tag) (p : W64) : W64 :=
  match tag with
  | .bits => ~~~p
  | .int => BitVec.ofInt 64 (p.toInt * codeA)
  | .real64 => BitVec.ofNat 64 (realE 11 52 p.toNat)
  | .real32 => BitVec.ofNat 64 (realE 8 23 (p.toNat % 2 ^ 32))

/-! ### Verdicts (R77 to R79) -/

inductive Verdict where
  | pass | value | code | intRange | realRange | realNan | length | index | codeTrap | residue | comparator
deriving DecidableEq, Repr

/-- Verdict codes (R79). -/
def Verdict.num : Verdict → Nat
  | .pass => 0x0 | .value => 0x1 | .code => 0x2 | .intRange => 0x3 | .realRange => 0x4 | .realNan => 0x5
  | .length => 0x6 | .index => 0x7 | .codeTrap => 0x8 | .residue => 0x9 | .comparator => 0xF

/-- Data verdicts (R79). -/
def isDataVerdict (code : Nat) : Bool := decide (code ∈ [0x3, 0x4, 0x5])
def isHwVerdict (code : Nat) : Bool := decide (code ≠ 0) && !isDataVerdict code

/-- The verdict of a flagged trap (R77 step 1): code trap, coded range of the tag, residue. -/
def trapVerdict (cause : Byte) : Verdict :=
  if cause = 0x09 then .codeTrap
  else if cause = 0x0A then .intRange
  else if cause = 0x8A then .realRange
  else .residue

/-- One word position (R77 step 3). -/
def wordVerdict (p k : BWord) : Verdict :=
  if p.lii ≠ k.lii ∨ p.tag ≠ k.tag then .index
  else match p.tag with
    | .bits => if k.val = encodeE .bits p.val then .pass else .value
    | .int =>
      if !intInRange p.val.toInt then .intRange
      else if k.val.toInt % (codeA : Int) ≠ 0 then .code
      else if k.val = encodeE .int p.val then .pass else .value
    | t =>
      if realIsNan t p.val || realIsNan t k.val then .realNan
      else if !tagInRange t p.val then .realRange
      else if k.val = encodeE t p.val then .pass else .value

/-- The first word position that does not pass (R77 step 3). -/
def firstDiff : Nat → List BWord → List BWord → Verdict × Option (Nat × BWord × BWord)
  | i, p :: ps, k :: ks => match wordVerdict p k with
    | .pass => firstDiff (i + 1) ps ks
    | v => (v, some (i, p, k))
  | _, _, _ => (.pass, none)

/-- The verdict on a hand-over (R77; R78 where no coded pass ran) and the word it concerns. -/
def verdictOf (trap : Option Byte) (coded : Bool) (p k : List BWord) : Verdict × Option (Nat × BWord × BWord) :=
  match trap with
  | some c => (trapVerdict c, none)
  | none =>
    if !coded then (.pass, none)
    else if p.length ≠ k.length then (.length, none)
    else firstDiff 0 p k

/-! ### Cyclic checks -/

/-- One bit of CRC-64 without reflection (R80). -/
def crc64Bit (c : W64) : W64 := if c.msb then (c <<< 1) ^^^ 0x42F0E1EBA9EA3693 else c <<< 1

def crc64Byte (c : W64) (b : Byte) : W64 :=
  let c := c ^^^ (b.setWidth 64 <<< 56)
  crc64Bit (crc64Bit (crc64Bit (crc64Bit (crc64Bit (crc64Bit (crc64Bit (crc64Bit c)))))))

/-- CRC-64/WE (R80). -/
def crc64 (bs : List Byte) : W64 := ~~~(bs.foldl crc64Byte (BitVec.allOnes 64))

/-- The output signature of a bundle: its word values in order, each least significant byte first (R80). -/
def signature (ws : List BWord) : W64 := crc64 (ws.flatMap fun w => leBytes 8 w.val.toNat)

/-- One bit of CRC-32C, reflected (R182). -/
def crc32cBit (c : W32) : W32 := if c.getLsbD 0 then (c >>> 1) ^^^ 0x82F63B78 else c >>> 1

def crc32cByte (c : W32) (b : Byte) : W32 :=
  let c := c ^^^ b.setWidth 32
  crc32cBit (crc32cBit (crc32cBit (crc32cBit (crc32cBit (crc32cBit (crc32cBit (crc32cBit c)))))))

/-- CRC-32C (R182). -/
def crc32c (bs : List Byte) : W32 := ~~~(bs.foldl crc32cByte (BitVec.allOnes 32))

end Sys2Proof.Machine
end

