-- ==== Sys2Proof/Machine/Operands.lean ====
section
/-! DEFINITION. What a command's operand names in the state: the plan a class runs, a task, an LII and its word, a forced value, a partition's state and profile in a class. -/
namespace Sys2Proof.Machine

/-! ### Classes (R12, R23, R29, R31) -/

def State.cls_ (s : State) (k : Nat) : Cls := tget Cls.reset s.cls k
def State.setCls (s : State) (k : Nat) (c : Cls) : State := { s with cls := tput s.cls k c }

/-- The bank that is CURRENT for a class; the other one is NEXT (R23, R300). -/
def State.curBank (s : State) (k : Nat) : Nat := bit (s.cls_ k).cur
def State.nextBank (s : State) (k : Nat) : Nat := 1 - s.curBank k

/-- The plan a class runs on this module: the new one once it has switched (R153). -/
def State.planOf (s : State) (k : Nat) : ModPlan := if (s.cls_ k).switched then s.pl.plan else s.pl.old

/-- Of two classes with these periods the first is slower: the longer period, then the higher number (R31). -/
def slower (pa a pb b : Nat) : Bool := decide (pb < pa) || (decide (pa = pb) && decide (b < a))

/-- The slowest of a set of classes (R31). -/
def State.slowest (s : State) (ks : List Nat) : Option Nat :=
  ks.foldl (init := none) fun m k =>
    match m with
    | none => some k
    | some j => if slower (s.cls_ k).period k (s.cls_ j).period j then some k else some j

/-- T mod period equals the phase (R12); periods and phases are held in µs. -/
def Cls.atBoundary (c : Cls) (t : W64) : Bool :=
  decide (c.period ≠ 0) && decide (t.toNat % (c.period * usec) = c.phase * usec)

/-- The first boundary of a class at or after an instant (R12). -/
def Cls.nextBoundary (c : Cls) (t : W64) : W64 :=
  if c.period = 0 then t
  else
    let p := c.period * usec
    let ph := c.phase * usec
    let n := t.toNat
    BitVec.ofNat 64 (n + (ph + p - n % p) % p)

/-- The last boundary of a class at or before an instant (R12, R13). -/
def Cls.lastBoundary (c : Cls) (t : W64) : W64 :=
  if c.period = 0 then t
  else
    let p := c.period * usec
    let ph := c.phase * usec
    let n := t.toNat
    BitVec.ofNat 64 (n - (n + p - ph) % p)

/-! ### Tasks and partitions -/

/-- The partition of a task ID: bits [31:23] (R32). -/
def taskPart (t : W32) : Nat := t.toNat / 2 ^ 23

/-- Tasks of a class in the plan it runs, in plan order. -/
def State.tasksOf (s : State) (k : Nat) : List TaskPlan := (s.planOf k).tasks.filter fun t => decide (t.cls = k)

/-- The plan entry of a task that some class runs. -/
def State.findTask (s : State) (task : W32) : Option TaskPlan :=
  ((List.range 8).flatMap s.tasksOf).find? fun t => decide (t.task = task)

def State.part? (s : State) (p : Nat) : Option Part := tfind s.parts p
def State.setPart (s : State) (p : Nat) (x : Part) : State := { s with parts := tput s.parts p x }

/-- The orders a partition has open, by rising instants. -/
def Part.orders (p : Part) : List Order :=
  match p.pend with
  | some (st, e, code) => { st := st, e := e, code := code, entered := p.entered } :: p.later
  | none => p.later

/-- The partition with other open orders. -/
def Part.withOrders (p : Part) (os : List Order) : Part :=
  match os with
  | [] => { p with pend := none, entered := [], later := [] }
  | o :: r => { p with pend := some (o.st, o.e, o.code), entered := o.entered, later := r }

/-- The state a class of a partition runs in: that of the last order it has entered; a class that has entered none runs in the state before them (R491). -/
def Part.stateOf (p : Part) (k : Nat) : PState :=
  match p.pend with
  | none => p.state
  | some _ =>
    match (p.orders.filter fun o => decide (k ∈ o.entered)).getLast? with
    | some o => o.st
    | none => if p.entered = [] then p.state else p.was

/-- The profile of a class: it changes at the class's own boundary (R43). -/
def Part.profileOf (p : Part) (k : Nat) : Profile :=
  match p.pendProfile with
  | some (q, _) => if k ∈ p.profEntered then q else p.cfg.profile
  | none => p.cfg.profile

end Sys2Proof.Machine

namespace Sys2Proof

/-- Profiles with a coded pass, and hot profiles (02, *Execution profiles*). -/
def Profile.coded : Profile → Bool
  | .winter | .autumn => true
  | .summer | .spring => false
def Profile.hot : Profile → Bool
  | .winter | .summer => true
  | .autumn | .spring => false

end Sys2Proof

namespace Sys2Proof.Machine

def State.profileOf (s : State) (p k : Nat) : Profile := ((s.part? p).map (·.profileOf k)).getD .winter
def State.pstateOf (s : State) (p k : Nat) : PState := ((s.part? p).map (·.stateOf k)).getD .loaded

/-- The partition runs hot in the class cycle of a boundary: by its profile, or between the confirmation instant of a handover and H (R246 step 2). -/
def State.hotIn (s : State) (p k : Nat) (bnd : W64) : Bool :=
  (s.profileOf p k).hot || match s.pair.hand with
    | some h => decide (1 ≤ h.stage) && reached h.conf bnd && reached bnd h.h
    | none => false

/-- The MIRROR of the cycle before the present one is held: what a synchronising standby runs a hot class from (R44, R255). -/
def State.mirrored (s : State) (p k : Nat) (bnd : W64) : Bool :=
  match (s.cls_ k).prevBnd with
  | some pb => decide ((s.cls_ k).bnd = some bnd) && s.pair.mirrorRx.any fun m => decide (m.part = p) && decide (m.cls = k) && decide (m.bnd = lo32 pb)
  | none => false

/-- The standby executes tasks only of hot partitions (R224, R225), and while it synchronises only once it holds the image and the deltas up to the cycle (R255). -/
def State.executes (s : State) (p k : Nat) (bnd : W64) : Bool :=
  !s.stopping && match s.mod.st with
  | .active => true
  | .synced => s.hotIn p k bnd
  | .unsynced => s.hotIn p k bnd && s.pair.sync.image && s.mirrored p k bnd
  | _ => false

/-- The partner's latest STATE is STANDBY SYNCED and this module is ACTIVE without SOLO, or this module is a standby: SIG entries are compared (R227, R238). -/
def State.comparing (s : State) (p k : Nat) (bnd : W64) : Bool :=
  s.hotIn p k bnd && !s.unpaired && match s.mod.st with
    | .active => !s.mod.solo
    | .synced => true
    | .unsynced => s.pair.sync.image && s.mirrored p k bnd
    | _ => false

/-- Classes that tasks of a partition use here. -/
def State.classesOf (s : State) (p : Nat) : List Nat :=
  (List.range 8).filter fun k => (s.tasksOf k).any fun t => decide (taskPart t.task = p)

/-- Classes that tasks of a partition use on any module of the domain (R491). -/
def State.classesAll (s : State) (p : Nat) : List Nat :=
  (List.range 8).filter fun k => decide (k ∈ s.classesOf p) || s.pl.dom.packages.any fun g => decide (taskPart g.task.task = p) && decide (g.task.cls = k)

/-- Tasks of a partition in a class. -/
def State.partTasks (s : State) (p k : Nat) : List TaskPlan := (s.tasksOf k).filter fun t => decide (taskPart t.task = p)

/-- Whether a task's coded pass runs in a class cycle: coded profile and a variant or bit-logic, or an arbitration cycle for a disputed task (R73, R74, R233). -/
def State.codedRuns (s : State) (t : TaskPlan) (bnd : W64) : Bool :=
  (t.bitLogic || t.coded) &&
    ((s.profileOf (taskPart t.task) t.cls).coded ||
      s.cycles.any fun c => decide (c.part = taskPart t.task) && decide (c.cls = t.cls) && decide (c.bnd = bnd)
        && c.arbitration && decide (t.task ∈ c.disputed))

/-! ### The image (R26, R66, R143, R300) -/

/-- Word i of bank b (R26). -/
def imgAddr (b i : Nat) : Nat := 0x4000000000 + 0x800000 * b + 8 * i

/-- The LII entry of a word in the plan a class runs. -/
def State.liiEntry (s : State) (k lii : Nat) : Option LiiEntry :=
  (s.planOf k).lii.find? fun e => decide (e.lii = lii)

/-- The home entry of a variable by current VID, in the plan its class runs. -/
def State.homeEntry (s : State) (vid : W32) : Option LiiEntry :=
  ((List.range 8).flatMap fun k => (s.planOf k).lii.filter fun e => decide (e.cls = k)).find? fun e => decide (e.vid = vid) && !e.replica

def State.rdImg (s : State) (b lii : Nat) : W64 := BitVec.ofNat 64 (s.rdMem (imgAddr b lii) 8)
def State.wrImg (s : State) (b lii : Nat) (v : W64) : State := s.wrMem (imgAddr b lii) 8 v.toNat

/-- The value a declared VID stands for now: declared VIDs go through the aka table (R143). -/
def State.resolve (s : State) (vid : W32) : W32 :=
  match s.pl.dom.aka.find? fun p => decide (p.1 = vid) with
  | some p => p.2
  | none => vid

/-! ### Forces (R54, R56) -/

/-- The value a force holds for a class cycle that begins at a boundary: a change counts from its effective instant on (R56). -/
def Force.valueAt (f : Force) (bnd : W64) : Option W64 :=
  if reached f.e bnd then (if f.live then some f.val else none) else f.prev

def State.forceOf (s : State) (vid : W32) (bnd : W64) : Option W64 :=
  match s.forces.find? fun f => decide (f.vid = vid) with
  | some f => f.valueAt bnd
  | none => none

/-- A value after substitution (R54). -/
def State.subst (s : State) (vid : W32) (bnd : W64) (v : W64) : W64 := (s.forceOf vid bnd).getD v

/-! ### Lanes -/

def State.lane (s : State) (l : Nat) : Lane := tget Lane.reset s.lanes l
def State.setLane (s : State) (l : Nat) (x : Lane) : State := { s with lanes := tput s.lanes l x }

/-- A general register; w0 reads 0 (R91). -/
def Lane.reg (x : Lane) (r : BitVec 5) : W64 := if r = 0 then 0 else tget 0 x.w r.toNat
/-- A write to w0 is discarded (R91). -/
def Lane.setReg (x : Lane) (r : BitVec 5) (v : W64) : Lane := if r = 0 then x else { x with w := tput x.w r.toNat v }

/-- The boundary and class of the cycle the running handler serves (R109). -/
def Lane.bnd (x : Lane) : W64 := if x.eclass = 2 then x.bndF else x.bndN
def Lane.curCls (x : Lane) : Option Nat := if x.eclass = 2 then x.clsF else x.clsN

/-- Start of a lane's window (R26), and of its IM and DM in it. -/
def laneBase (l : Nat) : Nat := 0x4100000000 + 0x100000 * l
def imAddr (l a : Nat) : Nat := laneBase l + a
/-- DM at lane-local 0x2_0000 lies at window offset 0x4_0000 (R26, R28). -/
def dmAddr (l a : Nat) : Nat := laneBase l + 0x40000 + (a - 0x20000)

/-- A window register covers an offset (R97). -/
def inWindow (win : W32) (off : Nat) : Bool :=
  let base := bitsAt win.toNat 0 9
  let limit := min (bitsAt win.toNat 16 9) 0x1EF
  decide (base * 256 ≤ off) && decide (off < (limit + 1) * 256)

end Sys2Proof.Machine
end

