-- ==== Sys2Proof/Machine/Link.lean ====
section
/-! DEFINITION. Frames and how they leave: header and CRC (R181 to R183), ports, the ring-state table and the choice of a route (R188 to R193, R198), outputs with credits, groups and pre-emption (R176, R194 to R196, R222), broadcasts (R187, R192), and the messages whose payloads are internal (R151, R219, R330). -/
namespace Sys2Proof

/-! ### Frames -/

/-- Bytes of a header (R181). -/
def Frame.header (f : Frame) : List Byte :=
  [f.typeVc, f.flags] ++ Machine.leBytes 2 f.dst.toNat ++ Machine.leBytes 2 f.src.toNat ++ Machine.leBytes 2 f.lenHops.toNat
    ++ Machine.leBytes 4 f.epoch.toNat ++ Machine.leBytes 4 f.stamp.toNat

/-- The CRC a frame should carry (R182). -/
def Frame.goodCrc (f : Frame) : W32 := Machine.crc32c (f.header ++ f.payload)
def Frame.crcOk (f : Frame) : Bool := decide (f.crc = f.goodCrc)
def Frame.stomped (f : Frame) : Bool := decide (f.crc = ~~~f.goodCrc)

def Frame.ty (f : Frame) : Nat := Machine.bitsAt f.typeVc.toNat 0 4
def Frame.vc (f : Frame) : Nat := Machine.bitsAt f.typeVc.toNat 4 2
def Frame.role (f : Frame) : Bool := f.flags.getLsbD 0
def Frame.fwd (f : Frame) : Bool := f.flags.getLsbD 1
def Frame.pairx (f : Frame) : Bool := f.flags.getLsbD 2
def Frame.alt (f : Frame) : Bool := f.flags.getLsbD 3
def Frame.dirset (f : Frame) : Bool := f.flags.getLsbD 4
def Frame.dir (f : Frame) : Nat := Machine.bitsAt f.flags.toNat 5 2
def Frame.dstMod (f : Frame) : Nat := Machine.bitsAt f.dst.toNat 0 12
def Frame.scope (f : Frame) : Nat := Machine.bitsAt f.dst.toNat 14 2
def Frame.srcMod (f : Frame) : Nat := Machine.bitsAt f.src.toNat 0 12
def Frame.words (f : Frame) : Nat := Machine.bitsAt f.lenHops.toNat 0 9
def Frame.hops (f : Frame) : Nat := Machine.bitsAt f.lenHops.toNat 9 7

/-- Bytes on the link: header, payload, CRC, START and TERM (R177). -/
def Frame.linkBytes (f : Frame) : Nat := f.payload.length + 28

/-- Well formed on the link: TYPE agrees with VC, LEN with the bytes, and reserved bits are 0 (R174, R183). -/
def Frame.formed (f : Frame) : Bool :=
  let vcOk := if f.ty = 4 ∨ f.ty = 7 then f.vc = 2 else f.vc < 2
  decide (1 ≤ f.ty) && decide (f.ty ≤ 7) && decide vcOk && decide (Machine.bitsAt f.typeVc.toNat 6 2 = 0)
    && !f.flags.getLsbD 7 && decide (Machine.bitsAt f.dst.toNat 12 2 = 0) && decide (Machine.bitsAt f.src.toNat 12 4 = 0)
    && decide (f.words * 4 = f.payload.length) && decide (f.payload.length ≤ if f.vc = 2 then 128 else 1024)

/-- Buffer of a frame in 64-byte units: header, payload and CRC (R194). -/
def Frame.units (f : Frame) : Nat := (20 + f.payload.length + 63) / 64

/-- The pool a frame uses: ROW for ALT = 0, ALT for ALT = 1 (R194). -/
def Frame.pool (f : Frame) : Nat := Machine.bit f.alt

/-- The VC a frame leaves on: a new ring is entered on VC0, the dateline is crossed to VC1 (R193). -/
def Frame.onVc (f : Frame) (v : Nat) : Frame :=
  if f.vc = 2 then f else { f with typeVc := BitVec.ofNat 8 (f.ty + 16 * v) }

end Sys2Proof

namespace Sys2Proof.Machine

/-- A frame of this module (R181, R183): VC0, or VC2 for TIME and HEALTH; HOPS 0. -/
def State.mkFrame (s : State) (ty : Nat) (flags : Nat) (dst : Nat) (scope : Nat) (stamp : W32) (payload : List Byte) : Frame :=
  let vc := if ty = 4 ∨ ty = 7 then 2 else 0
  let f : Frame :=
    { typeVc := BitVec.ofNat 8 (ty + 16 * vc), flags := BitVec.ofNat 8 flags, dst := BitVec.ofNat 16 (dst + scope * 2 ^ 14),
      src := BitVec.ofNat 16 s.module, lenHops := BitVec.ofNat 16 (payload.length / 4), epoch := s.pl.epoch, stamp := stamp,
      payload := payload, crc := 0 }
  { f with crc := f.goodCrc }

/-- Payloads are padded to a multiple of 4 bytes (R181). -/
def pad4 (bs : List Byte) : List Byte := bs ++ List.replicate ((4 - bs.length % 4) % 4) 0

/-! ### Ports and links -/

def Port.ix : Port → Nat | .n => 0 | .e => 1 | .s => 2 | .w => 3 | .pl => 4

def State.port (s : State) (p : Port) : PortSt := tget PortSt.reset s.ring.ports (Port.ix p)
def State.setPort (s : State) (p : Port) (x : PortSt) : State :=
  { s with ring := { s.ring with ports := tput s.ring.ports (Port.ix p) x } }
def State.portUp (s : State) (p : Port) : Bool := decide ((s.port p).st = .up)

/-- Changes one counter of a port. -/
def State.portCnt (s : State) (p : Port) (f : PortCnt → PortCnt) : State :=
  s.setPort p { s.port p with cnt := f (s.port p).cnt }

/-- The port opposite on the same ring: the way straight on. -/
def Port.across : Port → Port | .n => .s | .s => .n | .e => .w | .w => .e | .pl => .pl

/-- The port of a direction: along the row or the column, towards rising numbers or falling ones. -/
def portTo (row forward : Bool) : Port := if row then (if forward then .e else .w) else (if forward then .s else .n)

def isRowPort (p : Port) : Bool := decide (p = .e) || decide (p = .w)

/-- The link at a ring port, named by the member whose E or S port it leaves. -/
def State.linkAt (s : State) (p : Port) : LinkName :=
  let r := rowOf s.module
  let c := colOf s.module
  let far := (s.port p).far
  match p with
  | .e => { row := true, ring := r, pos := c }
  | .w => { row := true, ring := r, pos := (far.map colOf).getD ((c + s.nv.nc - 1) % s.nv.nc) }
  | .s => { row := false, ring := c, pos := r }
  | _ => { row := false, ring := c, pos := (far.map rowOf).getD ((r + s.nv.nr - 1) % s.nv.nr) }

/-- A ring-state entry counts as not UP: DOWN, or planned and its t0 has come (R198, R206). -/
def LinkEntry.out (e : LinkEntry) (now : W64) : Bool :=
  e.downAt.isSome || match e.planT0 with
    | some t => reached t now
    | none => false

/-- A ring port works as far as its bypass goes: open (R204). -/
def State.unbypassed (s : State) (p : Port) : Bool := if isRowPort p then !s.pins.bypEW else !s.pins.bypNS

/-- Links of this module's own ports that are not UP although the bypass is open: the ring ends here (R198, R205). -/
def State.ownOut (s : State) (row : Bool) : List Nat :=
  ([portTo row true, portTo row false].filter fun p => s.unbypassed p && !s.portUp p).map fun p => (s.linkAt p).pos

/-- Positions of the links that are out on a ring: as the ring-state table has them, and this module's own (R198). -/
def State.outLinks (s : State) (row : Bool) (ring : Nat) : List Nat :=
  let own := if ring = (if row then rowOf s.module else colOf s.module) then s.ownOut row else []
  (own ++ (s.ring.links.filter fun e => decide (e.link.row = row) && decide (e.link.ring = ring) && e.out s.now).map (·.link.pos)).eraseDups

/-- The ring-state table with one link's entry changed. -/
def State.setLink (s : State) (l : LinkName) (f : LinkEntry → LinkEntry) : State :=
  let old := (s.ring.links.find? fun e => decide (e.link = l)).getD { link := l, downAt := none, planT0 := none }
  let e := f old
  let rest := s.ring.links.filter fun e => decide (e.link ≠ l)
  { s with ring := { s.ring with links := if e.downAt.isNone && e.planT0.isNone then rest else e :: rest } }

/-- Some ring of the domain is split: two or more of its links are out (R198). -/
def State.anySplit (s : State) : Bool :=
  ((true, rowOf s.module) :: (false, colOf s.module) :: s.ring.links.map fun e => (e.link.row, e.link.ring)).any fun r =>
    decide (2 ≤ (s.outLinks r.1 r.2).length)

/-! ### Routes (R189, R191) -/

/-- Positions from p forward to t on a ring of n. -/
def dist (n p t : Nat) : Nat := (t + n - p % n) % n

/-- A way from p to t, forward or not, that crosses no link that is out. -/
def wayFree (n : Nat) (outs : List Nat) (p t : Nat) (forward : Bool) : Bool :=
  if forward then outs.all fun a => decide (dist n p t ≤ dist n p a)
  else outs.all fun a => decide (dist n t p ≤ dist n t a)

/-- The direction an entering member chooses on a ring: fewer positions, east or south at a tie; on a wrapped ring the way that crosses no break (R189). -/
def chooseWay (n : Nat) (outs : List Nat) (p t : Nat) : Option Bool :=
  let f := wayFree n outs p t true
  let b := wayFree n outs p t false
  if f && b then some (decide (dist n p t ≤ dist n t p))
  else if f then some true
  else if b then some false
  else none

def State.ringSize (s : State) (row : Bool) : Nat := if row then s.nv.nc else s.nv.nr

def State.way (s : State) (row : Bool) (ring p t : Nat) : Option Bool :=
  chooseWay (s.ringSize row) (s.outLinks row ring) p t

/-- The way from a column to a destination on a row: for SCOPE pair to the column of the pair that is nearer, of those a way leads to (R188, R189). -/
def State.rowWay (s : State) (row p dst scope : Nat) : Option (Nat × Bool) :=
  let n := s.nv.nc
  let leg (t : Nat) : Option (Nat × Nat × Bool) := (s.way true row p t).map fun f => (if f then dist n p t else dist n t p, t, f)
  let c := colOf dst
  match leg c, (if scope = 1 then leg (c + 1) else none) with
  | some a, some b => some (if b.1 < a.1 then b.2 else a.2)
  | some a, none => some a.2
  | none, some b => some b.2
  | none, none => none

/-- The columns that count as a destination (R188). -/
def endCols (dst scope : Nat) : List Nat := if scope = 1 then [colOf dst, colOf dst + 1] else [colOf dst]

/-- The first port of a route to a module or pair, and ALT; `none` when no route is available (R189, R191). -/
def State.route (s : State) (dst scope : Nat) : Option (Port × Bool) :=
  let r := rowOf s.module
  let c := colOf s.module
  let r' := rowOf dst
  let rowFirst : Option Port :=
    if c ∈ endCols dst scope then (if r = r' then none else (s.way false c r r').map (portTo false))
    else
      match s.rowWay r c dst scope with
      | none => none
      | some (c', f) => if r = r' ∨ (s.way false c' r r').isSome then some (portTo true f) else none
  match rowFirst with
  | some p => some (p, false)
  | none =>
    if r = r' then none
    else match s.way false c r r' with
      | none => none
      | some f => if c ∈ endCols dst scope ∨ (s.rowWay r' c dst scope).isSome then some (portTo false f, true) else none

/-- The port of a DIR field (R181). -/
def dirPort (d : Nat) : Port := match d with | 0 => .e | 1 => .w | 2 => .s | _ => .n

/-! ### Sending -/

/-- Counts and records a frame that no way leads to, once per destination and second (R191). -/
def State.unreachable (s : State) (p : Port) (dst : Nat) : State :=
  let s := s.portCnt p fun c => { c with unreachable := c.unreachable + 1 }
  if s.oncePer 2 dst sec then (s.record 0x0505 0 (Port.ix p) (BitVec.ofNat 32 dst) 0 0 0).markOnce 2 dst else s

/-- A frame for a dead output is dropped with a count, and a DROP_BREAK record once per second (R199). -/
def State.dropBreak (s : State) (p : Port) (n : Nat) : State :=
  if n = 0 then s
  else
    let s := s.portCnt p fun c => { c with dropBreak := c.dropBreak + BitVec.ofNat 32 n }
    if s.oncePer 3 (Port.ix p) sec then
      (s.record 0x0504 0 (Port.ix p) (BitVec.ofNat 32 n) 0 0 0).markOnce 3 (Port.ix p)
    else s

/-- Credit held for a channel and pool (R194). -/
def PortSt.creditOf (x : PortSt) (f : Frame) : Nat := tget PortSt.fullCredit x.credit (2 * f.vc + f.pool)
def PortSt.takeCredit (x : PortSt) (f : Frame) : PortSt :=
  if f.vc = 2 then x else { x with credit := tput x.credit (2 * f.vc + f.pool) (x.creditOf f - f.units) }
def PortSt.mayStart (x : PortSt) (f : Frame) : Bool := decide (f.vc = 2) || decide (f.units ≤ x.creditOf f)

/-- A message of the first group of the Pair Link: SIG, BUNDLE_REQ, BUNDLE, ROLE (R222), and the words that R378 and R403 put there. -/
def Tx.pairFirst (t : Tx) : Bool :=
  (decide (t.f.ty = 6) && decide (field t.f.payload 0 1 ∈ [0x20, 0x21, 0x22, 0x25])) ||
    match t.body with
    | some (.tripWords _ _ _) | some (.canWords _ _ _ _) => true
    | _ => false

/-- The group of a frame at an output: on a ring VC2, then PUB and PLACE, then the others (R196); on the Pair Link those of R222. -/
def Tx.group (p : Port) (t : Tx) : Nat :=
  if p = .pl then (if t.pairFirst then 0 else 1)
  else if t.f.vc = 2 then 0 else if t.f.ty = 1 ∨ t.f.ty = 5 then 1 else 2

/-- The order of groups, within each VC1 before VC0 (R196). -/
def Tx.rank (p : Port) (t : Tx) : Nat := 2 * t.group p + (if t.f.vc = 1 then 0 else 1)

/-- Frames that may start: credit is held for the whole frame, and none that waits before it for the same credit may not (R194, R213). -/
def eligibleTx (x : PortSt) : List (Nat × Nat) → List Tx → List Tx
  | _, [] => []
  | stuck, t :: r =>
    if (t.f.vc, t.f.pool) ∈ stuck then eligibleTx x stuck r
    else if x.mayStart t.f then t :: eligibleTx x stuck r
    else eligibleTx x ((t.f.vc, t.f.pool) :: stuck) r

/-- The frame an output port sends next: of the earliest group, in arrival order (R194, R196). -/
def nextTx (p : Port) (x : PortSt) : Option Tx :=
  (eligibleTx x [] x.txq).foldl (init := none) fun m t => match m with
    | none => some t
    | some u => if t.rank p < u.rank p then some t else some u

/-- Time on the wire in ns: 2,909 bytes per µs on a ring link, 5,818 on the Pair Link (R175, R177, R218). -/
def wireNs (p : Port) (f : Frame) : Nat :=
  let rate := if p = .pl then 5818 else 2909
  (f.linkBytes * 1000 + rate - 1) / rate

/-- A control block that names a channel and a pool (R176). -/
def State.control (s : State) (p : Port) (kind : Byte) (f : Frame) (more : List Byte) : State :=
  s.send (.control p kind ([BitVec.ofNat 8 f.vc, BitVec.ofNat 8 f.pool] ++ more))

/-- What a frame at an output is on the wire. -/
def Tx.out (p : Port) (t : Tx) : Out :=
  match t.body with
  | none => .frame p t.f
  | some m => .msg p t.f m

def portOfIx (i : Nat) : Port := match i with | 0 => .n | 1 => .e | 2 => .s | 3 => .w | _ => .pl

/-- A copy of a frame that came in still waits or is on the wire somewhere. -/
def State.stillHeld (s : State) (id : Nat) : Bool :=
  s.ring.ports.any fun x => (x.2.txq ++ x.2.sending.map (·.1)).any fun t => decide (t.org.map (·.id) = some id)

/-- The buffer of a frame that came in is free once no copy of it is left: CREDIT returns it (R176, R194). -/
def State.release (s : State) (o : Option Org) : State :=
  match o with
  | none => s
  | some o =>
    if s.stillHeld o.id || !s.portUp (portOfIx o.port) then s
    else s.send (.control (portOfIx o.port) 0x60 [BitVec.ofNat 8 o.vc, BitVec.ofNat 8 o.pool, BitVec.ofNat 8 o.units])

/-- Frames whose last byte has left are gone, and a suspended one goes on after RESUME (R196). -/
def State.finish (s : State) (p : Port) : Nat → State
  | 0 => s
  | n + 1 =>
    let x := s.port p
    match x.sending with
    | [] => s
    | (t, e) :: r =>
      if s.clk < e then s
      else
        match r with
        | [] => ((s.setPort p { x with sending := [] }).release t.org).finish p n
        | (u, left) :: r =>
          (((s.setPort p { x with sending := (u, e + left) :: r }).control p 0x51 u.f []).release t.org).finish p n

/-- A frame starts on the wire. -/
def State.start (s : State) (p : Port) (t : Tx) : State :=
  let x := s.port p
  let x := { x.takeCredit t.f with txq := x.txq.erase t, sending := (t, s.clk + wireNs p t.f) :: x.sending }
  ((s.setPort p x).send (t.out p)).count (ctrEv 0x30 1 (Port.ix p))

/-- Starts the next frame if one may: on a free output, or before a frame of a later group, which PREEMPT suspends (R196). -/
def State.startNext (s : State) (p : Port) : State :=
  let x := s.port p
  match nextTx p x with
  | none => s
  | some t =>
    match x.sending with
    | [] => s.start p t
    | (u, e) :: r =>
      if t.group p < u.group p then
        ((s.setPort p { x with sending := (u, e - s.clk) :: r }).control p 0x50 u.f []).start p t
      else s

/-- An output goes on: frames that have gone leave it, and the next one starts; at most n of each. -/
def State.drain (s : State) (p : Port) (n : Nat) : State := ((s.finish p n).startNext p)

/-- Every output goes on (R196). -/
def State.drainAll (s : State) : State :=
  [Port.n, .e, .s, .w, .pl].foldl (fun (s : State) p => s.drain p ((s.port p).sending.length)) s

/-- The frame crosses the ring's dateline at this port (R193). -/
def State.dateline (s : State) (p : Port) : Bool :=
  match p with
  | .e => colOf s.module + 1 = s.nv.nc
  | .w => colOf s.module = 0
  | .s => rowOf s.module + 1 = s.nv.nr
  | .n => rowOf s.module = 0
  | .pl => false

/-- A frame of this module, which it does not send while it is silent; RING_PLAN excepted. -/
def State.mute (s : State) (t : Tx) : Bool :=
  s.silent && decide (t.f.srcMod = s.module) && !(t.body.map Msg.isPlan).getD false

/-- Hands a frame to an output port: dropped when the link is not UP, else queued, and sent as the order and the credit allow (R194 to R196, R199). -/
def State.queue (s : State) (p : Port) (t : Tx) : State :=
  if s.mute t then s
  else if !s.portUp p then s.dropBreak p 1
  else
    let x := s.port p
    (s.setPort p { x with txq := x.txq ++ [t] }).drain p x.sending.length

/-- Sends a frame of this module on a port (R183). -/
def State.transmit (s : State) (p : Port) (f : Frame) (body : Option Msg) : State :=
  s.queue p { f := { f with crc := f.goodCrc }, body := body, org := none }

/-- The link at a port counts as DOWN from the t0 of a RING_PLAN on, while it still works (R206). -/
def State.plannedOut (s : State) (p : Port) : Bool :=
  let l := s.linkAt p
  decide (p ≠ .pl) && s.ring.links.any fun e => decide (e.link = l) && e.downAt.isNone && e.out s.now

/-- Sends a frame of SCOPE module or pair by its route; to itself it is not sent, to its own pair across the Pair Link with PAIRX (R190), and a directed one never towards a planned break (R188 to R191, R206). -/
def State.sendRouted (s : State) (f : Frame) (body : Option Msg) : State :=
  if f.scope = 0 ∧ f.dstMod = s.module then s
  else if f.scope = 1 ∧ pairOf f.dstMod = pairOf s.module then s.transmit .pl { f with flags := f.flags ||| 0x04 } body
  else if f.dirset then (if s.plannedOut (dirPort f.dir) then s.unreachable (dirPort f.dir) f.dstMod else s.transmit (dirPort f.dir) f body)
  else match s.route f.dstMod f.scope with
    | none => s.unreachable .e f.dstMod
    | some (p, alt) => s.transmit p (if alt then { f with flags := f.flags ||| 0x08 } else f) body

/-- How far a broadcast copy runs on a whole ring of n: n/2 positions forward, the rest backward (R192). -/
def spanOf (n : Nat) (forward : Bool) : Nat := if forward then n / 2 else n - 1 - n / 2

/-- How far a broadcast copy of a position runs: on a wrapped or split ring up to the break, and no farther (R192, R198). -/
def reach (n : Nat) (outs : List Nat) (p : Nat) (forward : Bool) : Nat :=
  if outs.isEmpty then spanOf n forward
  else (outs.map fun a => if forward then dist n p a else dist n (a + 1) p).foldl min (n - 1)

/-- Sends a broadcast in both directions of a ring (R192). -/
def State.bothWays (s : State) (row : Bool) (f : Frame) (body : Option Msg) : State :=
  let n := s.ringSize row
  let (ring, me) := if row then (rowOf s.module, colOf s.module) else (colOf s.module, rowOf s.module)
  let outs := s.outLinks row ring
  let s := if 0 < reach n outs me true then s.transmit (portTo row true) f body else s
  if 0 < reach n outs me false then s.transmit (portTo row false) f body else s

/-- Sends a broadcast: a domain broadcast on its row in both directions and on the column as every member of the row does, and column first as well while a ring is split (R192); a row broadcast on the row of DST, reached along the column where it is another one (R187; log 75). -/
def State.sendBroadcast (s : State) (f : Frame) (body : Option Msg) : State :=
  if f.scope = 2 then
    if rowOf s.module = rowOf f.dstMod then s.bothWays true f body
    else match s.way false (colOf s.module) (rowOf s.module) (rowOf f.dstMod) with
      | some d => s.transmit (portTo false d) f body
      | none => s.unreachable .e f.dstMod
  else
    let s := (s.bothWays true f body).bothWays false f body
    if s.anySplit then s.bothWays false { f with flags := f.flags ||| 0x08 } body else s

/-- A frame of this module to one module (R187), stamped now. -/
def State.sendTo (s : State) (ty dst : Nat) (payload : List Byte) : State :=
  s.sendRouted (s.mkFrame ty 0 dst 0 s.now32 (pad4 payload)) none

/-- A domain broadcast of this module, stamped now. -/
def State.broadcast (s : State) (ty : Nat) (payload : List Byte) : State :=
  s.sendBroadcast (s.mkFrame ty 0 s.module 3 s.now32 (pad4 payload)) none

/-! ### Messages of internal layout (R151, R181, R186, R219) -/

/-- The bytes of a message's payload that the spec lays out: the kind codes of R186 and R219. -/
def Msg.head : Msg → List Byte
  | .bundleReq _ _ => [0x21]
  | .bundle _ _ _ => [0x22]
  | .mirror _ => [0x23]
  | .force _ => [0x24]
  | .role _ => [0x25]
  | .goCmp _ => [0x26]
  | .placer _ => [0x27]
  | .join _ => [0x28]
  | .notice k _ _ => [k]
  | _ => []

/-- The MGMT frame of a pair message: DST the partner, SCOPE module (R219). -/
def State.pairFrame (s : State) (m : Msg) : Frame := s.mkFrame 6 0 s.partner 0 s.now32 (pad4 m.head)

/-- A pair message goes out on the Pair Link while it is UP (R219). -/
def State.toPartner (s : State) (m : Msg) : State := if s.portUp .pl then s.transmit .pl (s.pairFrame m) (some m) else s

/-- The frame of a message to a module or, with ROLE, to the ACTIVE module of a pair (R187, R330). -/
def State.msgFrame (s : State) (ty dst scope : Nat) (m : Msg) : Frame := s.mkFrame ty (if scope = 1 then 1 else 0) dst scope s.now32 (pad4 m.head)

/-- A message of a frame type to a module or pair, by its route (R189, R191). -/
def State.toModule (s : State) (ty dst scope : Nat) (m : Msg) : State := s.sendRouted (s.msgFrame ty dst scope m) (some m)

/-- A pair as a DST field names it: SCOPE pair (R181). -/
def pairDst (q : Nat) : Nat := q + 0x4000

/-- A REQ to a DST field: SCOPE pair, with ROLE, for a pair, SCOPE module for one module (R181, R330). -/
def State.sendReq (s : State) (dst : Nat) (m : ReqMsg) : State := s.toModule 2 (bitsAt dst 0 12) (bitsAt dst 14 2) (.req m)

/-- An RSP to the module a request came from (R331). -/
def State.sendRsp (s : State) (dst : Nat) (m : RspMsg) : State := s.toModule 3 dst 0 (.rsp m)

/-- A ring notice: a HEALTH frame as a domain broadcast (R199, R206). -/
def State.sendNotice (s : State) (kind : Byte) (links : List LinkName) (t0 : W64) : State :=
  let m : Msg := .notice kind links t0
  s.sendBroadcast (s.mkFrame 7 0 s.module 3 s.now32 (pad4 m.head)) (some m)

/-- A frame this output would start at once: the link is UP, nothing is on the wire or waits, the module is not silent, and credit is held. -/
def State.clear (s : State) (p : Port) (f : Frame) : Bool :=
  s.portUp p && (s.port p).txq.isEmpty && (s.port p).sending.isEmpty && !s.silent && (s.port p).mayStart f

end Sys2Proof.Machine
end

