-- ==== Sys2Proof/Machine/MailOps.lean ====
section
/-! DEFINITION. Requests and their answers: status codes (R324), the command table with who executes what (R330, R335), the order of a partition's commands (R326), forwarding (R330, R331) and the answer to a request wherever it came from (R318, R322, R325, R328). -/
namespace Sys2Proof.Machine

/-- Status codes (R324). -/
inductive Status where
  | ok | busy | badCmd | badLen | denied | notNow | noRoom | checkFail | timeout | safeState | staleEpoch
deriving DecidableEq, Repr

def Status.num : Status → Nat
  | .ok => 0 | .busy => 1 | .badCmd => 2 | .badLen => 3 | .denied => 4 | .notNow => 5 | .noRoom => 6 | .checkFail => 7
  | .timeout => 8 | .safeState => 9 | .staleEpoch => 10

/-- The codes of R335. -/
def cmdCodes : List Nat :=
  (List.range 8).map (0x0101 + ·) ++ (List.range 12).map (0x0201 + ·) ++ (List.range 7).map (0x0301 + ·)
    ++ (List.range 4).map (0x0401 + ·) ++ (List.range 5).map (0x0501 + ·) ++ (List.range 3).map (0x0601 + ·)
    ++ (List.range 5).map (0x0701 + ·) ++ (List.range 6).map (0x0801 + ·) ++ (List.range 8).map (0x0901 + ·)
    ++ (List.range 6).map (0x0A01 + ·) ++ (List.range 7).map (0x0B01 + ·)

/-- Commands that RECOVERY accepts: those marked † in R335 (R285). -/
def recoveryCmds : List Nat := [0x0104, 0x0901, 0x0902, 0x0903, 0x0904, 0x0907]

/-- The time in which a command is answered, in ns (R326, R334). -/
def cmdLimit (cmd : Nat) (payload : List Byte) : Nat :=
  if cmd = 0x0201 ∨ cmd = 0x0301 then 60 * sec
  else if cmd = 0x0903 then 30 * sec
  else if cmd = 0x0B03 then min (field payload 4 4) 60000 * msec + sec
  else 10 * sec

/-! ### Sessions (R323, R333) -/

/-- The session a tag names at a source. -/
def State.session (s : State) (src : ReqSrc) (tag : W64) : Option Session :=
  s.mb.sessions.find? fun x => decide (x.tag = tag) && decide (x.src = src)

/-- A safety login holds for 300 s without a 0x0Axx command (R333). -/
def Session.loggedIn (x : Session) (clk : Nat) : Bool :=
  match x.login with
  | some t => decide (clk - t < 300 * sec)
  | none => false

/-! ### Answers -/

/-- The number under which the time limit of a request runs: its tag, or its mailbox or connection where it has none. -/
def limitKey (src : ReqSrc) (tag : W64) : Nat := if tag = 0 then 2 ^ 64 + srcIx src else tag.toNat

def Request.limit (r : Request) : Timer := .command (limitKey r.src r.tag) r.seq.toNat

/-- The timers of one request. -/
def State.disarmReq (s : State) (r : Request) : State :=
  ((s.disarm r.limit).disarm (.reqRetry r.tag.toNat r.seq.toNat)).disarm (.reqTimeout r.tag.toNat r.seq.toNat)

/-- A response of a source: it is the last one there and waits for the response buffer, or goes out on the connection (R318, R325, R328). -/
def State.putResponse (s : State) (src : ReqSrc) (r : Response) : State :=
  let ix := srcIx src
  match src with
  | .tls c =>
    if !s.mb.tls.any fun t => decide (t.conn = c.val) then s
    else
      let tls := s.mb.tls.map fun t => if t.conn = c.val then { t with busy := false } else t
      { s with mb := { s.mb with last := tput s.mb.last ix r, tls := tls } }.send (.tls c.val r.bytes)
  | _ => { s with mb := { s.mb with last := tput s.mb.last ix r, ready := tput s.mb.ready ix r } }

/-- The final answer to an accepted request, which leaves the queue (R326, R330, R331). -/
def State.answerCode (s : State) (r : Request) (code : W16) (detail : Nat) (payload : List Byte) : State :=
  let q := s.mb.queue.filter fun x => !(decide (x.src = r.src) && decide (x.seq = r.seq) && decide (x.cmd = r.cmd))
  let fwd := s.mb.fwd.filter fun x => !(decide (x.1.src = r.src) && decide (x.1.seq = r.seq) && decide (x.1.cmd = r.cmd))
  let gather := s.mb.gather.filter fun x => decide (x.1 ≠ (r.src, r.cmd, r.seq))
  let s := { s with mb := { s.mb with queue := q, fwd := fwd, gather := gather } }.disarmReq r
  match r.src with
  | .forwarded o _ _ =>
    let m : RspMsg := { session := r.tag, cmd := r.cmd, seq := r.seq, interim := false, status := code,
                        detail := BitVec.ofNat 32 detail, payload := payload }
    let old := s.mb.rsps.filter fun x => !(decide (x.1 = o.val) && decide (x.2.session = r.tag))
    { s with mb := { s.mb with rsps := (o.val, m) :: old } }.sendRsp o.val m
  | src =>
    s.putResponse src { cmd := r.cmd, seq := r.seq, status := code, rflags := 0, detail := BitVec.ofNat 32 detail,
                        time := s.now32, epoch := s.pl.epoch, payload := payload, noirq := r.noirq, key := r.tag }

def State.answer (s : State) (r : Request) (st : Status) (detail : Nat) (payload : List Byte) : State :=
  s.answerCode r (BitVec.ofNat 16 st.num) detail payload

def State.refuse (s : State) (r : Request) (st : Status) : State := s.answer r st 0 []
def State.okay (s : State) (r : Request) (payload : List Byte) : State := s.answer r .ok 0 payload

/-- The queued request that work in progress has to answer. -/
def State.answerTo (s : State) (k : Option (ReqSrc × W16 × W16)) (st : Status) (detail : Nat) (payload : List Byte) : State :=
  match k with
  | none => s
  | some (src, cmd, seq) =>
    match s.mb.queue.find? fun r => decide (r.src = src) && decide (r.cmd = cmd) && decide (r.seq = seq) with
    | some r => s.answer r st detail payload
    | none => s

/-- Work that has not taken effect is given up for the requests that `which` names; an epoch that has had its first GO goes on (R326, R334). -/
def State.dropWork (s : State) (which : ReqSrc × W16 × W16 → Bool) : State :=
  let hit (q : Option (ReqSrc × W16 × W16)) : Bool := (q.map which).getD false
  { s with pl := { s.pl with todo := s.pl.todo.filter fun q => !hit q.2,
                             issue := match s.pl.issue with
                               | some i => if hit i.req && i.go.isNone then some { i with req := none } else some i
                               | none => none },
           pair := { s.pair with forceChg := s.pair.forceChg.map fun q => { q with req := if hit q.req then none else q.req } } }

/-- The module is no longer ACTIVE: requests that need the role and have not taken effect are answered NOT_NOW (R326). -/
def State.ceaseActive (s : State) : State :=
  let keys := (s.pl.todo.filterMap (·.2)) ++ (match s.pl.issue with | some i => i.req.toList | none => []) ++ s.pair.forceChg.filterMap (·.req)
  (keys.foldl (fun (s : State) k => s.answerTo (some k) .notNow 0 []) s).dropWork fun _ => true

def Request.key (r : Request) : ReqSrc × W16 × W16 := (r.src, r.cmd, r.seq)

/-- A request whose command has started and whose answer comes later. -/
def State.started (s : State) (r : Request) : State :=
  { s with mb := { s.mb with queue := s.mb.queue.map fun x => if x.src = r.src ∧ x.seq = r.seq then { x with running := true } else x } }

/-! ### Which request a command row runs -/

def ReqSrc.isForwarded : ReqSrc → Bool
  | .forwarded _ _ _ => true
  | _ => false

/-- No command of the same partition that was accepted earlier is unanswered (R326). -/
def State.first (s : State) (r : Request) : Bool :=
  let f := ReqSrc.isForwarded r.src
  let ahead := s.mb.queue.takeWhile fun x => !(decide (x.src = r.src) && decide (x.seq = r.seq))
  ahead.all fun x => decide (x.part ≠ r.part) || decide (ReqSrc.isForwarded x.src ≠ f)

/-- The request of a source that a command row runs: accepted, of this code, not started, and its turn. -/
def State.reqOf (s : State) (q : ReqSrc) (code : Nat) : Option Request :=
  s.mb.queue.find? fun r => decide (r.src = q) && !r.running && decide (r.cmd.toNat = code) && s.first r

/-- Where a command acts (R330): this module, the pair, the home pair of a variable, the leader, a named module. -/
inductive Acts where
  | here
  | pair
  | home (pair : Nat)
  | leader
  | named (m : Nat)
deriving DecidableEq, Repr

/-- This module executes the command (R330). -/
def State.executor (s : State) (a : Acts) : Bool :=
  match a with
  | .here => true
  | .pair => s.active
  | .home p => s.active && decide (pairOf s.module = p)
  | .leader => s.active && decide (s.pl.leader = some (pairOf s.module))
  | .named m => decide (s.module = m)

/-- A standby follows a command its ACTIVE partner has executed for the pair (R330), any module one the leader has executed for the domain. -/
def State.follows (s : State) (a : Acts) (r : Request) : Bool :=
  match r.src, a with
  | .forwarded o _ _, .pair => decide (o.val = s.partner) && !s.active
  | .forwarded o _ _, .leader => decide (s.pl.leader = some (pairOf o.val)) && !s.executor .leader
  | _, _ => false

/-- The DST field of a forwarded request: SCOPE pair for a pair, a home or the leader, SCOPE module for a named module; none where the leader is not known (R330). -/
def State.dstOf (s : State) (a : Acts) : Option Nat :=
  match a with
  | .here => some s.module
  | .pair => some (pairDst (pairOf s.module))
  | .home p => some (pairDst p)
  | .leader => s.pl.leader.map pairDst
  | .named m => some m

/-- The REQ of a request. -/
def State.reqMsg (s : State) (r : Request) (object : Option W32) : ReqMsg :=
  { origin := s.module, session := r.tag, part := r.part, login := r.login, cmd := r.cmd, seq := r.seq, payload := r.payload, object := object }

/-- Forwards a request: repeated every 10 ms, given up after 1 s without an RSP (R330, R331). -/
def State.forwardReq (s : State) (r : Request) (dst : Nat) (object : Option W32) : State :=
  let s := s.started r
  let s := { s with mb := { s.mb with fwd := s.mb.fwd ++ [(r, dst)] } }.sendReq dst (s.reqMsg r object)
  (s.after (.reqRetry r.tag.toNat r.seq.toNat) (10 * msec)).after (.reqTimeout r.tag.toNat r.seq.toNat) sec

/-- Entries of 16 bytes of a VAR_READ: value, current VID, tag. A home answers zeros for what it does not hold. -/
def mergeVars (a b : List Byte) : List Byte :=
  if a.isEmpty then b
  else (List.range (b.length / 16)).flatMap fun i =>
    let x := (a.drop (16 * i)).take 16
    let y := (b.drop (16 * i)).take 16
    if field y 8 4 = 0 then x else y

/-- One home has answered a VAR_READ: the answer is complete when every home has (R330, R335). -/
def State.gatherVars (s : State) (r : Request) (home : Nat) (bs : List Byte) : State :=
  let k := r.key
  let fwd := s.mb.fwd.filter fun x => !(decide (x.1.key = k) && decide (x.2 = home))
  let old := ((s.mb.gather.find? fun x => decide (x.1 = k)).map (·.2)).getD []
  let all := mergeVars old bs
  if fwd.any fun x => decide (x.1.key = k) then
    { s with mb := { s.mb with fwd := fwd, gather := (k, all) :: s.mb.gather.filter fun x => decide (x.1 ≠ k) } }
  else s.okay r all

/-- The first check that fails (R324). -/
def firstFail : List (Bool × Status) → Option Status
  | [] => none
  | (ok, st) :: r => if ok then firstFail r else some st

/-- A payload of exactly n bytes (R324 step 4). -/
def lenIs (r : Request) (n : Nat) : Bool × Status := (decide (r.payload.length = n), .badLen)

/-- A session of partition 0 (R333). -/
def sys (r : Request) : Bool × Status := (decide (r.part = 0), .denied)

/-- own: a session of the named partition or of partition 0 (R333). -/
def own (r : Request) (p : Nat) : Bool × Status := (decide (r.part = 0) || decide (r.part = p), .denied)

/-- own; 0 for P (R333). -/
def State.ownP (s : State) (r : Request) (p : Nat) : Bool × Status :=
  (decide (r.part = 0) || (decide (r.part = p) && decide ((s.part? p).map (·.cfg.crit) ≠ some .p)), .denied)

/-- The epoch field of a command marked "yes" (R324 step 6, R332). -/
def State.epochIs (s : State) (r : Request) : Bool × Status :=
  (decide (field r.payload 0 4 = 0) || decide (field r.payload 0 4 = s.pl.epoch.toNat), .staleEpoch)

/-- One command: its request is found, checked in the order of R324, forwarded or executed (R326, R330). -/
def State.command (s : State) (q : ReqSrc) (code : Nat) (acts : Request → Acts) (checks : Request → List (Bool × Status))
    (body : Request → State → State) : State :=
  match s.reqOf q code with
  | none => s
  | some r =>
    match firstFail (checks r) with
    | some st => s.refuse r st
    | none =>
      let a := acts r
      if s.executor a || s.follows a r then body r s
      else if ReqSrc.isForwarded q then s.refuse r .notNow
      else match s.dstOf a with
        | some d => s.forwardReq r d none
        | none => s.refuse r .notNow

/-- A command that acts on this module. -/
def State.commandHere (s : State) (q : ReqSrc) (code : Nat) (checks : Request → List (Bool × Status))
    (body : Request → State → State) : State := s.command q code (fun _ => .here) checks body

/-! ### Sessions that end (R323) -/

/-- SESSION_CLOSED with its reason: 1 idle limit, 2 replaced, 3 partition removed (R320, R348). -/
def State.sessionClosed (s : State) (x : Session) (reason : Nat) : State :=
  let r := s.mkNotice 0xF005 (leBytes 4 reason)
  match x.src with
  | .mailbox n => { s with mb := s.mb.queueNotice n.val r }
  | .tls c => s.send (.tls c.val r.bytes)
  | .forwarded _ _ _ => s

/-- A session is over, and with it every view and counter block its tag bound (R429, R442). -/
def State.endSession (s : State) (x : Session) : State :=
  { s with mb := { s.mb with sessions := s.mb.sessions.filter fun y => decide (y.tag ≠ x.tag) },
           rcd := { s.rcd with views := s.rcd.views.map fun (v : Nat × View) => (v.1, if v.2.bound = some x.tag then { v.2 with bound := none } else v.2) },
           ctr := { s.ctr with bind := s.ctr.bind.filter fun b => decide (b.2 ≠ x.tag) } }

/-- AUTH_FAIL's SOURCE (R418): the mailbox number, or 0x1000 + the connection. -/
def authSource (ix : Nat) : Nat := if ix < 512 then ix else 0x1000 + (ix - 512)

/-- OPEN_SESSION is answered DENIED at a mailbox or connection (R323). -/
def State.locked (s : State) (ix : Nat) : Bool :=
  match (tget AuthSt.reset s.mb.auth ix).lockUntil with
  | some t => decide (s.clk < t)
  | none => false

/-- A failed OPEN_SESSION: AUTH_FAIL, and after five within 60 s a lock of 60 s (R323, R420). -/
def State.authFail (s : State) (ix part : Nat) : State :=
  let a := tget AuthSt.reset s.mb.auth ix
  let fails := (a.fails.filter fun t => decide (s.clk - t ≤ 60 * sec)) ++ [s.clk]
  let a := if s.locked ix then a else { fails := fails, lockUntil := if 5 ≤ fails.length then some (s.clk + 60 * sec) else none }
  { s with mb := { s.mb with auth := tput s.mb.auth ix a } }.record 0x0904 part (authSource ix) (BitVec.ofNat 32 part) (BitVec.ofNat 32 fails.length) 0 0

end Sys2Proof.Machine
end

