-- ==== Sys2Proof/Machine/HostOps.lean ====
section
/-! DEFINITION. The host interrupt (R315 to R317) and the change of the module's state (R253, R254, R314) with what follows from it at the pins. -/
namespace Sys2Proof.Machine

/-- The moderation time in ns; above 0x3E8 it acts as 0x3E8 (R314). -/
def HostIf.modNs (h : HostIf) : Nat := min h.modTime.toNat 0x3E8 * usec

/-- An H_IRQ_STAT bit is enabled (R314). -/
def HostIf.en (h : HostIf) (i : Nat) : Bool := h.irqEn && h.mask.getLsbD i

/-- MBOX has waited its moderation time, or DOZE bypasses moderation (R316, R317). -/
def HostIf.mboxDue (h : HostIf) (clk : Nat) : Bool :=
  h.en 0 && h.stMbox && match h.unsig with
    | some t => h.doze || decide (t + h.modNs ≤ clk)
    | none => false

/-- Some enabled H_IRQ_STAT bit is 1. -/
def HostIf.anyEn (h : HostIf) : Bool :=
  (h.en 3 && h.stState) || (h.en 2 && h.stBoot) || (h.en 1 && decide (h.err ≠ 0)) || (h.en 0 && h.stMbox)

/-- HIRQ_N after a change of the registers it depends on (R316, R317): STATE, BOOT and ERR at once, MBOX when due; once asserted it stays until no enabled bit is 1, and under DOZE until MBOX is cleared. -/
def State.irqEval (s : State) : State :=
  let h := s.host
  let due := h.mboxDue s.clk
  let hold := h.dozeHold || (h.doze && due)
  let imm := (h.en 3 && h.stState) || (h.en 2 && h.stBoot) || (h.en 1 && decide (h.err ≠ 0)) || due
  let on := hold || imm || (s.pins.hirq && h.anyEn)
  { s with pins := { s.pins with hirq := on },
           host := { h with dozeHold := hold, unsig := if on && h.en 0 && h.stMbox then none else h.unsig } }

/-- A response buffer has been filled: MBOX is set and its moderation time starts if none is running (R316, R318). -/
def State.mboxSet (s : State) : State :=
  let t := match s.host.unsig with
    | some t => t
    | none => s.clk
  let s := { s with host := { s.host with stMbox := true, unsig := some t } }
  let s := if s.armed .irqMod then s else s.arm .irqMod (t + s.host.modNs)
  s.irqEval

/-- Sets an H_ERR bit (R314). -/
def State.hostErr (s : State) (i : Nat) : State :=
  ({ s with host := { s.host with err := s.host.err ||| BitVec.twoPow 6 i } }).irqEval

/-- The module enters a state: H_STAT.STATE has changed (R314), outputs of a module that is not ACTIVE open (R376). -/
def State.setState (s : State) (st : MState) : State :=
  if s.mod.st = st ∨ s.stopping then s
  else
    let left := decide (s.mod.st = .joining)
    let s := if s.mod.st = .active then s.ceaseActive else s
    let s := { s with mod := { s.mod with st := st, bootOk := s.mod.bootOk || left }, host := { s.host with stState := true },
                      trip := if st = MState.active then s.trip else { s.trip with drive := 0, value := 0 } }
    s.irqEval

/-- STATE codes of H_STAT, HEARTBEAT and the Health Report (R251, R314). OFF and BYPASS have no code; they read 0. -/
def MState.code : MState → Nat
  | .off | .bypass => 0x0
  | .boot => 0x1
  | .recovery => 0x2
  | .joining => 0x3
  | .unsynced => 0x4
  | .synced => 0x5
  | .active => 0x6
  | .safe => 0x7
  | .service => 0x8

end Sys2Proof.Machine
end

