-- ==== Sys2Proof/Machine/PairOps.lean ====
section
/-! DEFINITION. Orders that change a partition's state (R60, R61, R63), the module's own evidence and the role changes other families cause (R230, R231, R239 to R241, R252, R254). -/
namespace Sys2Proof.Machine

/-! ### States of a partition -/

/-- An instant plus a lead, rounded up to a whole microsecond (R56, R61). -/
def roundUpUs (t : W64) (lead : Nat) : W64 := BitVec.ofNat 64 ((t.toNat + lead + 999) / 1000 * 1000)

/-- Orders a state of a partition from an instant on (R61, R63, R491). -/
def Part.order_ (p : Part) (st : PState) (e : W64) (code : Nat) : Part :=
  { p with pend := some (st, e, BitVec.ofNat 16 code), was := p.state, entered := [] }

/-- A SAFE order among the open ones (R60, R61): of the entry instants held the earliest counts; it stands before a STOP of a later instant and after a START that is being entered. -/
def safeAmong (e : W64) (code : W16) : List Order → List Order
  | [] => [{ st := .safe, e := e, code := code, entered := [] }]
  | o :: r =>
    match o.st with
    | .running => o :: safeAmong e code r
    | .safe => if since e o.e < 0 ∧ o.entered = [] then { o with e := e, code := code } :: r else o :: r
    | .loaded => if since e o.e < 0 ∧ o.entered = [] then { st := .safe, e := e, code := code, entered := [] } :: o :: r else o :: r

/-- A running partition is ordered into SAFE (R60, R61). -/
def Part.orderSafe (p : Part) (e : W64) (code : Nat) : Part :=
  if p.state ≠ .running then p
  else if p.pend = none then p.order_ .safe e code
  else p.withOrders (safeAmong e (BitVec.ofNat 16 code) p.orders)

/-- The other modules that host a partition: by the plan of the domain those with a task of it, and the partner (R61). -/
def State.hostMods (s : State) (p : Nat) : List Nat :=
  let ms := (s.pl.dom.mods.filter fun m => m.2.tasks.any fun t => decide (taskPart t.task = p)).map (·.1)
  ((if s.unpaired then [] else [s.partner]) ++ ms).eraseDups.filter fun m => decide (m ≠ s.module)

/-- A SAFE notice to every module that hosts the partition: MGMT frames, to the partner over the Pair Link while that is UP (R61; log 75). -/
def State.tellSafe (s : State) (p : Nat) (e : W64) (code : Nat) : State :=
  (s.hostMods p).foldl (init := s) fun s m =>
    if m = s.partner ∧ s.portUp .pl then s.toPartner (.safeNotice p e code) else s.toModule 6 m 0 (.safeNotice p e code)

/-- A SAFE trigger detected here: entry 100 µs after it, rounded up to a whole µs, and SAFE notices (R61). `code` is the code of the record that reports it, 0 for a command. -/
def State.safeTrigger (s : State) (p code : Nat) : State :=
  match s.part? p with
  | none => s
  | some x =>
    if x.state ≠ .running then s
    else
      let e := roundUpUs s.now (100 * usec)
      (s.setPart p (x.orderSafe e code)).tellSafe p e code

/-- Every hosted partition enters SAFE from the first boundary of each class on (R242, R253). -/
def State.allSafe (s : State) (code : Nat) : State :=
  (s.parts.map (·.1)).foldl (init := s) fun s p =>
    match s.part? p with
    | some x => if x.state = .running then (s.setPart p (x.orderSafe s.now code)).tellSafe p s.now code else s
    | none => s

/-! ### Evidence and roles -/

/-- An event lies within the last d ns. -/
def recent (clk : Nat) (at_ : Option Nat) (d : Nat) : Bool :=
  match at_ with
  | some t => decide (clk - t < d)
  | none => false

def State.imgEcc (s : State) : Bool := recent s.clk s.mod.imgEccAt (100 * msec)
def State.dramEcc (s : State) : Bool := recent s.clk s.mod.dramEccAt (100 * msec)

/-- Module-level evidence, the MODFAULT of HEARTBEAT (R230, R252). -/
def State.modFault (s : State) : Bool := s.mod.cmpFlag || s.imgEcc || s.dramEcc || s.mod.supply || s.mod.temp

/-- The partner's latest HEARTBEAT shows STANDBY SYNCED. -/
def State.partnerSynced (s : State) : Bool :=
  match s.pair.view with
  | some v => decide (v.st = 5)
  | none => false

def State.partnerActive (s : State) : Bool :=
  match s.pair.view with
  | some v => decide (v.st = 6)
  | none => false

/-- The partner shows MODFAULT (R220). -/
def State.partnerFault (s : State) : Bool :=
  match s.pair.view with
  | some v => v.modfault
  | none => false

/-- The module becomes STANDBY UNSYNCED: synchronisation starts again, the revert hold and any handover end (R245, R246, R254). -/
def State.toUnsynced (s : State) : State :=
  let s := s.setState .unsynced
  { s with mod := { s.mod with solo := false, syncPct := 0 },
           pair := { s.pair with syncedAt := none, hand := none, rehand := none, mirrorRx := [], withhold := false, adopt := [],
                                 sync := { SyncSt.reset with restarts := s.pair.sync.restarts } } }

/-- A disagreement during synchronisation restarts it; after three restarts the module enters SERVICE (R254, R255). -/
def State.syncRestart (s : State) : State :=
  let n := s.pair.sync.restarts + 1
  let s := (s.record 0x0608 0 s.module (BitVec.ofNat 32 n) 0 0 0).toPartner (.join .request)
  let s := { s with pair := { s.pair with mirrorRx := [], sync := { SyncSt.reset with restarts := n } }, mod := { s.mod with syncPct := 0 } }
  if 3 ≤ n then s.setState .service else s

/-- The module gives way as a whole (R231 row 1, R253, R254): ACTIVE steps down before a STANDBY SYNCED partner and goes to SAFE, its partitions with it, without one; STANDBY SYNCED becomes UNSYNCED. -/
def State.giveWay (s : State) : State :=
  if s.stopping then s
  else match s.mod.st with
    | .active => if s.partnerSynced && !s.mod.solo then (s.toPartner (.role .giveWay)).toUnsynced else (s.allSafe 0).setState .safe
    | .synced => s.toUnsynced
    | _ => s

/-- An uncorrectable error of Image Memory or of DRAM is module-level evidence for 100 ms (R230, R252, R254). -/
def State.imageError (s : State) : State := { s with mod := { s.mod with imgEccAt := some s.clk } }.giveWay
def State.dramError (s : State) : State := { s with mod := { s.mod with dramEccAt := some s.clk } }.giveWay

/-- A new role term (R223). -/
def State.nextTerm (s : State) : State := { s with pair := { s.pair with term := s.pair.term + 1 } }

/-- A term is newer when the signed difference is positive (R223). -/
def termNewer (a b : W32) : Bool := decide (0 < (a - b).toInt)

/-- A handover in progress is over or cancelled: classes of warm partitions that ran hot for it have a MIRROR from their present cycle on (R226, R246). -/
def State.endHand (s : State) : State :=
  let hot := match s.pair.hand with
    | some h => decide (1 ≤ h.stage)
    | none => false
  let mark (x : Part) : Part :=
    { x with owedFrom := (List.range 8).foldl (init := x.owedFrom) fun t k => match (s.cls_ k).bnd with
        | some b => if (x.profileOf k).hot then t else tput t k b
        | none => t }
  { s with pair := { s.pair with hand := none }, parts := if hot then s.parts.map fun q => (q.1, mark q.2) else s.parts }

/-- The ACTIVE module continues SOLO; a handover is cancelled (R238, R239, R246). -/
def State.goSolo (s : State) : State :=
  let s := s.endHand
  { s with mod := { s.mod with solo := true }, pair := { s.pair with withhold := false, adopt := [] } }

end Sys2Proof.Machine
end

