-- ==== Sys2Proof/Machine/CycleOps.lean ====
section
/-! DEFINITION. What happens to a task's cycle and its partition: SAFE triggers (R60, R61), consecutive counts (R52), policies (R83, R303), SIG entries (R221) and the resolution of disagreements (R227 to R233, R492). -/
namespace Sys2Proof.Machine

/-! ### Class cycles of a partition -/

def Cycle.new (p k : Nat) (bnd : W64) : Cycle :=
  { part := p, cls := k, bnd := bnd, own := [], partner := [], lateOwn := [], latePartner := [], settled := [],
    disputed := [], counted := [], arbitration := false, withheld := false, committed := false }

def Cycle.is (c : Cycle) (p k : Nat) (bnd : W64) : Bool := decide (c.part = p) && decide (c.cls = k) && decide (c.bnd = bnd)

/-- The class cycle of a partition at a boundary, a fresh one if none is held. -/
def State.cycle (s : State) (p k : Nat) (bnd : W64) : Cycle := (s.cycles.find? fun c => c.is p k bnd).getD (Cycle.new p k bnd)

def State.setCycle (s : State) (c : Cycle) : State :=
  { s with cycles := c :: s.cycles.filter fun d => !d.is c.part c.cls c.bnd }

/-! ### Consecutive counts (R52) -/

/-- A task cycle counts, once: at the overrun limit the partition enters SAFE (R52). -/
def State.countOverrun (s : State) (task : W32) (k : Nat) (bnd : W64) (code : Nat) : State :=
  let c := s.cycle (taskPart task) k bnd
  if task ∈ c.counted then s
  else
  let s := s.setCycle { c with counted := task :: c.counted }
  let n := tget 0 s.overrun task.toNat + 1
  let s := { s with overrun := tput s.overrun task.toNat n }
  let limit := ((s.part? (taskPart task)).map (·.limit)).getD 3
  if limit ≤ n then s.safeTrigger (taskPart task) code else s

/-- The count returns to 0 when a cycle of the task is committed (R52). -/
def State.clearOverrun (s : State) (task : W32) : State := { s with overrun := terase s.overrun task.toNat }

/-- An OVERRUN record (R51, R420): task; class, lane; consecutive count; time. -/
def State.recordOverrun (s : State) (task : W32) (k lane : Nat) (t : W32) (late : W32) : State :=
  { s with mod := { s.mod with overruns := s.mod.overruns + 1 } }.recordAt t 0x0202 (taskPart task) lane task
    (BitVec.ofNat 32 (k + 256 * lane)) (BitVec.ofNat 32 (tget 0 s.overrun task.toNat)) late

/-! ### Policies -/

/-- The mismatch policy of R83: SAFE enters SAFE with the verdict as trigger; HOLD leaves it at R81. -/
def State.mismatchPolicy (s : State) (task : W32) : State :=
  match s.part? (taskPart task) with
  | some p => if p.mismatchSafe || decide (p.cfg.crit = .p) then s.safeTrigger (taskPart task) 0x0301 else s
  | none => s

/-- The fault policy of R303: SAFE is a trigger; under HOLD the cycle counts as an overrun does. -/
def State.faultPolicy (s : State) (task : W32) (k : Nat) (bnd : W64) (code : Nat) : State :=
  match s.part? (taskPart task) with
  | some p =>
    if p.faultSafe || decide (p.cfg.crit = .p) then s.safeTrigger (taskPart task) code
    else s.countOverrun task k bnd code
  | none => s

def Cycle.ownOf (c : Cycle) (t : W32) : Option SigEntry := c.own.find? fun e => decide (e.task = t)
def Cycle.partnerOf (c : Cycle) (t : W32) : Option SigEntry := c.partner.find? fun e => decide (e.task = t)
def Cycle.isSettled (c : Cycle) (t : W32) : Bool := c.settled.any fun e => decide (e.1 = t)

/-- The signature of an entry is valid (R221). -/
def SigEntry.valid (e : SigEntry) : Bool := decide (e.status = 0) || decide (e.status = 4)

/-- Task-level evidence an entry carries in a disagreement (R230). -/
def SigEntry.evidence (e : SigEntry) : Bool :=
  decide (e.status ∈ [0x02#8, 0x03#8, 0x04#8]) || (decide (e.status = 1) && isHwVerdict e.code.toNat)

/-- An entry carries a data verdict (R79). -/
def SigEntry.dataVerdict (e : SigEntry) : Bool := decide (e.status = 1) && isDataVerdict e.code.toNat

/-- The SIG payload of one entry (R221). -/
def sigPayload (c : Cycle) (last : Bool) (term : W32) (e : SigEntry) : List Byte :=
  [0x20, BitVec.ofNat 8 c.cls] ++ leBytes 2 c.part ++ leBytes 4 (lo32 c.bnd).toNat ++ [1, BitVec.ofNat 8 (bit last)]
    ++ leBytes 2 0 ++ leBytes 4 term.toNat ++ leBytes 4 e.task.toNat ++ [e.status, e.code] ++ leBytes 2 0
    ++ leBytes 8 e.sig.toNat

/-- Settles a task of a cycle: to be committed or not. -/
def Cycle.settle (c : Cycle) (t : W32) (ok : Bool) : Cycle := { c with settled := (t, ok) :: c.settled }

/-- What a disagreement comes to (R231, R233). -/
inductive Resolution where
  | commit
  | adopt
  | drop (both : Bool)
  | dropOther
  | safe (after : Bool)
  | arbitrate
deriving DecidableEq, Repr

/-- R231 by its rows: own and partner's entry, evidence on each side, profile WINTER or not, and whether this is an arbitration cycle (R233). -/
def resolveRow (ownOk parOk ownEv parEv winter arbitration : Bool) : Resolution :=
  if parEv && !ownEv then (if ownOk then .commit else .dropOther)
  else if ownEv && !parEv then (if parOk then .adopt else .dropOther)
  else if ownEv && parEv then .drop true
  else if winter then .safe false
  else if arbitration then .safe true
  else .arbitrate

/-- DISAGREEMENT_SAFE and the SAFE trigger it reports (R60, R231, R233, R420). -/
def State.disagreementSafe (s : State) (c : Cycle) (t : W32) (after : Bool) : State :=
  (s.record 0x060B c.part s.partner (BitVec.ofNat 32 c.part) (BitVec.ofNat 32 c.cls) t (BitVec.ofNat 32 (bit after))).safeTrigger
    c.part 0x060B

/-- The module withholds the class cycle and begins an arbitration, or enters SAFE where a disputed task has no coded variant (R233 steps 1 and 6). -/
def State.startArbitration (s : State) (c : Cycle) (t : W32) : State :=
  let s := s.setCycle { c.settle t false with withheld := true, disputed := t :: c.disputed }
  let coded := ((s.findTask t).map fun x => x.coded || x.bitLogic).getD false
  if coded then s.record 0x0605 c.part s.partner (BitVec.ofNat 32 c.part) (BitVec.ofNat 32 c.cls) t 0
  else s.disagreementSafe c t false

/-- A task with both entries, or one and the other's lateness, is resolved (R227, R228, R231, R492). -/
def State.resolveTask (s : State) (p k : Nat) (bnd : W64) (t : W32) : State :=
  let c := s.cycle p k bnd
  match c.ownOf t with
  | none => s
  | some e =>
    if c.isSettled t then s
    else if !s.comparing p k bnd then
      s.setCycle (c.settle t e.valid)
    else
      let late := decide (t ∈ c.latePartner)
      match c.partnerOf t, late with
      | none, false => s
      | q, _ =>
        let q : Option SigEntry := if late then none else q
        let lateOwn := decide (t ∈ c.lateOwn)
        let parOk := (q.map (·.valid)).getD false
        let agree := !lateOwn && !late && e.valid && parOk && decide (q.map SigEntry.sig = some e.sig)
        let sameData := e.dataVerdict && !lateOwn && decide ((q.map fun x => (x.status, x.code)) = some (e.status, e.code))
        if agree then s.setCycle (c.settle t true)
        else if sameData then s.setCycle (c.settle t false)
        else if s.mod.st = MState.unsynced then (s.setCycle (c.settle t false)).syncRestart
        else
          let s := { s with mod := { s.mod with disagree := s.mod.disagree + 1 } }
          let ownMod := s.modFault
          let parMod := s.partnerFault
          let s := if ownMod && !parMod then s.giveWay else s
          let ownTask := e.evidence || lateOwn || (ownMod && !parMod)
          let parTask := (q.map (·.evidence)).getD false || late || (parMod && !ownMod)
          let bothMod := ownMod && parMod && (ownTask == parTask)
          match resolveRow e.valid parOk (ownTask || bothMod) (parTask || bothMod) (decide ((s.profileOf p k) = .winter)) c.arbitration with
          | .commit => s.setCycle (c.settle t true)
          | .adopt =>
            let s := { s with pair := { s.pair with
              adopt := { part := p, cls := k, task := t, bnd := bnd, sig := (q.map SigEntry.sig).getD 0 } :: s.pair.adopt } }
            (s.toPartner (.bundleReq t (lo32 bnd))).after (.adoption t.toNat) (2 * usec)
          | .drop _ =>
            let s := s.setCycle (c.settle t false)
            let hw := e.status = 1 ∧ isHwVerdict e.code.toNat
            let phw := (q.map fun x => decide (x.status = 1) && isHwVerdict x.code.toNat).getD false
            let flt := e.status = 3 ∧ (q.map fun x => decide (x.status = 3)).getD false
            if flt then s.faultPolicy t k bnd (if e.code = 0x05 then 0x0901 else 0x0207)
            else
              let s := s.countOverrun t k bnd 0x0202
              if hw ∧ phw then s.mismatchPolicy t else s
          | .dropOther =>
            let s := s.setCycle (c.settle t false)
            let s := s.countOverrun t k bnd 0x0301
            if e.dataVerdict || (q.map (·.dataVerdict)).getD false then s.mismatchPolicy t else s
          | .safe after => (s.setCycle (c.settle t false)).disagreementSafe c t after
          | .arbitrate => s.startArbitration c t

/-- A SIG frame to the partner (R219, R221). -/
def State.sendSig (s : State) (bs : List Byte) : State := if s.portUp .pl then s.transmit .pl (s.mkFrame 6 0 s.partner 0 s.now32 bs) none else s

/-- The module's own SIG entry for a task is ready: it is kept and sent, its own lateness noted (R221, R228), and the task resolved. -/
def State.sigReady (s : State) (task : W32) (k : Nat) (bnd : W64) (status code : Nat) (sig : W64) : State :=
  let p := taskPart task
  let c := s.cycle p k bnd
  if (c.ownOf task).isSome then s
  else
    let e : SigEntry := { task := task, status := BitVec.ofNat 8 status, code := BitVec.ofNat 8 code, sig := sig, at_ := s.clk }
    let lateOwn := match c.partnerOf task with
      | some q => if q.at_ + 20 * usec < s.clk then task :: c.lateOwn else c.lateOwn
      | none => c.lateOwn
    let c := { c with own := c.own ++ [e], lateOwn := lateOwn }
    let last := (s.partTasks p k).all fun t => (c.ownOf t.task).isSome
    let s := s.setCycle c
    let s := if s.hotIn p k bnd && decide (s.mod.st ≠ .off) && !s.unpaired then s.sendSig (sigPayload c last s.pair.term e) else s
    s.resolveTask p k bnd task

/-- No executing partner is compared with, so a policy applies at once (R83, R100, R303). -/
def State.alone (s : State) (task : W32) (k : Nat) (bnd : W64) : Bool := !s.comparing (taskPart task) k bnd

end Sys2Proof.Machine
end

