-- ==== Sys2Proof/Machine/Float.lean ====
section
/-! DEFINITION. The lane's floating-point unit by exact arithmetic and one rounding (R67, R104, R106). Where the spec leaves a point of rounding to the formats it names (IEEE 754 binary64 and binary32), IEEE 754 is followed (log 19). -/
namespace Sys2Proof.Machine.Fp

/-- A format: precision with the hidden bit, exponent field width, bias. -/
structure Fmt where
  prec : Nat
  ebits : Nat
  bias : Nat
deriving DecidableEq, Repr

def b64 : Fmt := { prec := 53, ebits := 11, bias := 1023 }
def b32 : Fmt := { prec := 24, ebits := 8, bias := 127 }

/-- Bits of the fraction field. -/
def Fmt.fb (f : Fmt) : Nat := f.prec - 1

/-- A value read from a pattern: magnitudes are m × 2^e. -/
inductive Val where
  | nan (signalling : Bool)
  | inf (neg : Bool)
  | num (neg : Bool) (m : Nat) (e : Int)
deriving DecidableEq, Repr

/-- The sticky flags of L_FPSTAT (R97). -/
structure Flags where
  nv : Bool
  dz : Bool
  of : Bool
  uf : Bool
  nx : Bool
deriving DecidableEq, Repr

def noFlags : Flags := { nv := false, dz := false, of := false, uf := false, nx := false }
def invalid : Flags := { noFlags with nv := true }

/-- L_FPSTAT bits of the flags (R97). -/
def Flags.bits (f : Flags) : BitVec 5 :=
  BitVec.ofBool f.nv ++ BitVec.ofBool f.dz ++ BitVec.ofBool f.of ++ BitVec.ofBool f.uf ++ BitVec.ofBool f.nx

/-- Rounding directions of L_FPCTL.RM (R97). -/
inductive Rm where | near | zero | up | down
deriving DecidableEq, Repr

/-- How the unit runs: format threshold raised by 5 and directed modes exchanged in a coded pass without PLAIN (R67). -/
structure Env where
  rm : Rm
  coded : Bool
deriving DecidableEq, Repr

/-- The environment of an L_FPCTL value in a pass (R67, R97). -/
def env (ctl : BitVec 3) (codedPass : Bool) : Env :=
  let c := codedPass && !ctl.getLsbD 2
  let rm := match (ctl.extractLsb' 0 2).toNat with
    | 0 => Rm.near
    | 1 => Rm.zero
    | 2 => if c then Rm.down else Rm.up
    | _ => if c then Rm.up else Rm.down
  { rm := rm, coded := c }

/-- The smallest magnitude that is not flushed is 2^k (R67). -/
def Fmt.minExp (f : Fmt) (e : Env) : Int := 1 - (f.bias : Int) + (if e.coded then 5 else 0)

/-- The exponent of a nonzero magnitude m × 2^e: it lies in [2^k, 2^(k+1)). -/
def topExp (m : Nat) (e : Int) : Int := (Nat.log2 m : Int) + e

/-- Reads a pattern; an operand below the threshold is read as zero of the same sign (R67). -/
def unpack (f : Fmt) (v : Env) (x : Nat) : Val :=
  let neg := x / 2 ^ (f.fb + f.ebits) % 2 = 1
  let ex := x / 2 ^ f.fb % 2 ^ f.ebits
  let fr := x % 2 ^ f.fb
  if ex = 2 ^ f.ebits - 1 then
    if fr = 0 then .inf neg else .nan (decide (fr / 2 ^ (f.fb - 1) = 0))
  else
    let m := if ex = 0 then fr else fr + 2 ^ f.fb
    let e : Int := (max ex 1 : Nat) - (f.bias : Int) - (f.fb : Int)
    if m = 0 then .num neg 0 0
    else if topExp m e < f.minExp v then .num neg 0 0
    else .num neg m e

/-- The canonical NaN (R106). -/
def Fmt.cnan (f : Fmt) : Nat := (2 ^ f.ebits - 1) * 2 ^ f.fb + 2 ^ (f.fb - 1)
def Fmt.inf (f : Fmt) : Nat := (2 ^ f.ebits - 1) * 2 ^ f.fb
/-- The largest finite magnitude's pattern. -/
def Fmt.maxFin (f : Fmt) : Nat := f.inf - 1
def Fmt.signBit (f : Fmt) (neg : Bool) : Nat := if neg then 2 ^ (f.fb + f.ebits) else 0

/-- Whether the discarded part moves the magnitude up: `rem` of `den` is what is cut off, `sticky` says that a little more is. -/
def roundUp (rm : Rm) (neg : Bool) (odd : Bool) (rem den : Nat) (sticky : Bool) : Bool :=
  match rm with
  | .near => decide (den < 2 * rem) || (decide (2 * rem = den) && (sticky || odd))
  | .zero => false
  | .up => !neg && (decide (rem ≠ 0) || sticky)
  | .down => neg && (decide (rem ≠ 0) || sticky)

/-- Rounds m × 2^e (and a little more where `sticky`) to the precision, judged with the exponent range unbounded; then overflow and the flush of R67. -/
def finish (f : Fmt) (v : Env) (neg : Bool) (m : Nat) (e : Int) (sticky : Bool) : Nat × Flags :=
  if m = 0 then (f.signBit neg, noFlags)
  else
    let len := Nat.log2 m + 1
    let d := len - f.prec
    let q := m / 2 ^ d
    let rem := m % 2 ^ d
    let inexact := decide (rem ≠ 0) || sticky
    let up := if d = 0 then roundUp v.rm neg (decide (q % 2 = 1)) 0 1 sticky
      else roundUp v.rm neg (decide (q % 2 = 1)) rem (2 ^ d) sticky
    let q := if up then q + 1 else q
    let e := e + (d : Int)
    let k := topExp q e
    if k < f.minExp v then (f.signBit neg, { noFlags with uf := true, nx := true })
    else if (f.bias : Int) < k then
      let away := match v.rm with
        | .near => true
        | .zero => false
        | .up => !neg
        | .down => neg
      (f.signBit neg + (if away then f.inf else f.maxFin), { noFlags with of := true, nx := true })
    else
      let lenq := Nat.log2 q + 1
      let sig := if lenq ≤ f.prec then q * 2 ^ (f.prec - lenq) else q / 2 ^ (lenq - f.prec)
      (f.signBit neg + (k + (f.bias : Int)).toNat * 2 ^ f.fb + (sig - 2 ^ f.fb), { noFlags with nx := inexact })

/-- The canonical NaN for NaN operands; NV only if one is signalling (R106). -/
def nanOut (f : Fmt) (sig : Bool) : Nat × Flags := (f.cnan, { noFlags with nv := sig })

/-- An invalid operation (R106). -/
def invalidOut (f : Fmt) : Nat × Flags := (f.cnan, invalid)

/-- Whether either operand is a NaN, and whether one of them signals. -/
def nanOf : Val → Option Bool
  | .nan s => some s
  | _ => none

def anyNan (a b : Val) : Option Bool :=
  match nanOf a, nanOf b with
  | some s, some t => some (s || t)
  | some s, none => some s
  | none, some t => some t
  | none, none => none

/-- Sum of two finite values as a signed integer at their common exponent. -/
def addNum (f : Fmt) (v : Env) (sa : Bool) (ma : Nat) (ea : Int) (sb : Bool) (mb : Nat) (eb : Int) : Nat × Flags :=
  let e := if ma = 0 then eb else if mb = 0 then ea else min ea eb
  let xa : Int := (ma * 2 ^ (ea - e).toNat : Nat)
  let xb : Int := (mb * 2 ^ (eb - e).toNat : Nat)
  let t := (if sa then -xa else xa) + (if sb then -xb else xb)
  if t = 0 then
    if sa = sb then (f.signBit sa, noFlags) else (f.signBit (decide (v.rm = .down)), noFlags)
  else finish f v (decide (t < 0)) t.natAbs e false

def neg? : Val → Val
  | .nan s => .nan s
  | .inf s => .inf (!s)
  | .num s m e => .num (!s) m e

def addV (f : Fmt) (v : Env) (a b : Val) : Nat × Flags :=
  match anyNan a b with
  | some s => nanOut f s
  | none =>
    match a, b with
    | .inf s, .inf t => if s = t then (f.signBit s + f.inf, noFlags) else invalidOut f
    | .inf s, _ => (f.signBit s + f.inf, noFlags)
    | _, .inf t => (f.signBit t + f.inf, noFlags)
    | .num sa ma ea, .num sb mb eb => addNum f v sa ma ea sb mb eb
    | _, _ => invalidOut f

def fadd (f : Fmt) (v : Env) (a b : Nat) : Nat × Flags := addV f v (unpack f v a) (unpack f v b)

/-- a − b: the sum with the sign of b turned (R104). -/
def fsub (f : Fmt) (v : Env) (a b : Nat) : Nat × Flags := addV f v (unpack f v a) (neg? (unpack f v b))

def fmul (f : Fmt) (v : Env) (a b : Nat) : Nat × Flags :=
  let x := unpack f v a
  let y := unpack f v b
  match anyNan x y with
  | some s => nanOut f s
  | none =>
    match x, y with
    | .inf s, .inf t => (f.signBit (s != t) + f.inf, noFlags)
    | .inf s, .num t m _ => if m = 0 then invalidOut f else (f.signBit (s != t) + f.inf, noFlags)
    | .num s m _, .inf t => if m = 0 then invalidOut f else (f.signBit (s != t) + f.inf, noFlags)
    | .num s m e, .num t n g => finish f v (s != t) (m * n) (e + g) false
    | _, _ => invalidOut f

/-- Quotient bits that leave at least two below the precision. -/
def fdiv (f : Fmt) (v : Env) (a b : Nat) : Nat × Flags :=
  let x := unpack f v a
  let y := unpack f v b
  match anyNan x y with
  | some s => nanOut f s
  | none =>
    match x, y with
    | .inf _, .inf _ => invalidOut f
    | .inf s, .num t _ _ => (f.signBit (s != t) + f.inf, noFlags)
    | .num s _ _, .inf t => (f.signBit (s != t), noFlags)
    | .num s m e, .num t n g =>
      if n = 0 then
        if m = 0 then invalidOut f else (f.signBit (s != t) + f.inf, { noFlags with dz := true })
      else
        let k := f.prec + 3 + Nat.log2 n
        let q := m * 2 ^ k / n
        finish f v (s != t) q (e - g - (k : Int)) (decide (m * 2 ^ k % n ≠ 0))
    | _, _ => invalidOut f

/-- Integer square root by binary digits: the largest r with r × r ≤ x, for x below 4^n. -/
def isqrt : Nat → Nat → Nat → Nat
  | 0, r, _ => r
  | n + 1, r, x =>
    let c := r + 2 ^ n
    isqrt n (if c * c ≤ x then c else r) x

def fsqrt (f : Fmt) (v : Env) (a : Nat) : Nat × Flags :=
  match unpack f v a with
  | .nan s => nanOut f s
  | .inf true => invalidOut f
  | .inf false => (f.inf, noFlags)
  | .num s m e =>
    if m = 0 then (f.signBit s, noFlags)
    else if s then invalidOut f
    else
      let m := if e % 2 = 0 then m else m * 2
      let e := if e % 2 = 0 then e else e - 1
      let k := f.prec + 2
      let x := m * 4 ^ k
      let r := isqrt (f.prec + k + 2) 0 x
      finish f v false r (e / 2 - (k : Int)) (decide (r * r ≠ x))

/-- The order of two values that are no NaN. -/
def cmp (a b : Val) : Ordering :=
  let num (s : Bool) (m : Nat) (e lo : Int) : Int :=
    let x : Int := (m * 2 ^ (e - lo).toNat : Nat)
    if s then -x else x
  match a, b with
  | .inf s, .inf t => if s = t then .eq else if s then .lt else .gt
  | .inf s, _ => if s then .lt else .gt
  | _, .inf t => if t then .gt else .lt
  | .num s m e, .num t n g =>
    let lo := min e g
    compare (num s m e lo) (num t n g lo)
  | _, _ => .eq

/-- FCEQ, FCLT and FCLE: a comparison with a NaN gives 0 and sets NV (R106). -/
def fcmp (f : Fmt) (v : Env) (ok : Ordering → Bool) (a b : Nat) : Nat × Flags :=
  let x := unpack f v a
  let y := unpack f v b
  match anyNan x y with
  | some _ => (0, invalid)
  | none => (if ok (cmp x y) then 1 else 0, noFlags)

def isEq : Ordering → Bool | .eq => true | _ => false
def isLt : Ordering → Bool | .lt => true | _ => false
def isLe : Ordering → Bool | .gt => false | _ => true

/-- Signed integer to float under RM (R104). -/
def itof (f : Fmt) (v : Env) (x : Int) : Nat × Flags := finish f v (decide (x < 0)) x.natAbs 0 false

/-- Float to signed 64-bit integer under RM: 0 for a NaN, saturation out of range, NV in both (R106). -/
def ftoi (f : Fmt) (v : Env) (a : Nat) : Int × Flags :=
  match unpack f v a with
  | .nan _ => (0, invalid)
  | .inf s => (if s then -(2 ^ 63 : Int) else 2 ^ 63 - 1, invalid)
  | .num s m e =>
    let (q, rem, den) : Nat × Nat × Nat :=
      if 0 ≤ e then (m * 2 ^ e.toNat, 0, 1) else (m / 2 ^ (-e).toNat, m % 2 ^ (-e).toNat, 2 ^ (-e).toNat)
    let q := if roundUp v.rm s (decide (q % 2 = 1)) rem den false then q + 1 else q
    let n : Int := if s then -(q : Int) else q
    if n < -(2 ^ 63 : Int) then (-(2 ^ 63 : Int), invalid)
    else if (2 ^ 63 : Int) - 1 < n then (2 ^ 63 - 1, invalid)
    else (n, { noFlags with nx := decide (rem ≠ 0) })

/-- Conversion between the precisions (R104, R106). -/
def convert (src dst : Fmt) (v : Env) (a : Nat) : Nat × Flags :=
  match unpack src v a with
  | .nan s => nanOut dst s
  | .inf s => (dst.signBit s + dst.inf, noFlags)
  | .num s m e => finish dst v s m e false

end Sys2Proof.Machine.Fp
end

