-- ==== Sys2Proof/Machine/Flags.lean ====
section
/-! DEFINITION. Status words and flags: the lane control registers as they read and as a write changes them (R97, R98, R131, R132), sticky floating-point flags, and error-correction counts (R96, R250). -/
namespace Sys2Proof.Machine

/-- L_STAT (R97). -/
def Lane.stat (x : Lane) : W32 :=
  BitVec.ofNat 32 (x.eclass.toNat * 2 ^ 10 + bit x.wait * 2 ^ 9 + bit x.gated * 2 ^ 8 + bit x.kind * 2 ^ 5
    + bit x.pass * 2 ^ 4 + bit x.mode * 2 ^ 3 + bit x.fltValid * 2 ^ 2 + bit x.run * 2 + bit x.en)

/-- L_FAULT (R97). -/
def Lane.fault (x : Lane) : W32 :=
  BitVec.ofNat 32 (bit x.fltValid * 2 ^ 31 + bit x.fltPass * 2 ^ 30 + bit x.fltMode * 2 ^ 29 + x.fltCause.toNat)

/-- Words of the current pass's bundle (R97 L_BUNDLE). -/
def Lane.bundleWords (x : Lane) : Nat := if x.pass then x.bun.k.length else x.bun.p.length

/-- The levels of REPL and CDONE (R131 L_EVSRC). -/
def Lane.evsrc (x : Lane) : Nat := bit x.lvlRepl * 2 ^ 8 + bit x.lvlCdone * 2 ^ 11

/-- A return register: MODE, PASS, KIND and PC; PC bits [1:0] read 0 (R131). -/
def evret (mode pass kind : Bool) (pc : W64) : W32 :=
  BitVec.ofNat 32 (bit mode * 2 ^ 31 + bit pass * 2 ^ 30 + bit kind * 2 ^ 29 + pc.toNat % 2 ^ 17 / 4 * 4)

/-- Control register value at an offset from 0x4_0000; L_CLK_HI and the clearing read of L_ECC are treated where they are read (R97, R98, R131). -/
def Lane.ctl (x : Lane) (n off : Nat) : W32 :=
  match off with
  | 0x000 => BitVec.ofNat 32 n
  | 0x004 => x.stat
  | 0x008 => BitVec.ofNat 32 (bit x.bgtest * 4 + bit x.retire * 2 + bit x.en)
  | 0x00C => BitVec.ofNat 32 (bit x.runKind * 2 + bit x.runPass)
  | 0x010 => x.task
  | 0x014 => x.xwin
  | 0x018 => x.dwin
  | 0x01C => x.fpctl.setWidth 32
  | 0x020 => x.fpstat.setWidth 32
  | 0x024 => x.fault
  | 0x028 => x.fltPc
  | 0x02C => x.fltAddr
  | 0x030 => BitVec.ofNat 32 x.bundleWords
  | 0x034 => x.imCorr ++ x.dmCorr
  | 0x038 => lo32 x.clk
  | 0x03C => hi32 x.clk
  | 0x100 => x.evpend.setWidth 32
  | 0x104 => x.evmask.setWidth 32
  | 0x108 => x.evclass.setWidth 32
  | 0x10C => BitVec.ofNat 32 x.evsrc
  | 0x110 => BitVec.ofNat 32 (bit x.tarm * 2 + bit x.gate)
  | 0x114 => x.timer
  | 0x118 => x.evretN
  | 0x11C => x.evretF
  | 0x120 => x.evvecN.setWidth 32
  | 0x124 => x.evvecF.setWidth 32
  | 0x128 => x.dspent.setWidth 32
  | 0x12C => x.replwait
  | _ => 0

/-- A read with its side effects: L_CLK_LO latches the high half for its requester, L_CLK_HI returns and releases it, L_ECC clears (R97, R98). `lane` is true for the lane's own read. -/
def Lane.ctlRead (x : Lane) (n off : Nat) (lane : Bool) : W32 × Lane :=
  if off = 0x034 then (x.ctl n off, { x with imCorr := 0, dmCorr := 0 })
  else if off = 0x038 then
    (x.ctl n off, if lane then { x with shLane := some (hi32 x.clk) } else { x with shSvc := some (hi32 x.clk) })
  else if off = 0x03C then
    if lane then ((x.shLane).getD (hi32 x.clk), { x with shLane := none })
    else ((x.shSvc).getD (hi32 x.clk), { x with shSvc := none })
  else (x.ctl n off, x)

/-- Keeps LIMIT and BASE of a window register (R97). -/
def winMask : W32 := 0x01FF01FF

/-- L_FPSTAT is write-1-to-clear (R97). -/
def Lane.clearFp (x : Lane) (v : W32) : Lane := { x with fpstat := x.fpstat &&& ~~~(v.setWidth 5) }

/-- A write to a control register of the running lane or the service cores (R97, R131, R132: every field is replaced). L_CTL is written only from the service cores, in its own place. -/
def Lane.ctlWrite (x : Lane) (off : Nat) (v : W32) : Lane :=
  match off with
  | 0x00C => { x with runKind := v.getLsbD 1, runPass := v.getLsbD 0 }
  | 0x010 => { x with task := v }
  | 0x014 => { x with xwin := v &&& winMask }
  | 0x018 => { x with dwin := v &&& winMask }
  | 0x01C => { x with fpctl := v.setWidth 3 }
  | 0x020 => x.clearFp v
  | 0x024 => if v.getLsbD 31 then { x with fltValid := false } else x
  | 0x100 => { x with evpend := v.setWidth 13 }
  | 0x104 => { x with evmask := v.setWidth 13 }
  | 0x108 => { x with evclass := v.setWidth 13 }
  | 0x110 => { x with tarm := v.getLsbD 1, gate := v.getLsbD 0 }
  | 0x114 => { x with timer := v }
  | 0x118 => { x with evretN := v &&& 0xE001FFFC }
  | 0x11C => { x with evretF := v &&& 0xE001FFFC }
  | 0x120 => { x with evvecN := v.setWidth 17 }
  | 0x124 => { x with evvecF := v.setWidth 17 }
  | 0x128 => { x with dspent := v.setWidth 17 }
  | 0x12C => { x with replwait := v }
  | 0x130 => { x with evpend := x.evpend ||| 0x1000#13 }
  | _ => x

/-- Registers a lane reads in USR mode, and in SUP mode (R97, R131). -/
def usrReads : List Nat := [0x000, 0x004, 0x010, 0x01C, 0x020, 0x030, 0x038, 0x03C]
def supReads : List Nat :=
  usrReads ++ [0x008, 0x00C, 0x014, 0x018, 0x024, 0x028, 0x02C, 0x034, 0x100, 0x104, 0x108, 0x10C, 0x110, 0x114, 0x118, 0x11C,
    0x120, 0x124, 0x128, 0x12C]
/-- Registers a lane writes in USR mode, and in SUP mode (R97, R131). -/
def usrWrites : List Nat := [0x01C, 0x020]
def supWrites : List Nat :=
  [0x00C, 0x010, 0x014, 0x018, 0x01C, 0x020, 0x024, 0x100, 0x104, 0x108, 0x110, 0x114, 0x118, 0x11C, 0x120, 0x124, 0x128,
    0x12C, 0x130]

/-- Sets sticky floating-point flags (R97). -/
def Lane.setFp (x : Lane) (f : Fp.Flags) : Lane := { x with fpstat := x.fpstat ||| f.bits }

/-- Adds 1 to an L_ECC half, saturating at 0xFFFF (R97). -/
def sat16 (c : W16) : W16 := if c = 0xFFFF then c else c + 1

/-- The protected word of an address, and the error it holds (R96, R250). -/
def eccWord (a : Nat) : Nat := a / 8
def State.eccOf (s : State) (a : Nat) : Option MemErr := tfind s.memErr (eccWord a)
def State.clearEcc (s : State) (a : Nat) : State := { s with memErr := terase s.memErr (eccWord a) }

/-- A corrected error counts in the Health Report and in the Counter Unit (R251, R436). -/
def State.countCe (s : State) : State := { s with mod := { s.mod with ce := s.mod.ce + 1 } }.count (ctrEv 0x14 1 0)

end Sys2Proof.Machine
end

