-- ==== Sys2Proof/Machine/GuardOps.lean ====
section
/-! DEFINITION. The Access Guard's check of one access and what a refusal leaves (R287 to R293, R298, R300 to R304). -/
namespace Sys2Proof.Machine

/-- Masters as G_FLT_INFO.MASTER codes them (R305). -/
inductive Master where | lane | service | ring | host
deriving DecidableEq, Repr

def Master.code : Master → Nat
  | .lane => 0 | .service => 1 | .ring => 2 | .host => 3

/-- Kinds as G_FLT_INFO.KIND codes them (R305). -/
def kindCode : AccessKind → Nat
  | .r => 0 | .w => 1 | .x => 2 | .p => 3

/-- A partition access: `source` is the lane, core, port or mailbox of G_FLT_INFO.SOURCE. -/
structure Access where
  part : Nat
  master : Master
  kind : AccessKind
  source : Nat
  addr : Nat
  len : Nat
deriving DecidableEq, Repr

end Sys2Proof.Machine

namespace Sys2Proof

def Rule.valid (r : Rule) : Bool := r.attr.getLsbD 31
def Rule.gro (r : Rule) : Bool := r.attr.getLsbD 30
def Rule.part (r : Rule) : Nat := Machine.bitsAt r.attr.toNat 17 9
def Rule.first (r : Rule) : Nat := Machine.bitsAt r.base.toNat 0 28
def Rule.last (r : Rule) : Nat := Machine.bitsAt r.limit.toNat 0 28
/-- The permission bit of a kind: R [11], W [10], X [9], P [8] (R290). -/
def Rule.permits (r : Rule) (k : AccessKind) : Bool := r.attr.getLsbD (11 - Machine.kindCode k)
/-- The MASTER bit of a master: lanes [3], service cores [2], ring engine [1], host data moves [0] (R290). -/
def Rule.serves (r : Rule) (m : Machine.Master) : Bool := r.attr.getLsbD (3 - m.code)

/-- A rule allows an access to one page (R291). -/
def Rule.allows (r : Rule) (part : Nat) (m : Machine.Master) (k : AccessKind) (page : Nat) : Bool :=
  r.valid && decide (r.first ≤ page) && decide (page ≤ r.last) && (r.gro || decide (r.part = part)) && r.serves m && r.permits k

/-- Defects of R292. -/
def Rule.bad (r : Rule) : Bool :=
  r.valid && (decide (r.last < r.first) || decide (Machine.bitsAt r.attr.toNat 0 4 = 0)
    || (r.gro && (r.attr.getLsbD 10 || r.attr.getLsbD 8 || decide (r.part ≠ 0))) || decide (0x7FFFFFF < r.first) || decide (0x7FFFFFF < r.last))
/-- Two valid rules share a page (R293). -/
def Rule.overlaps (a b : Rule) : Bool := a.valid && b.valid && decide (a.first ≤ b.last) && decide (b.first ≤ a.last)
/-- A rule with its reserved bits read as 0 (R290). -/
def Rule.clean (r : Rule) : Rule :=
  { attr := r.attr &&& 0xC3FE0F0F, base := r.base &&& 0x0FFFFFFF, limit := r.limit &&& 0x0FFFFFFF, origin := r.origin &&& 0x8000FFFF }

/-- A rule matches an access when it covers its page for its partition and master, whatever it permits. -/
def Rule.matches (r : Rule) (part : Nat) (m : Machine.Master) (page : Nat) : Bool :=
  r.valid && decide (r.first ≤ page) && decide (page ≤ r.last) && (r.gro || decide (r.part = part)) && r.serves m

end Sys2Proof

namespace Sys2Proof.Machine

/-- The first overlapping pair of a table in index order (R293). -/
def firstOverlap (t : Table Rule) : Option (Nat × Nat) :=
  t.findSome? fun (i, a) => (t.find? fun (j, b) => decide (i < j) && a.overlaps b).map fun x => (i, x.1)

/-- A table numbered from 0. -/
def ruleTable (rs : List Rule) : Table Rule := (List.range rs.length).filterMap fun i => (rs[i]?).map fun r => (i, Rule.clean r)

/-- A table passes the checks of R292 and R293. -/
def tableOk (t : Table Rule) : Bool := t.all (fun x => !x.2.bad) && (firstOverlap t).isNone

/-- One page: a rule allows it, or partition 0 reads where no rule matches (R289, R291). -/
def Guard.pageOk (g : Guard) (a : Access) (page : Nat) : Bool :=
  g.active.any (fun r => r.2.allows a.part a.master a.kind page)
    || (decide (a.part = 0) && decide (a.kind ≠ .w) && !(g.active.any fun r => r.2.matches a.part a.master page))

/-- The 4 KiB pages of an access. -/
def Access.pages (a : Access) : List Nat :=
  let p := a.addr / 4096
  (List.range ((a.addr + max a.len 1 - 1) / 4096 - p + 1)).map (p + ·)

/-- An access that spans pages is refused as a whole if any page is refused (R291). -/
def Guard.allows (g : Guard) (a : Access) : Bool := a.pages.all (g.pageOk a)

/-- Counts and captures a refused access (R304). -/
def Guard.refuse (g : Guard) (a : Access) : Guard :=
  let g := { g with nmiss := if g.nmiss = BitVec.allOnes 32 then g.nmiss else g.nmiss + 1 }
  if g.fltValid then g
  else { g with fltValid := true, fltMaster := BitVec.ofNat 2 a.master.code, fltKind := BitVec.ofNat 2 (kindCode a.kind),
                fltPart := BitVec.ofNat 9 a.part, fltSource := BitVec.ofNat 8 a.source, fltAddr := BitVec.ofNat 40 a.addr }

/-- The counter event of a check or refusal (R436, R437: MASTER and CLASS masks as R290 orders their bits). -/
def Access.ev (a : Access) (code : Nat) : CtrEv :=
  { ctrEv code 1 0 with part := a.part, master := 3 - a.master.code, kind := 3 - kindCode a.kind, page := a.addr / 4096 }

/-- DRAM staging area of a partition, 16 MiB, and its ring assembly buffers, 32 KiB in the room of partition 0 (R294, R339; log 13). -/
def stagingAddr (p : Nat) : Nat := 2 ^ 24 * p
def assemblyAddr (p : Nat) : Nat := 2 ^ 15 * p

/-- Checks a partition access: the answer, and the state after counting and capturing. -/
def State.guardCheck (s : State) (a : Access) : Bool × State :=
  let s := s.count (a.ev 0x10)
  if s.guard.allows a then (true, s)
  else (false, { s with guard := s.guard.refuse a }.count (a.ev 0x11))

/-- A GUARD_DENY record for a refused access of a service core, a host data move or the ring engine (R302, R420). -/
def State.recordDeny (s : State) (a : Access) : State :=
  s.record 0x0902 a.part (a.master.code * 256 + a.source % 256) (BitVec.ofNat 32 (kindCode a.kind))
    (BitVec.ofNat 32 a.addr) (BitVec.ofNat 32 (a.addr / 2 ^ 32)) 0

/-- A GUARD_DENY record at most once per set and second (R302). -/
def State.recordDenyOnce (s : State) (a : Access) (set : Nat) : State :=
  if s.oncePer 1 set sec then (s.recordDeny a).markOnce 1 set else s

end Sys2Proof.Machine
end

