-- ==== Sys2Proof/Machine/LaneOps.lean ====
section
/-! DEFINITION. Shared operations of the lane instructions: issue, lane faults (R99 to R101), the end of a pass and the hand-over (R76, R129), DM and control register accesses (R94 to R97), image loads and stores (R107, R108, R300). -/
namespace Sys2Proof.Machine

/-! ### Events (R124 to R126) -/

/-- The lowest set bit of a 13-bit mask. -/
def lowBit (m : BitVec 13) : Option Nat := (List.range 13).find? fun i => m.getLsbD i

/-- The event the lane takes next, if R126 allows one: a fast one first, then the lowest bit. -/
def Lane.takeable (x : Lane) : Option Nat :=
  let q := x.evpend &&& x.evmask
  let fast := if x.eclass ≠ 2 then lowBit (q &&& x.evclass) else none
  match fast with
  | some i => some i
  | none => if x.eclass = 0 then lowBit (q &&& ~~~x.evclass) else none

/-- Sets a pending bit (R125). -/
def Lane.setPend (x : Lane) (i : Nat) : Lane := { x with evpend := x.evpend ||| BitVec.twoPow 13 i }

/-- The level sources after a change; a rise sets the pending bit (R125). -/
def Lane.setLevels (x : Lane) (repl cdone : Bool) : Lane :=
  let y := if repl && !x.lvlRepl then x.setPend 8 else x
  let y := if cdone && !x.lvlCdone then y.setPend 11 else y
  { y with lvlRepl := repl, lvlCdone := cdone }

/-- The current class cycle is that of the fast class: in a fast handler, and after it until a normal cycle is entered or resumed (R124; log 15). -/
def Lane.inFast (x : Lane) : Bool := decide (x.eclass = 2) || (decide (x.eclass = 0) && x.curFast)

/-- The boundary of the current class cycle. -/
def Lane.curBnd (x : Lane) : W64 := if x.inFast then x.bndF else x.bndN

/-- The level of REPL: the bundle of the task in L_REPLWAIT is in NEXT for the current cycle; 0 keeps it low (R124, R131). -/
def State.replLevel (s : State) (x : Lane) : Bool := decide (x.replwait ≠ 0) && s.inNext.any fun p => decide (p = (x.replwait, x.curBnd))

/-- The level of CDONE: every bundle handed over in the current class cycle is in NEXT (R124). -/
def Lane.cdoneLevel (x : Lane) : Bool :=
  if x.inFast then decide (x.handedF ≠ 0) && decide (x.outF = 0) else decide (x.handedN ≠ 0) && decide (x.outN = 0)

/-- One more bundle handed over in the current class cycle. -/
def Lane.handed (x : Lane) : Lane :=
  if x.eclass = 2 then { x with handedF := x.handedF + 1, outF := x.outF + 1 }
  else { x with handedN := x.handedN + 1, outN := x.outN + 1 }

/-- A bundle of a class cycle has reached NEXT. -/
def Lane.delivered (x : Lane) (k : Nat) (bnd : W64) : Lane :=
  if x.clsF = some k ∧ x.bndF = bnd then { x with outF := x.outF - 1 }
  else if x.clsN = some k ∧ x.bndN = bnd then { x with outN := x.outN - 1 }
  else x

/-- A class cycle has ended: of its bundles none is counted any more (R124). -/
def Lane.cycleOver (x : Lane) (k : Nat) : Lane :=
  let x := if x.clsF = some k then { x with handedF := 0, outF := 0 } else x
  if x.clsN = some k then { x with handedN := 0, outN := 0 } else x

/-- Brings a lane's level sources up to date. -/
def State.relevel (s : State) (l : Nat) : State :=
  let x := s.lane l
  s.setLane l (x.setLevels (s.replLevel x) x.cdoneLevel)

/-! ### Wakes (R130, R452) -/

/-- A wake request: ignored for a lane with RETIRE or EN = 0 or one that is not gated; merged with a waiting request, as a cycle start if either is one (R452). -/
def State.requestWake (s : State) (l : Nat) (w : Wake) : State :=
  let x := s.lane l
  if x.retire || !x.en || !x.gated then s
  else
    let old := s.pwr.wakeQ.filter fun p => decide (p.1 = l)
    let w := if old.any fun p => decide (p.2 = .cycle) then Wake.cycle else w
    let q := (s.pwr.wakeQ.filter fun p => decide (p.1 ≠ l)) ++ [(l, w)]
    { s with pwr := { s.pwr with wakeQ := q } }

/-- A gated lane asks for its wake as soon as an event may be taken (R130). -/
def State.wakeIfDue (s : State) (l : Nat) : State :=
  match (s.lane l).takeable with
  | some i => s.requestWake l (if i < 8 then .cycle else .other)
  | none => s

/-- Sets a pending bit of a lane from outside its instruction stream (R125, R130). -/
def State.raiseEvent (s : State) (l i : Nat) : State := (s.setLane l ((s.lane l).setPend i)).wakeIfDue l

/-! ### End of a pass -/

/-- A lane event of the Counter Unit (R436 to R438). -/
def State.countLane (s : State) (l : Nat) (code : Nat) : State :=
  let x := s.lane l
  s.count { ctrEv code 1 l with priv := x.mode, part := taskPart x.task }

/-- An entry address as PC takes it: PC is always a multiple of 4, so bits [1:0] of a vector or of L_DSPENT count as 0 (R91; log 74). -/
def entryPc (a : BitVec 17) : W64 := (a &&& 0x1FFFC).setWidth 64

/-- The lane enters SUP at L_DSPENT with ECLASS unchanged (R129). L_STAT.PASS and KIND read 0 while the dispatcher or a handler runs (DESIGN CHOICE, log 74). -/
def Lane.toDispatcher (x : Lane) : Lane :=
  { x with mode := true, kind := false, pass := false, pc := entryPc x.dspent }

/-- A task's bundle waits for a verdict or for collection, or its entry is ready: the cycle has been handed over or has ended. -/
def State.cycleEnded (s : State) (t : TaskPlan) (bnd : W64) : Bool :=
  ((s.cycle (taskPart t.task) t.cls bnd).ownOf t.task).isSome
    || (s.cmp.any fun c => c.2.queue.any fun h => decide (h.task = t.task) && decide (h.bnd = bnd))
    || s.coll.waiting.any fun h => decide (h.task = t.task) && decide (h.bnd = bnd)

/-- Tasks that a lane runs in a class cycle, in plan order (R92). -/
def State.passTasks (s : State) (l k : Nat) (b : W64) : List TaskPlan :=
  (s.tasksOf k).filter fun t =>
    decide (t.lane = l) && s.executes (taskPart t.task) k b && decide (s.pstateOf (taskPart t.task) k = .running)

/-- The task after one of a list. -/
def taskAfter (task : W32) : List TaskPlan → Option TaskPlan
  | [] => none
  | t :: r => if t.task = task then r.head? else taskAfter task r

/-- The dispatcher loads L_RUN, L_TASK, L_XWIN and L_DWIN for a pass and arms the timer for its end deadline; without a further pass the timer is stopped (R50, R92, R93; log 69). -/
def Lane.loadPass (x : Lane) (p : Option (TaskPlan × Bool)) : Lane :=
  match p with
  | some (t, coded) =>
    let own := coded && !t.bitLogic
    { x with runKind := t.bitLogic, runPass := coded, task := t.task, xwin := if own then t.xwinC else t.xwinP,
             dwin := if own then t.dwinC else t.dwinP, timer := lo32 (x.bnd + BitVec.ofNat 64 (t.endDl * usec)), tarm := true }
  | none => if x.curCls.isSome then { x with tarm := false } else x

/-- The pass that follows on a lane when one has ended: its task's coded pass, or the primary pass of the next task in plan order (R92, R100). -/
def State.nextPass (s : State) (l : Nat) (codedNext : Bool) : Option (TaskPlan × Bool) :=
  let x := s.lane l
  match x.curCls with
  | none => none
  | some k =>
    let ts := s.passTasks l k x.bnd
    if codedNext then (ts.find? fun t => decide (t.task = x.task)).map fun t => (t, true)
    else (taskAfter x.task ts).map fun t => (t, false)

/-- A pass has ended: the lane is in the dispatcher, with the next pass loaded (R93, R129). -/
def State.dispatch (s : State) (l : Nat) (codedNext : Bool) : State :=
  s.setLane l ((s.lane l).toDispatcher.loadPass (s.nextPass l codedNext))

/-- Hands the bundles over to the cluster's comparator (R76): P alone without a coded pass. -/
def State.handOver (s : State) (l : Nat) (coded : Bool) (trap : Option Byte) : State :=
  let x := s.lane l
  let k := ((s.findTask x.task).map (·.cls)).getD ((x.curCls).getD 0)
  let h : HandOver :=
    { lane := l, task := x.task, cls := k, bnd := x.bnd, p := x.bun.p, k := x.bun.k, coded := coded, trap := trap }
  let c := tget (Cmp.reset (l / 16)) s.cmp (l / 16)
  let s := { s with cmp := tput s.cmp (l / 16) { c with queue := c.queue ++ [h] } }
  (s.setLane l { x.handed with bun := Bundles.reset }).relevel l

/-- A pass ends by YIELD or END (R129): a primary pass keeps its bundle for the coded pass, any other hands over. -/
def State.endPass (s : State) (l : Nat) : State :=
  let x := s.lane l
  let s := s.countLane l 0x0A
  let codedNext := !x.pass && ((s.findTask x.task).map fun t => s.codedRuns t x.bnd).getD false
  let s := if codedNext then s else s.handOver l x.pass none
  s.dispatch l codedNext

/-! ### Lane faults (R99 to R101) -/

/-- Captures a fault unless one is held (R97). -/
def Lane.capture (x : Lane) (cause : Byte) (addr : W32) : Lane :=
  if x.fltValid then x
  else { x with fltValid := true, fltPass := x.pass, fltMode := x.mode, fltCause := cause, fltPc := lo32 x.pc, fltAddr := addr }

/-- Wake requests of a lane that wait are dropped: it is retired or held in reset (R97, R452). -/
def State.dropWake (s : State) (l : Nat) : State :=
  { s with pwr := { s.pwr with wakeQ := s.pwr.wakeQ.filter fun p => decide (p.1 ≠ l), gateQ := s.pwr.gateQ.filter fun j => decide (j ≠ l) } }

/-- Retires a lane (R84, R101). -/
def State.retireLane (s : State) (l reason : Nat) : State :=
  ((s.setLane l { s.lane l with retire := true }).dropWake l).record 0x0302 0 l (BitVec.ofNat 32 l) (BitVec.ofNat 32 reason) 0 0

/-- Every task cycle of a lane whose bundle has not been handed over counts as an overrun and carries STATUS 0x02 (R101); P3 of its OVERRUN record, which the spec leaves open for this cause, is 0 (DESIGN CHOICE, log 74). -/
def State.dropLaneCycles (s : State) (l : Nat) : State :=
  ((List.range 8).flatMap fun k => (s.tasksOf k).filter fun t => decide (t.lane = l)).foldl (init := s) fun s t =>
    match (s.cls_ t.cls).bnd with
    | none => s
    | some b =>
      if s.cycleEnded t b || !s.executes (taskPart t.task) t.cls b || decide (s.pstateOf (taskPart t.task) t.cls ≠ .running) then s
      else
        let s := s.countOverrun t.task t.cls b 0x0202
        let s := s.recordOverrun t.task t.cls l s.now32 0
        s.sigReady t.task t.cls b 0x02 0 0

/-- A fault in SUP mode: the module stops and retires the lane (R101). -/
def State.firmwareFault (s : State) (l : Nat) : State :=
  let x := s.lane l
  let s := s.setLane l { x with run := false, wait := false, bun := Bundles.reset }
  (s.retireLane l 2).dropLaneCycles l

/-- Time from a task's end deadline to now, in ns, for OVERRUN (R51). -/
def State.lateBy (s : State) (t : Option TaskPlan) (bnd : W64) : W32 :=
  match t with
  | some t => sat32 (since s.now bnd - (t.endDl * usec : Nat)).toNat
  | none => 0

/-- The lane abandons the running task: its bundle is discarded, an OVERRUN record written, the cycle counted and its entry sent (R50, R51, R221). -/
def State.abandon (s : State) (l : Nat) (code : Nat) : State :=
  let x := s.lane l
  let t := s.findTask x.task
  let k := (t.map (·.cls)).getD ((x.curCls).getD 0)
  let s := s.setLane l { x with bun := Bundles.reset }
  let s := s.countOverrun x.task k x.bnd 0x0202
  let s := s.recordOverrun x.task k l s.now32 (s.lateBy t x.bnd)
  s.sigReady x.task k x.bnd 0x02 code 0

/-- Causes that go to the comparator (R99, R100); 0x8A stands for a coded-range trap on a REAL word. -/
def isVerdictCause (c : Byte) : Bool := decide (c ∈ [0x09#8, 0x0A#8, 0x0B#8, 0x8A#8])

/-- A lane fault at the instruction at PC (R99 to R101): comparator-verdict causes hand over with the trap flagged, DEADLINE abandons, any other is a task fault; in SUP mode it is a firmware fault. `addr2` is the upper part of a GUARD_MISS address. -/
def State.laneFault (s : State) (l : Nat) (cause : Byte) (addr : W32) (sys : Nat := 0) : State :=
  let x := s.lane l
  let shown : Byte := if cause = 0x8A then 0x0A else cause
  let s := s.setLane l (x.capture shown addr)
  if x.mode then s.firmwareFault l
  else if isVerdictCause cause then
    let s := s.handOver l (x.pass) (some cause)
    s.dispatch l false
  else if cause = 0x0C then
    let s := s.abandon l 0x0C
    s.dispatch l false
  else
    let k := ((s.findTask x.task).map (·.cls)).getD ((x.curCls).getD 0)
    let code := if cause = 0x05 then 0x0901 else 0x0207
    let s := s.setLane l { (s.lane l) with bun := Bundles.reset }
    let s :=
      if cause = 0x05 then
        s.record 0x0901 (taskPart x.task) l x.task addr (BitVec.ofNat 32 sys) (BitVec.ofNat 32 (sys / 2 ^ 32))
      else s.record 0x0207 (taskPart x.task) l x.task (shown.setWidth 32) (lo32 x.pc) addr
    let alone := s.alone x.task k x.bnd
    let s := s.sigReady x.task k x.bnd 0x03 shown.toNat 0
    let s := if alone then s.faultPolicy x.task k x.bnd code else s
    s.dispatch l false

/-- A lane fault that names no address: what L_FAULT_ADDR then holds the spec does not state; it is a free value (log 21). -/
def State.laneFaultOpen (s : State) (l : Nat) (cause : Byte) : State :=
  let (v, s) := s.draw
  s.laneFault l cause (lo32 v)

/-! ### Issue -/

/-- The lane executes instructions: enabled, awake, not halted (R97), and no event is taken first (R126). -/
def Lane.issues (x : Lane) : Bool := x.run && x.en && !x.gated && !x.wait && x.takeable.isNone

/-- A fetch for issue: inside IM and, in USR mode, inside L_XWIN (R99, R115). -/
def Lane.fetchOk (x : Lane) : Bool :=
  decide (x.pc.toNat < 0x20000) && (x.mode || inWindow x.xwin x.pc.toNat)

/-- The word at PC. -/
def State.imWord (s : State) (l : Nat) : W32 := BitVec.ofNat 32 (s.rdMem (imAddr l (s.lane l).pc.toNat) 4)

/-- The lane decodes IM words in the bit-logic encoding: in a bit-logic pass (R103). -/
def Lane.bitLogic (x : Lane) : Bool := x.kind && !x.mode

/-- The word at PC is defined in the encoding of the pass; any other raises ILLEGAL when it issues (R99, R103, R117). -/
def State.wordOk (s : State) (l : Nat) : Bool := wordDefined (s.lane l).bitLogic (s.imWord l)

/-- An instruction whose word is defined runs. -/
def State.runWord (s : State) (l : Nat) (body : State → State) : State := if s.wordOk l then body s else s.laneFaultOpen l 0x01

/-- Issues an instruction at PC: FETCH, IM ECC and an undefined word are judged first (R96, R99, R103, R115), then the instruction runs. -/
def State.issue (s : State) (l : Nat) (body : State → State) : State :=
  let x := s.lane l
  if !x.fetchOk then s.laneFault l 0x02 (lo32 x.pc)
  else match s.eccOf (imAddr l x.pc.toNat) with
    | some .uncorrectable => s.laneFault l 0x08 (lo32 x.pc)
    | some .single => (s.setLane l { x with imCorr := sat16 x.imCorr }).countCe.runWord l body
    | none => s.runWord l body

/-- A native instruction issues on a lane that runs native code (R103). -/
def State.native (s : State) (l : Nat) (body : State → State) : State :=
  let x := s.lane l
  if x.issues && !x.bitLogic then s.issue l body else s

/-- An instruction retires: it is counted (R436, R438) and PC moves on. -/
def State.retire (s : State) (l : Nat) (f : Lane → Lane) : State :=
  let s := s.countLane l 0x02
  let x := f (s.lane l)
  s.setLane l { x with pc := x.pc + 4 }

/-- Retires with a register result. -/
def State.retireReg (s : State) (l : Nat) (rd : BitVec 5) (v : W64) : State := s.retire l fun x => x.setReg rd v

/-- A jump or taken branch retires: it is counted and PC is its target (R104, R436). -/
def State.retireJump (s : State) (l : Nat) (f : Lane → Lane) (target : W64) : State :=
  let s := (s.countLane l 0x02).countLane l 0x05
  s.setLane l { f (s.lane l) with pc := target }

/-! ### DM and control registers (R94, R95, R97) -/

/-- Whether a lane may access a control register in its mode (R97, R131). -/
def Lane.ctlAllowed (x : Lane) (off : Nat) (store : Bool) : Bool :=
  decide (off ∈ if store then (if x.mode then supWrites else usrWrites) else (if x.mode then supReads else usrReads))

/-- ACCESS and ALIGN of a data access; ACCESS wins (R94, R95); any byte outside the window is outside (DEDUCED, log 70); of a control register access that covers two registers the column of the one at the lowest address decides (DESIGN CHOICE, log 74). -/
def Lane.dataFault (x : Lane) (ea n : Nat) (store : Bool) : Option Byte :=
  if ea < 0x20000 ∨ 0x41000 ≤ ea then some 0x04
  else if ea < 0x40000 then
    let off := ea - 0x20000
    if !x.mode && !(inWindow x.dwin off && inWindow x.dwin (off + n - 1)) then some 0x04
    else if ea % n ≠ 0 then some 0x03
    else none
  else
    let off := ea - 0x40000
    if !x.ctlAllowed (off - off % 4) store then some 0x04
    else if n ≠ 4 ∨ ea % 4 ≠ 0 then some 0x03
    else none

/-- The effective address: w[ra] + sext(imm16) (R104). -/
def Lane.ea (x : Lane) (ra : BitVec 5) (imm : W16) : W64 := x.reg ra + imm.signExtend 64

/-- A single-bit error of a DM word is corrected within the access and counted (R96). -/
def State.dmCorrected (s : State) (l : Nat) : State :=
  (s.setLane l { s.lane l with dmCorr := sat16 (s.lane l).dmCorr }).countCe

/-- A load of n bytes at the lane's effective address (R94 to R97); `ext` extends the value read. -/
def State.load (s : State) (l : Nat) (rd ra : BitVec 5) (imm : W16) (n : Nat) (ext : Nat → W64) : State :=
  let x := s.lane l
  let ea := (x.ea ra imm).toNat
  match x.dataFault ea n false with
  | some c => s.laneFault l c (BitVec.ofNat 32 ea)
  | none =>
    if ea < 0x40000 then
      let a := dmAddr l ea
      match s.eccOf a with
      | some .uncorrectable => s.laneFault l 0x08 (BitVec.ofNat 32 ea)
      | e =>
        let s := if e = some .single then s.dmCorrected l else s
        let s := s.countLane l 0x06
        s.retireReg l rd (ext (s.rdMem a n))
    else
      let (v, y) := x.ctlRead l (ea - 0x40000) true
      (s.setLane l y).retireReg l rd (ext v.toNat)

/-- What a control register write changes beside the register: L_REPLWAIT sets the level of REPL (R124, R131). -/
def State.laneCtlWrite (s : State) (l : Nat) (off : Nat) (v : W32) : State :=
  let s := s.setLane l ((s.lane l).ctlWrite off v)
  if off = 0x12C then s.relevel l else s

/-- A store of the n low bytes of w[rs] (R94 to R97). -/
def State.store (s : State) (l : Nat) (rs ra : BitVec 5) (imm : W16) (n : Nat) : State :=
  let x := s.lane l
  let ea := (x.ea ra imm).toNat
  let v := x.reg rs
  match x.dataFault ea n true with
  | some c => s.laneFault l c (BitVec.ofNat 32 ea)
  | none =>
    if ea < 0x40000 then
      let a := dmAddr l ea
      match s.eccOf a with
      | some .uncorrectable => s.laneFault l 0x08 (BitVec.ofNat 32 ea)
      | e =>
        let s := if e = some .single then (s.dmCorrected l).clearEcc a else s
        let s := s.countLane l 0x06
        (s.wrMem a n v.toNat).retire l id
    else (s.laneCtlWrite l (ea - 0x40000) (lo32 v)).retire l id

/-! ### Image access (R107, R108, R300) -/

/-- What an image load answers. -/
inductive ImgRead where
  | miss (sys : Nat) (s : State)
  | wait
  | word (tag : Tag) (v : W64) (s : State)
deriving Repr

/-- The Access Guard's check of an LII of the running task (R300). -/
def State.imgGuard (s : State) (l lii bank : Nat) (kind : AccessKind) : Bool × State :=
  s.guardCheck { part := taskPart (s.lane l).task, master := .lane, kind := kind, source := l, addr := imgAddr bank lii, len := 8 }

/-- A same-class input reads the value produced in this cycle: the producer's bundle in NEXT, or the previous cycle's value after a unit delay (R47, R107). -/
def State.sameClass (s : State) (t : Option TaskPlan) (lii : Nat) : Option InVar :=
  match t with
  | some t => t.ins.find? fun i => decide (i.lii = lii) && i.same
  | none => none

/-- The image word a load of the running task reads (R47, R54, R107, R118, R300): class view of CURRENT or the same-class value, after substitution of a force. -/
def State.imgRead (s : State) (l lii : Nat) : ImgRead :=
  let x := s.lane l
  let t := s.findTask x.task
  let k := (t.map (·.cls)).getD ((x.curCls).getD 0)
  let e := s.liiEntry k lii
  let kw := (e.map (·.cls)).getD k
  let tag := (e.map (·.tag)).getD .bits
  let same := s.sameClass t lii
  let delayed := s.delays.any fun d => decide (d = (x.task, x.bnd, lii))
  let there := match same with
    | some i => s.inNext.any fun p => decide (p = (i.producer, x.bnd))
    | none => false
  let bank := if there && !delayed then s.nextBank kw else s.curBank kw
  let (ok, s) := s.imgGuard l lii bank .r
  if !ok then .miss (imgAddr bank lii) s
  else if same.isSome && !there && !delayed then .wait
  else
    let a := imgAddr bank lii
    match s.eccOf a with
    | some .uncorrectable =>
      let (v, s) := s.draw
      .word tag v s.imageError
    | err =>
      let s := if err = some .single then s.countCe else s
      let v := s.rdImg bank lii
      .word tag (match e with | some e => s.subst e.vid x.bnd v | none => v) s

/-- GUARD_MISS with the GUARD event pending (R99, R124). -/
def State.guardMiss (s : State) (l lii sys : Nat) : State :=
  (s.setLane l ((s.lane l).setPend 10)).laneFault l 0x05 (BitVec.ofNat 32 lii) sys

/-- An image load: E of the word in the coded pass, a coded-range trap outside the tag's range (R68, R107). -/
def State.imgLoad (s : State) (l : Nat) (rd : BitVec 5) (lii : Nat) : State :=
  if 0x100000 ≤ lii then s.laneFault l 0x05 (BitVec.ofNat 32 lii)
  else match s.imgRead l lii with
    | .miss sys s => s.guardMiss l lii sys
    | .wait => s
    | .word tag v s =>
      let x := s.lane l
      if x.pass && !x.mode then
        if tagInRange tag v then (s.countLane l 0x03).retireReg l rd (encodeE tag v)
        else s.laneFault l (if tag = .int then 0x0A else 0x8A) (BitVec.ofNat 32 lii)
      else (s.countLane l 0x03).retireReg l rd v

/-- Puts a word into a bundle: a new LII is appended, a known one replaced in place (R108). -/
def bundlePut (ws : List BWord) (w : BWord) : List BWord :=
  if ws.any fun x => decide (x.lii = w.lii) then ws.map fun x => if x.lii = w.lii then w else x else ws ++ [w]

/-- The bundle of the current pass: P in the primary pass, K in the coded pass (R76). -/
def Lane.curBundle (x : Lane) : List BWord := if x.pass then x.bun.k else x.bun.p
def Lane.setBundle (x : Lane) (ws : List BWord) : Lane :=
  { x with bun := if x.pass then { x.bun with k := ws } else { x.bun with p := ws } }

/-- The check of a store to an LII: the guard at the NEXT bank, and the writer in the LII map (R300). -/
def State.imgStoreOk (s : State) (l lii : Nat) : Bool × Nat × State :=
  let x := s.lane l
  let k := ((s.findTask x.task).map (·.cls)).getD ((x.curCls).getD 0)
  let e := s.liiEntry k lii
  let bank := s.nextBank ((e.map (·.cls)).getD k)
  let a : Access := { part := taskPart x.task, master := .lane, kind := .w, source := l, addr := imgAddr bank lii, len := 8 }
  let (ok, s') := s.guardCheck a
  if !ok then (false, a.addr, s')
  else if (e.map (·.writer)) = some x.task then (true, a.addr, s')
  else (false, a.addr, { s' with guard := s'.guard.refuse a }.count (a.ev 0x11))

/-- An image store: a word of the bundle, BUNDLE_FULL at the 129th (R99, R108, R300). -/
def State.imgStore (s : State) (l : Nat) (v : W64) (lii : Nat) : State :=
  if 0x100000 ≤ lii then s.laneFault l 0x05 (BitVec.ofNat 32 lii)
  else
    let (ok, a, s) := s.imgStoreOk l lii
    if !ok then s.guardMiss l lii a
    else
      let x := s.lane l
      let k := ((s.findTask x.task).map (·.cls)).getD ((x.curCls).getD 0)
      let tag := ((s.liiEntry k lii).map (·.tag)).getD .bits
      let ws := bundlePut x.curBundle { lii := lii, tag := tag, val := v }
      if 128 < ws.length then s.laneFault l 0x07 (BitVec.ofNat 32 lii)
      else (s.countLane l 0x04).retire l fun x => x.setBundle ws

end Sys2Proof.Machine
end

