-- ==== Sys2Proof/Machine/Native.lean ====
section
/-! DEFINITION. The meanings of the native lane instructions (R102 to R109), each one line over the shared operations of LaneOps: integer, multiply and divide, coded, floating point, DM access, image access, control transfer, system. -/
namespace Sys2Proof.Machine

abbrev Answer := Host.Outcome State Fault Refusal

/-- A two-operand register operation (R104, R105). -/
def State.alu2 (s : State) (l : Nat) (rd ra rb : BitVec 5) (f : W64 → W64 → W64) : State :=
  s.native l fun s => let x := s.lane l; s.retireReg l rd (f (x.reg ra) (x.reg rb))

/-- An immediate operation (R104). -/
def State.aluK (s : State) (l : Nat) (rd ra : BitVec 5) (imm : W16) (f : W64 → W16 → W64) : State :=
  s.native l fun s => s.retireReg l rd (f ((s.lane l).reg ra) imm)

/-- A shift by a constant: imm16 bits [15:6] must be 0 (R104). -/
def State.shiftK (s : State) (l : Nat) (rd ra : BitVec 5) (imm : W16) (f : W64 → Nat → W64) : State :=
  s.native l fun s =>
    if imm.extractLsb' 6 10 ≠ 0 then s.laneFaultOpen l 0x01
    else s.retireReg l rd (f ((s.lane l).reg ra) (imm.extractLsb' 0 6).toNat)

/-- The shift count of a register: bits [5:0] (R104). -/
def shamt (b : W64) : Nat := (b.extractLsb' 0 6).toNat

def bool64 (b : Bool) : W64 := if b then 1 else 0

/-- An operation under the residue check: a datapath whose residue disagrees raises RESIDUE (R75). -/
def State.residue (s : State) (l : Nat) (body : State → State) : State :=
  if (s.lane l).alu then s.laneFaultOpen l 0x0B else body s

/-- An integer multiply or divide (R104, R105); a divisor of 0 raises DIV_ZERO where `div`. -/
def State.muldiv (s : State) (l : Nat) (rd ra rb : BitVec 5) (div : Bool) (f : W64 → W64 → W64) : State :=
  s.native l fun s =>
    let x := s.lane l
    if div ∧ x.reg rb = 0 then s.laneFaultOpen l 0x06
    else s.residue l fun s => s.retireReg l rd (f (x.reg ra) (x.reg rb))

/-- The high half of the signed product (R104). -/
def mulhs (a b : W64) : W64 := BitVec.ofInt 64 (a.toInt * b.toInt / (2 ^ 64 : Int))

/-- A word is a code word: a multiple of A (R71). -/
def isCode (w : W64) : Bool := decide (w.toInt % (codeA : Int) = 0)

/-- A result of coded arithmetic: a value, or a lane fault's cause (R71). -/
inductive Coded where
  | ok (v : W64)
  | trap (cause : Byte)
deriving DecidableEq, Repr

def codedMul (a b : W64) : Coded :=
  if !isCode a || !isCode b then .trap 0x09
  else if 2 ^ 47 * codeA * codeA ≤ (a.toInt * b.toInt).natAbs then .trap 0x0A
  else .ok (BitVec.ofInt 64 (a.toInt * b.toInt / (codeA : Int)))

def codedDiv (a b : W64) : Coded :=
  if !isCode a || !isCode b || decide (b = 0) then .trap 0x09
  else .ok (BitVec.ofInt 64 (a.toInt.tdiv b.toInt * codeA))

def codedChk (a : W64) : Coded :=
  if !isCode a then .trap 0x09
  else if 2 ^ 47 ≤ (a.toInt / (codeA : Int)).natAbs then .trap 0x0A
  else .ok (BitVec.ofInt 64 (a.toInt / (codeA : Int)))

/-- A coded instruction: traps, the residue check, the counter event 0x08 (R71, R75, R436). -/
def State.coded (s : State) (l : Nat) (rd : BitVec 5) (f : Lane → Coded) : State :=
  match f (s.lane l) with
  | .trap c => s.laneFaultOpen l c
  | .ok v => s.residue l fun s => (s.countLane l 0x08).retireReg l rd v

/-- The floating-point environment of the running pass (R67). -/
def Lane.fpEnv (x : Lane) : Fp.Env := Fp.env x.fpctl (x.pass && !x.mode)

/-- Retires a floating-point result with its flags and the counter event 0x07 (R106, R436). -/
def State.retireFp (s : State) (l : Nat) (rd : BitVec 5) (v : W64) (f : Fp.Flags) : State :=
  (s.countLane l 0x07).retire l fun x => (x.setFp f).setReg rd v

/-- A floating-point operation of two operands under the residue check (R75, R104). -/
def State.fp2 (s : State) (l : Nat) (rd ra rb : BitVec 5) (f : Fp.Env → Nat → Nat → Nat × Fp.Flags) : State :=
  s.native l fun s => s.residue l fun s =>
    let x := s.lane l
    let r := f x.fpEnv (x.reg ra).toNat (x.reg rb).toNat
    s.retireFp l rd (BitVec.ofNat 64 r.1) r.2

/-- A comparison: no arithmetic, so no residue (R75, R104). -/
def State.fpCmp (s : State) (l : Nat) (rd ra rb : BitVec 5) (f : Fp.Fmt) (ok : Ordering → Bool) (mask : Nat) : State :=
  s.native l fun s =>
    let x := s.lane l
    let r := Fp.fcmp f x.fpEnv ok ((x.reg ra).toNat % mask) ((x.reg rb).toNat % mask)
    s.retireFp l rd (BitVec.ofNat 64 r.1) r.2

/-- A floating-point operation of one operand: the rb field must be 0 (R102, R103, R104). -/
def State.fp1 (s : State) (l : Nat) (rd ra rb : BitVec 5) (f : Fp.Env → W64 → W64 × Fp.Flags) : State :=
  s.native l fun s =>
    if rb ≠ 0 then s.laneFaultOpen l 0x01
    else s.residue l fun s =>
      let x := s.lane l
      let r := f x.fpEnv (x.reg ra)
      s.retireFp l rd r.1 r.2

/-- A conditional branch: its own address + 4 × sext(off16) when taken (R104). -/
def State.branch (s : State) (l : Nat) (ra rb : BitVec 5) (off : W16) (c : W64 → W64 → Bool) : State :=
  s.native l fun s =>
    let x := s.lane l
    if c (x.reg ra) (x.reg rb) then s.retireJump l id (x.pc + 4 * off.signExtend 64) else s.retire l id

/-- A jump with link (R99, R104): a target whose bits [1:0] are not 0 is FETCH, raised by the jump itself, which writes no link. -/
def State.jump (s : State) (l : Nat) (rd : BitVec 5) (target : W64) : State :=
  let x := s.lane l
  if target.extractLsb' 0 2 ≠ 0 then s.laneFault l 0x02 (lo32 target)
  else s.retireJump l (fun y => y.setReg rd (x.pc + 4)) target

/-- An instruction all of whose register fields must be 0 (R103). -/
def State.noFields (s : State) (l : Nat) (rd ra rb : BitVec 5) (body : State → State) : State :=
  if rd ≠ 0 ∨ ra ≠ 0 ∨ rb ≠ 0 then s.laneFaultOpen l 0x01 else body s

/-! ### System instructions (R93, R109, R119, R128 to R130) -/

/-- WAITEV: SUP only and outside every handler; the lane halts (R99, R130). -/
def State.waitev (s : State) (l : Nat) : State :=
  let x := s.lane l
  if !x.mode || decide (x.eclass ≠ 0) then s.laneFaultOpen l 0x01
  else
    let s := s.retire l fun x => { x with wait := true, run := false }
    if x.gate then { s with pwr := { s.pwr with gateQ := s.pwr.gateQ ++ [l] } } else s

/-- Exchanges w24 to w31 with the bank (R127, R128). -/
def swapRegs (w alt : Table W64) : Table W64 × Table W64 :=
  (w.filter (fun p => decide (p.1 < 24)) ++ alt, w.filter fun p => decide (24 ≤ p.1))

/-- Switches the fast bank: w24 to w31, ACC, the bit stack, S, L_FPCTL, L_FPSTAT; and exchanges the bundle buffers with the hold store (R127 step 3, R128). -/
def Lane.swapBank (x : Lane) : Lane :=
  let r := swapRegs x.w x.alt.w
  { x with w := r.1, acc := x.alt.acc, stack := x.alt.stack, scratch := x.alt.scratch, fpctl := x.alt.fpctl,
           fpstat := x.alt.fpstat, bun := x.hold, hold := x.bun,
           alt := { w := r.2, acc := x.acc, stack := x.stack, scratch := x.scratch, fpctl := x.fpctl, fpstat := x.fpstat } }

/-- Restores MODE, PASS, KIND and PC from a return register (R128). -/
def Lane.restore (x : Lane) (r : W32) : Lane :=
  { x with mode := r.getLsbD 31, pass := r.getLsbD 30, kind := r.getLsbD 29, pc := (r &&& 0x1FFFC).setWidth 64 }

/-- What the dispatcher restores before RETEV of the context a fast event pre-empted: w1 to w23, L_TASK, L_RUN, the windows, and the timer (R128, R490; log 69). -/
def Lane.unsave (x : Lane) (c : Option Saved) : Lane :=
  match c with
  | some c => { x with w := c.w ++ x.w.filter (fun p => decide (24 ≤ p.1)), task := c.task, runKind := c.runKind, runPass := c.runPass,
                       xwin := c.xwin, dwin := c.dwin, timer := c.timer, tarm := c.tarm, saved := none }
  | none => x

/-- RETEV: SUP only, in a handler (R99, R128; log 15); the level sources are sampled again (R125). -/
def State.retev (s : State) (l : Nat) : State :=
  let x := s.lane l
  if !x.mode || decide (x.eclass = 0) then s.laneFaultOpen l 0x01
  else
    let s := s.countLane l 0x02
    let x := s.lane l
    let x := if x.eclass = 2 then
        { (x.swapBank.unsave x.saved).restore x.evretF with eclass := if x.inNormal then 1 else 0, curFast := !x.inNormal, inNormal := false }
      else { x.restore x.evretN with eclass := 0 }
    let repl := s.replLevel x
    let cdone := x.cdoneLevel
    let x := if repl then x.setPend 8 else x
    let x := if cdone then x.setPend 11 else x
    s.setLane l { x with lvlRepl := repl, lvlCdone := cdone }

/-- The bundle a bit-logic pass begins with: the declared output words in declaration order, committed values, complemented in the coded pass (R119). -/
def State.preload (s : State) (t : Option TaskPlan) (pass : Bool) : List BWord :=
  match t with
  | some t => t.outs.map fun o =>
      let k := ((s.liiEntry t.cls o.lii).map (·.cls)).getD t.cls
      let v := s.rdImg (s.curBank k) o.lii
      { lii := o.lii, tag := o.tag, val := if pass then ~~~v else v }
  | none => []

/-- The start of a pass: w1 to w31, L_FPCTL and L_FPSTAT are 0 (R93), the pass's bundle is empty or preloaded (R119), the bit-logic state is initial (R116). -/
def State.startPass (s : State) (l : Nat) (entry : W64) : State :=
  let x := s.lane l
  let t := s.findTask x.task
  let pass := x.runPass
  let pre := if x.runKind then s.preload t pass else []
  s.setLane l
    { x with mode := false, kind := x.runKind, pass := pass, pc := entry, w := [], fpctl := 0, fpstat := 0,
             bun := { p := if pass then x.bun.p else pre, k := if pass then pre else [], pre := pre.map (·.lii) },
             acc := x.runKind && pass, stack := [], scratch := if x.runKind && pass then BitVec.allOnes 64 else 0 }

/-- The coded pass in L_RUN belongs to a task cycle that has ended by a trap, a fault or an abandonment: it does not run (R50, R100). -/
def State.passVoid (s : State) (l : Nat) : Bool :=
  let x := s.lane l
  x.runPass && match s.findTask x.task with
    | some t => s.cycleEnded t x.bnd
    | none => false

/-- YIELD: ends the pass in USR mode, enters USR at w[ra] in SUP mode (R104, R129). A target whose bits [1:0] are not 0 raises FETCH as a jump's does, in SUP mode (DESIGN CHOICE, log 74). -/
def State.yield_ (s : State) (l : Nat) (ra : BitVec 5) : State :=
  let x := s.lane l
  let e := x.reg ra
  if !x.mode then (s.countLane l 0x02).endPass l
  else if e.extractLsb' 0 2 ≠ 0 then s.laneFault l 0x02 (lo32 e)
  else if s.passVoid l then (s.countLane l 0x02).dispatch l false
  else (s.countLane l 0x02).startPass l e

/-- RDCTR (R109, R439, R440). -/
def Ctr.rdctr (c : Ctr) (part : Nat) (a : W64) : W64 :=
  let i := bitsAt a.toNat 0 6
  if a.toNat / 2 ^ 7 ≠ 0 then 0
  else if a.getLsbD 6 then
    if i % 2 = 0 ∧ c.readable part i ∧ c.readable part (i + 1) then mk64 (c.get i).val (c.get (i + 1)).val else 0
  else if c.readable part i then (c.get i).val.setWidth 64 else 0

/-! ### Integer -/

/-- ADD (R104): rd = ra + rb modulo 2^64. -/
def execAdd (l : Fin 256) (rd ra rb : BitVec 5) (s : State) : Answer :=
  .next (s.alu2 l rd ra rb fun a b => a + b)

/-- SUB (R104): rd = ra − rb modulo 2^64. -/
def execSub (l : Fin 256) (rd ra rb : BitVec 5) (s : State) : Answer :=
  .next (s.alu2 l rd ra rb fun a b => a - b)

/-- AND (R104): rd = ra & rb. -/
def execAnd (l : Fin 256) (rd ra rb : BitVec 5) (s : State) : Answer :=
  .next (s.alu2 l rd ra rb fun a b => a &&& b)

/-- OR (R104): rd = ra | rb. -/
def execOr (l : Fin 256) (rd ra rb : BitVec 5) (s : State) : Answer :=
  .next (s.alu2 l rd ra rb fun a b => a ||| b)

/-- XOR (R104): rd = ra ^ rb. -/
def execXor (l : Fin 256) (rd ra rb : BitVec 5) (s : State) : Answer :=
  .next (s.alu2 l rd ra rb fun a b => a ^^^ b)

/-- ANDN (R104): rd = ra & ~rb. -/
def execAndn (l : Fin 256) (rd ra rb : BitVec 5) (s : State) : Answer :=
  .next (s.alu2 l rd ra rb fun a b => a &&& ~~~b)

/-- SHL (R104): rd = ra << rb[5:0]. -/
def execShl (l : Fin 256) (rd ra rb : BitVec 5) (s : State) : Answer :=
  .next (s.alu2 l rd ra rb fun a b => a <<< shamt b)

/-- SHR (R104): rd = ra >> rb[5:0], zero fill. -/
def execShr (l : Fin 256) (rd ra rb : BitVec 5) (s : State) : Answer :=
  .next (s.alu2 l rd ra rb fun a b => a >>> shamt b)

/-- SAR (R104): rd = ra >> rb[5:0], sign fill. -/
def execSar (l : Fin 256) (rd ra rb : BitVec 5) (s : State) : Answer :=
  .next (s.alu2 l rd ra rb fun a b => a.sshiftRight (shamt b))

/-- LTS (R104): rd = 1 if ra < rb signed. -/
def execLts (l : Fin 256) (rd ra rb : BitVec 5) (s : State) : Answer :=
  .next (s.alu2 l rd ra rb fun a b => bool64 (a.slt b))

/-- LTU (R104): rd = 1 if ra < rb unsigned. -/
def execLtu (l : Fin 256) (rd ra rb : BitVec 5) (s : State) : Answer :=
  .next (s.alu2 l rd ra rb fun a b => bool64 (a.ult b))

/-- ADDK (R104): rd = ra + sext(imm16). -/
def execAddk (l : Fin 256) (rd ra : BitVec 5) (imm : W16) (s : State) : Answer :=
  .next (s.aluK l rd ra imm fun a i => a + i.signExtend 64)

/-- ANDK (R104): rd = ra & zext(imm16). -/
def execAndk (l : Fin 256) (rd ra : BitVec 5) (imm : W16) (s : State) : Answer :=
  .next (s.aluK l rd ra imm fun a i => a &&& i.setWidth 64)

/-- ORK (R104): rd = ra | zext(imm16). -/
def execOrk (l : Fin 256) (rd ra : BitVec 5) (imm : W16) (s : State) : Answer :=
  .next (s.aluK l rd ra imm fun a i => a ||| i.setWidth 64)

/-- XORK (R104): rd = ra ^ zext(imm16). -/
def execXork (l : Fin 256) (rd ra : BitVec 5) (imm : W16) (s : State) : Answer :=
  .next (s.aluK l rd ra imm fun a i => a ^^^ i.setWidth 64)

/-- LTSK (R104): rd = 1 if ra < sext(imm16) signed. -/
def execLtsk (l : Fin 256) (rd ra : BitVec 5) (imm : W16) (s : State) : Answer :=
  .next (s.aluK l rd ra imm fun a i => bool64 (a.slt (i.signExtend 64)))

/-- SHLK (R104): rd = ra << imm16[5:0]. -/
def execShlk (l : Fin 256) (rd ra : BitVec 5) (imm : W16) (s : State) : Answer :=
  .next (s.shiftK l rd ra imm fun a n => a <<< n)

/-- SHRK (R104): rd = ra >> imm16[5:0], zero fill. -/
def execShrk (l : Fin 256) (rd ra : BitVec 5) (imm : W16) (s : State) : Answer :=
  .next (s.shiftK l rd ra imm fun a n => a >>> n)

/-- SARK (R104): rd = ra >> imm16[5:0], sign fill. -/
def execSark (l : Fin 256) (rd ra : BitVec 5) (imm : W16) (s : State) : Answer :=
  .next (s.shiftK l rd ra imm fun a n => a.sshiftRight n)

/-- LDHI (R104): rd = sext(imm21) << 16. -/
def execLdhi (l : Fin 256) (rd : BitVec 5) (imm : BitVec 21) (s : State) : Answer :=
  .next (s.native l fun s => s.retireReg l rd (imm.signExtend 64 <<< 16))

/-! ### Multiply, divide, coded -/

/-- MUL (R104, R105): rd = the low 64 bits of ra × rb. -/
def execMul (l : Fin 256) (rd ra rb : BitVec 5) (s : State) : Answer :=
  .next (s.muldiv l rd ra rb false (fun a b => a * b))

/-- MULHS (R104, R105): rd = the high 64 bits of the signed product. -/
def execMulhs (l : Fin 256) (rd ra rb : BitVec 5) (s : State) : Answer :=
  .next (s.muldiv l rd ra rb false (mulhs))

/-- DIVS (R104, R105): rd = ra / rb signed, toward zero; −2^63 by −1 gives −2^63. -/
def execDivs (l : Fin 256) (rd ra rb : BitVec 5) (s : State) : Answer :=
  .next (s.muldiv l rd ra rb true (fun a b => BitVec.ofInt 64 (a.toInt.tdiv b.toInt)))

/-- DIVU (R104, R105): rd = ra / rb unsigned. -/
def execDivu (l : Fin 256) (rd ra rb : BitVec 5) (s : State) : Answer :=
  .next (s.muldiv l rd ra rb true (fun a b => a / b))

/-- RMDS (R104, R105): rd = ra − DIVS(ra, rb) × rb. -/
def execRmds (l : Fin 256) (rd ra rb : BitVec 5) (s : State) : Answer :=
  .next (s.muldiv l rd ra rb true (fun a b => a - BitVec.ofInt 64 (a.toInt.tdiv b.toInt) * b))

/-- RMDU (R104, R105): rd = the unsigned remainder. -/
def execRmdu (l : Fin 256) (rd ra rb : BitVec 5) (s : State) : Answer :=
  .next (s.muldiv l rd ra rb true (fun a b => a % b))

/-- CMUL (R71). -/
def execCmul (l : Fin 256) (rd ra rb : BitVec 5) (s : State) : Answer :=
  .next (s.native l fun s => s.coded l rd fun x => codedMul (x.reg ra) (x.reg rb))

/-- CDIV (R71). -/
def execCdiv (l : Fin 256) (rd ra rb : BitVec 5) (s : State) : Answer :=
  .next (s.native l fun s => s.coded l rd fun x => codedDiv (x.reg ra) (x.reg rb))

/-- CCHK (R71); the rb field is 0 (R104). -/
def execCchk (l : Fin 256) (rd ra rb : BitVec 5) (s : State) : Answer :=
  .next (s.native l fun s =>
    if rb ≠ 0 then s.laneFaultOpen l 0x01 else s.coded l rd fun x => codedChk (x.reg ra))

/-! ### Floating point -/

/-- FADD64 (R104, R106): rd = ra + rb. -/
def execFadd64 (l : Fin 256) (rd ra rb : BitVec 5) (s : State) : Answer :=
  .next (s.fp2 l rd ra rb fun v a b => Fp.fadd Fp.b64 v (a % 2 ^ 64) (b % 2 ^ 64))

/-- FSUB64 (R104, R106): rd = ra − rb. -/
def execFsub64 (l : Fin 256) (rd ra rb : BitVec 5) (s : State) : Answer :=
  .next (s.fp2 l rd ra rb fun v a b => Fp.fsub Fp.b64 v (a % 2 ^ 64) (b % 2 ^ 64))

/-- FMUL64 (R104, R106): rd = ra × rb. -/
def execFmul64 (l : Fin 256) (rd ra rb : BitVec 5) (s : State) : Answer :=
  .next (s.fp2 l rd ra rb fun v a b => Fp.fmul Fp.b64 v (a % 2 ^ 64) (b % 2 ^ 64))

/-- FDIV64 (R104, R106): rd = ra / rb. -/
def execFdiv64 (l : Fin 256) (rd ra rb : BitVec 5) (s : State) : Answer :=
  .next (s.fp2 l rd ra rb fun v a b => Fp.fdiv Fp.b64 v (a % 2 ^ 64) (b % 2 ^ 64))

/-- FSQRT64 (R104, R106): the square root of ra. -/
def execFsqrt64 (l : Fin 256) (rd ra rb : BitVec 5) (s : State) : Answer :=
  .next (s.fp1 l rd ra rb fun v a => let r := Fp.fsqrt Fp.b64 v (a.toNat % 2 ^ 64); (BitVec.ofNat 64 r.1, r.2))

/-- FCEQ64 (R104, R106). -/
def execFceq64 (l : Fin 256) (rd ra rb : BitVec 5) (s : State) : Answer :=
  .next (s.fpCmp l rd ra rb Fp.b64 Fp.isEq (2 ^ 64))

/-- FCLT64 (R104, R106). -/
def execFclt64 (l : Fin 256) (rd ra rb : BitVec 5) (s : State) : Answer :=
  .next (s.fpCmp l rd ra rb Fp.b64 Fp.isLt (2 ^ 64))

/-- FCLE64 (R104, R106). -/
def execFcle64 (l : Fin 256) (rd ra rb : BitVec 5) (s : State) : Answer :=
  .next (s.fpCmp l rd ra rb Fp.b64 Fp.isLe (2 ^ 64))

/-- ITOF64 (R104): signed integer to float. -/
def execItof64 (l : Fin 256) (rd ra rb : BitVec 5) (s : State) : Answer :=
  .next (s.fp1 l rd ra rb fun v a => let r := Fp.itof Fp.b64 v a.toInt; (BitVec.ofNat 64 r.1, r.2))

/-- FTOI64 (R104, R106): float to signed integer under RM. -/
def execFtoi64 (l : Fin 256) (rd ra rb : BitVec 5) (s : State) : Answer :=
  .next (s.fp1 l rd ra rb fun v a => let r := Fp.ftoi Fp.b64 v (a.toNat % 2 ^ 64); (BitVec.ofInt 64 r.1, r.2))

/-- FADD32 (R104, R106): rd = ra + rb. -/
def execFadd32 (l : Fin 256) (rd ra rb : BitVec 5) (s : State) : Answer :=
  .next (s.fp2 l rd ra rb fun v a b => Fp.fadd Fp.b32 v (a % 2 ^ 32) (b % 2 ^ 32))

/-- FSUB32 (R104, R106): rd = ra − rb. -/
def execFsub32 (l : Fin 256) (rd ra rb : BitVec 5) (s : State) : Answer :=
  .next (s.fp2 l rd ra rb fun v a b => Fp.fsub Fp.b32 v (a % 2 ^ 32) (b % 2 ^ 32))

/-- FMUL32 (R104, R106): rd = ra × rb. -/
def execFmul32 (l : Fin 256) (rd ra rb : BitVec 5) (s : State) : Answer :=
  .next (s.fp2 l rd ra rb fun v a b => Fp.fmul Fp.b32 v (a % 2 ^ 32) (b % 2 ^ 32))

/-- FDIV32 (R104, R106): rd = ra / rb. -/
def execFdiv32 (l : Fin 256) (rd ra rb : BitVec 5) (s : State) : Answer :=
  .next (s.fp2 l rd ra rb fun v a b => Fp.fdiv Fp.b32 v (a % 2 ^ 32) (b % 2 ^ 32))

/-- FSQRT32 (R104, R106): the square root of ra. -/
def execFsqrt32 (l : Fin 256) (rd ra rb : BitVec 5) (s : State) : Answer :=
  .next (s.fp1 l rd ra rb fun v a => let r := Fp.fsqrt Fp.b32 v (a.toNat % 2 ^ 32); (BitVec.ofNat 64 r.1, r.2))

/-- FCEQ32 (R104, R106). -/
def execFceq32 (l : Fin 256) (rd ra rb : BitVec 5) (s : State) : Answer :=
  .next (s.fpCmp l rd ra rb Fp.b32 Fp.isEq (2 ^ 32))

/-- FCLT32 (R104, R106). -/
def execFclt32 (l : Fin 256) (rd ra rb : BitVec 5) (s : State) : Answer :=
  .next (s.fpCmp l rd ra rb Fp.b32 Fp.isLt (2 ^ 32))

/-- FCLE32 (R104, R106). -/
def execFcle32 (l : Fin 256) (rd ra rb : BitVec 5) (s : State) : Answer :=
  .next (s.fpCmp l rd ra rb Fp.b32 Fp.isLe (2 ^ 32))

/-- ITOF32 (R104): signed integer to float. -/
def execItof32 (l : Fin 256) (rd ra rb : BitVec 5) (s : State) : Answer :=
  .next (s.fp1 l rd ra rb fun v a => let r := Fp.itof Fp.b32 v a.toInt; (BitVec.ofNat 64 r.1, r.2))

/-- FTOI32 (R104, R106): float to signed integer under RM. -/
def execFtoi32 (l : Fin 256) (rd ra rb : BitVec 5) (s : State) : Answer :=
  .next (s.fp1 l rd ra rb fun v a => let r := Fp.ftoi Fp.b32 v (a.toNat % 2 ^ 32); (BitVec.ofInt 64 r.1, r.2))

/-- F64TO32 (R104, R106). -/
def execF64to32 (l : Fin 256) (rd ra rb : BitVec 5) (s : State) : Answer :=
  .next (s.fp1 l rd ra rb fun v a => let r := Fp.convert Fp.b64 Fp.b32 v a.toNat; (BitVec.ofNat 64 r.1, r.2))

/-- F32TO64 (R104, R106). -/
def execF32to64 (l : Fin 256) (rd ra rb : BitVec 5) (s : State) : Answer :=
  .next (s.fp1 l rd ra rb fun v a => let r := Fp.convert Fp.b32 Fp.b64 v (a.toNat % 2 ^ 32); (BitVec.ofNat 64 r.1, r.2))

/-! ### DM access -/

/-- LDS8 (R94, R104). -/
def execLds8 (l : Fin 256) (rd ra : BitVec 5) (imm : W16) (s : State) : Answer :=
  .next (s.native l fun s => s.load l rd ra imm 1 fun v => BitVec.ofInt 64 (signed 8 v))

/-- LDU8 (R94, R104). -/
def execLdu8 (l : Fin 256) (rd ra : BitVec 5) (imm : W16) (s : State) : Answer :=
  .next (s.native l fun s => s.load l rd ra imm 1 fun v => BitVec.ofNat 64 v)

/-- LDS16 (R94, R104). -/
def execLds16 (l : Fin 256) (rd ra : BitVec 5) (imm : W16) (s : State) : Answer :=
  .next (s.native l fun s => s.load l rd ra imm 2 fun v => BitVec.ofInt 64 (signed 16 v))

/-- LDU16 (R94, R104). -/
def execLdu16 (l : Fin 256) (rd ra : BitVec 5) (imm : W16) (s : State) : Answer :=
  .next (s.native l fun s => s.load l rd ra imm 2 fun v => BitVec.ofNat 64 v)

/-- LDS32 (R94, R104). -/
def execLds32 (l : Fin 256) (rd ra : BitVec 5) (imm : W16) (s : State) : Answer :=
  .next (s.native l fun s => s.load l rd ra imm 4 fun v => BitVec.ofInt 64 (signed 32 v))

/-- LDU32 (R94, R104). -/
def execLdu32 (l : Fin 256) (rd ra : BitVec 5) (imm : W16) (s : State) : Answer :=
  .next (s.native l fun s => s.load l rd ra imm 4 fun v => BitVec.ofNat 64 v)

/-- LD64 (R94, R104). -/
def execLd64 (l : Fin 256) (rd ra : BitVec 5) (imm : W16) (s : State) : Answer :=
  .next (s.native l fun s => s.load l rd ra imm 8 fun v => BitVec.ofNat 64 v)

/-- ST8 (R94, R95, R104): field [25:21] names the source. -/
def execSt8 (l : Fin 256) (rd ra : BitVec 5) (imm : W16) (s : State) : Answer :=
  .next (s.native l fun s => s.store l rd ra imm 1)

/-- ST16 (R94, R95, R104): field [25:21] names the source. -/
def execSt16 (l : Fin 256) (rd ra : BitVec 5) (imm : W16) (s : State) : Answer :=
  .next (s.native l fun s => s.store l rd ra imm 2)

/-- ST32 (R94, R95, R104): field [25:21] names the source. -/
def execSt32 (l : Fin 256) (rd ra : BitVec 5) (imm : W16) (s : State) : Answer :=
  .next (s.native l fun s => s.store l rd ra imm 4)

/-- ST64 (R94, R95, R104): field [25:21] names the source. -/
def execSt64 (l : Fin 256) (rd ra : BitVec 5) (imm : W16) (s : State) : Answer :=
  .next (s.native l fun s => s.store l rd ra imm 8)

/-! ### Image access -/

/-- IMLD (R107); bit 20 must be 0 (R102). -/
def execImld (l : Fin 256) (rd : BitVec 5) (lii : BitVec 21) (s : State) : Answer :=
  .next (s.native l fun s =>
    if lii.getLsbD 20 then s.laneFaultOpen l 0x01 else s.imgLoad l rd lii.toNat)

/-- IMST (R108); bit 20 must be 0 (R102). -/
def execImst (l : Fin 256) (rd : BitVec 5) (lii : BitVec 21) (s : State) : Answer :=
  .next (s.native l fun s =>
    if lii.getLsbD 20 then s.laneFaultOpen l 0x01 else s.imgStore l ((s.lane l).reg rd) lii.toNat)

/-- IMLDX: LII = w[ra] + sext(imm16) (R104, R107). -/
def execImldx (l : Fin 256) (rd ra : BitVec 5) (imm : W16) (s : State) : Answer :=
  .next (s.native l fun s => s.imgLoad l rd ((s.lane l).ea ra imm).toNat)

/-- IMSTX: LII = w[ra] + sext(imm16) (R104, R108). -/
def execImstx (l : Fin 256) (rd ra : BitVec 5) (imm : W16) (s : State) : Answer :=
  .next (s.native l fun s => s.imgStore l ((s.lane l).reg rd) ((s.lane l).ea ra imm).toNat)

/-! ### Control transfer -/

/-- BREQ (R104): branch if ra = rb. -/
def execBreq (l : Fin 256) (ra rb : BitVec 5) (off : W16) (s : State) : Answer :=
  .next (s.branch l ra rb off fun a b => decide (a = b))

/-- BRNE (R104): branch if ra ≠ rb. -/
def execBrne (l : Fin 256) (ra rb : BitVec 5) (off : W16) (s : State) : Answer :=
  .next (s.branch l ra rb off fun a b => decide (a ≠ b))

/-- BRLTS (R104): branch if ra < rb signed. -/
def execBrlts (l : Fin 256) (ra rb : BitVec 5) (off : W16) (s : State) : Answer :=
  .next (s.branch l ra rb off fun a b => a.slt b)

/-- BRGES (R104): branch if ra ≥ rb signed. -/
def execBrges (l : Fin 256) (ra rb : BitVec 5) (off : W16) (s : State) : Answer :=
  .next (s.branch l ra rb off fun a b => !(a.slt b))

/-- BRLTU (R104): branch if ra < rb unsigned. -/
def execBrltu (l : Fin 256) (ra rb : BitVec 5) (off : W16) (s : State) : Answer :=
  .next (s.branch l ra rb off fun a b => a.ult b)

/-- BRGEU (R104): branch if ra ≥ rb unsigned. -/
def execBrgeu (l : Fin 256) (ra rb : BitVec 5) (off : W16) (s : State) : Answer :=
  .next (s.branch l ra rb off fun a b => !(a.ult b))

/-- JREL (R104): rd = PC + 4; PC = PC + 4 × sext(imm21). -/
def execJrel (l : Fin 256) (rd : BitVec 5) (imm : BitVec 21) (s : State) : Answer :=
  .next (s.native l fun s => s.jump l rd ((s.lane l).pc + 4 * imm.signExtend 64))

/-- JIND (R99, R104): rd = PC + 4; PC = w[ra] + sext(imm16). -/
def execJind (l : Fin 256) (rd ra : BitVec 5) (imm : W16) (s : State) : Answer :=
  .next (s.native l fun s => s.jump l rd ((s.lane l).ea ra imm))

/-! ### System -/

/-- WAITEV (R130). -/
def execWaitev (l : Fin 256) (rd ra rb : BitVec 5) (s : State) : Answer :=
  .next (s.native l fun s => s.noFields l rd ra rb fun s => s.waitev l)

/-- RETEV (R128). -/
def execRetev (l : Fin 256) (rd ra rb : BitVec 5) (s : State) : Answer :=
  .next (s.native l fun s => s.noFields l rd ra rb fun s => s.retev l)

/-- RDTIME (R109): TIME32 of corrected time now. -/
def execRdtime (l : Fin 256) (rd ra rb : BitVec 5) (s : State) : Answer :=
  .next (s.native l fun s => s.noFields l 0 ra rb fun s => s.retireReg l rd (s.now32.setWidth 64))

/-- RDBND (R109): TIME32 of the boundary of the running task's class cycle. -/
def execRdbnd (l : Fin 256) (rd ra rb : BitVec 5) (s : State) : Answer :=
  .next (s.native l fun s => s.noFields l 0 ra rb fun s => s.retireReg l rd ((lo32 (s.lane l).bnd).setWidth 64))

/-- RDCTR (R109). -/
def execRdctr (l : Fin 256) (rd ra rb : BitVec 5) (s : State) : Answer :=
  .next (s.native l fun s => s.noFields l 0 0 rb fun s =>
    let x := s.lane l
    s.retireReg l rd (s.ctr.rdctr (taskPart x.task) (x.reg ra)))

/-- YIELD (R104, R129); rd and rb must be 0 (R103). -/
def execYieldPass (l : Fin 256) (rd ra rb : BitVec 5) (s : State) : Answer :=
  .next (s.native l fun s => s.noFields l rd 0 rb fun s => s.yield_ l ra)

end Sys2Proof.Machine
end

