-- ==== Sys2Proof/Machine/BitLogic.lean ====
section
/-! DEFINITION. The meanings of the bit-logic instructions (R116 to R123). The operand field holds bits [25:0]: the LII in [25:6] and the bit number in [5:0] (R117). -/
namespace Sys2Proof.Machine

/-- The LII of an operand, and its bit number (R117). -/
def blLii (f : BitVec 26) : Nat := (f.extractLsb' 6 20).toNat
def blBit (f : BitVec 26) : Nat := (f.extractLsb' 0 6).toNat

/-- LII 0xF_FFFF names the scratch word S (R117). -/
def liiS : Nat := 0xFFFFF

/-- A bit of a word, and the word with a bit replaced. -/
def setBit64 (v : W64) (i : Nat) (b : Bool) : W64 :=
  if b then v ||| BitVec.twoPow 64 i else v &&& ~~~(BitVec.twoPow 64 i)

/-- A bit-logic instruction issues on a lane in a bit-logic pass (R103, R116). -/
def State.bitIssue (s : State) (l : Nat) (body : State → State) : State :=
  let x := s.lane l
  if x.issues && x.bitLogic then s.issue l body else s

/-- An operation without an operand: bits [25:0] must be zero (R117). -/
def State.bitPlain (s : State) (l : Nat) (f : BitVec 26) (body : State → State) : State :=
  s.bitIssue l fun s => if f ≠ 0 then s.laneFaultOpen l 0x01 else body s

/-- GUARD_MISS of an LII that is granted but not BITS, or not preloaded (R118, R119, R121): the Access Guard has not refused it. -/
def State.bitMiss (s : State) (l lii : Nat) : State :=
  let x := s.lane l
  let k := ((s.findTask x.task).map (·.cls)).getD ((x.curCls).getD 0)
  let kw := ((s.liiEntry k lii).map (·.cls)).getD k
  s.laneFault l 0x05 (BitVec.ofNat 32 lii) (imgAddr (s.curBank kw) lii)

/-- An operation on an operand bit: from S, or from the image word that IMLD would return, complemented in the coded pass (R116, R118, R120). -/
def State.bitRead (s : State) (l : Nat) (f : BitVec 26) (op : (coded acc b : Bool) → Bool) : State :=
  s.bitIssue l fun s =>
    let x := s.lane l
    if blLii f = liiS then s.retire l fun y => { y with acc := op x.pass x.acc (x.scratch.getLsbD (blBit f)) }
    else match s.imgRead l (blLii f) with
      | .miss sys s => s.guardMiss l (blLii f) sys
      | .wait => s
      | .word tag v s =>
        if tag ≠ .bits then s.bitMiss l (blLii f)
        else (s.countLane l 0x03).retire l fun y => { y with acc := op x.pass x.acc (v.getLsbD (blBit f) != x.pass) }

/-- The bundle word of an LII. -/
def Lane.bundleWord (x : Lane) (lii : Nat) : W64 := ((x.curBundle.find? fun w => decide (w.lii = lii)).map (·.val)).getD 0

/-- One bit of a bundle word replaced in place (R119). -/
def Lane.bundleBit (x : Lane) (lii i : Nat) (b : Bool) : Lane :=
  x.setBundle (x.curBundle.map fun w => if w.lii = lii then { w with val := setBit64 w.val i b } else w)

/-- The check of a store: the LII has been preloaded and the task may write it (R119, R300). -/
def State.bitStoreOk (s : State) (l lii : Nat) (body : State → State) : State :=
  if lii ∉ (s.lane l).bun.pre then s.bitMiss l lii
  else
    let (ok, a, s) := s.imgStoreOk l lii
    if !ok then s.guardMiss l lii a else body (s.countLane l 0x04)

/-- A store of an operand bit; `op` answers none where the bit stays (R119, R120). -/
def State.bitWrite (s : State) (l : Nat) (f : BitVec 26) (op : (coded acc : Bool) → Option Bool) : State :=
  s.bitIssue l fun s =>
    let x := s.lane l
    let v := op x.pass x.acc
    if blLii f = liiS then
      s.retire l fun y => match v with
        | some b => { y with scratch := setBit64 y.scratch (blBit f) b }
        | none => y
    else s.bitStoreOk l (blLii f) fun s => s.retire l fun y => match v with
        | some b => y.bundleBit (blLii f) (blBit f) b
        | none => y

/-- EP and EN: m is read from the preloaded bundle word as it stands, and m = old ACC afterwards (R120, R121). -/
def State.bitEdge (s : State) (l : Nat) (f : BitVec 26) (op : (coded acc m : Bool) → Bool) : State :=
  s.bitIssue l fun s =>
    let x := s.lane l
    if blLii f = liiS then s.laneFaultOpen l 0x01
    else s.bitStoreOk l (blLii f) fun s => s.retire l fun y =>
      { y.bundleBit (blLii f) (blBit f) x.acc with acc := op x.pass x.acc ((x.bundleWord (blLii f)).getLsbD (blBit f)) }

/-- POPA, POPO, POP and PEEK: the top entry, BSTACK_UNF when the stack is empty (R123); PEEK keeps it. -/
def State.bitPop (s : State) (l : Nat) (f : BitVec 26) (keep : Bool) (op : (coded top acc : Bool) → Bool) : State :=
  s.bitPlain l f fun s =>
    let x := s.lane l
    match x.stack with
    | [] => s.laneFaultOpen l 0x11
    | t :: r => s.retire l fun y => { y with acc := op x.pass t x.acc, stack := if keep then x.stack else r }

/-- NOT, ONE and ZERO: the new ACC. -/
def State.bitAcc (s : State) (l : Nat) (f : BitVec 26) (op : (coded acc : Bool) → Bool) : State :=
  s.bitPlain l f fun s =>
    let x := s.lane l
    s.retire l fun y => { y with acc := op x.pass x.acc }

/-- A jump: bits [5:0] are 0; the target is 4 × bits [25:6]; a target outside IM or L_XWIN raises FETCH when the jump issues, taken or not (R122; log 16). -/
def State.bitJump (s : State) (l : Nat) (f : BitVec 26) (taken : (coded acc : Bool) → Bool) : State :=
  s.bitIssue l fun s =>
    let x := s.lane l
    let target := blLii f * 4
    if blBit f ≠ 0 then s.laneFaultOpen l 0x01
    else if 0x20000 ≤ target ∨ !inWindow x.xwin target then s.laneFault l 0x02 (BitVec.ofNat 32 target)
    else if !taken x.pass x.acc then s.retire l id
    else s.retireJump l id (BitVec.ofNat 64 target)

/-- BL_NOP (R120). -/
def execBlNop (l : Fin 256) (f : BitVec 26) (s : State) : Answer := .next (s.bitPlain l f fun s => s.retire l id)

/-- BL_LD (R120). -/
def execBlLd (l : Fin 256) (f : BitVec 26) (s : State) : Answer := .next (s.bitRead l f fun _ _ b => b)

/-- BL_LDN (R120). -/
def execBlLdn (l : Fin 256) (f : BitVec 26) (s : State) : Answer := .next (s.bitRead l f fun _ _ b => !b)

/-- BL_AND (R120): primary and coded column. -/
def execBlAnd (l : Fin 256) (f : BitVec 26) (s : State) : Answer := .next (s.bitRead l f fun coded acc b => if coded then acc || b else acc && b)

/-- BL_ANDN (R120): primary and coded column. -/
def execBlAndn (l : Fin 256) (f : BitVec 26) (s : State) : Answer := .next (s.bitRead l f fun coded acc b => if coded then acc || !b else acc && !b)

/-- BL_OR (R120): primary and coded column. -/
def execBlOr (l : Fin 256) (f : BitVec 26) (s : State) : Answer := .next (s.bitRead l f fun coded acc b => if coded then acc && b else acc || b)

/-- BL_ORN (R120): primary and coded column. -/
def execBlOrn (l : Fin 256) (f : BitVec 26) (s : State) : Answer := .next (s.bitRead l f fun coded acc b => if coded then acc && !b else acc || !b)

/-- BL_XOR (R120): primary and coded column. -/
def execBlXor (l : Fin 256) (f : BitVec 26) (s : State) : Answer := .next (s.bitRead l f fun coded acc b => if coded then !(acc ^^ b) else acc ^^ b)

/-- BL_XNOR (R120): primary and coded column. -/
def execBlXnor (l : Fin 256) (f : BitVec 26) (s : State) : Answer := .next (s.bitRead l f fun coded acc b => if coded then acc ^^ b else !(acc ^^ b))

/-- BL_ST (R120): b = ACC. -/
def execBlSt (l : Fin 256) (f : BitVec 26) (s : State) : Answer := .next (s.bitWrite l f fun _ acc => some acc)

/-- BL_STN (R120): b = ¬ACC. -/
def execBlStn (l : Fin 256) (f : BitVec 26) (s : State) : Answer := .next (s.bitWrite l f fun _ acc => some (!acc))

/-- BL_SET (R120): the bit is set if ACC is 1; in the coded pass cleared if ACC is 0. -/
def execBlSet (l : Fin 256) (f : BitVec 26) (s : State) : Answer := .next (s.bitWrite l f fun coded acc => if coded then (if acc then none else some false) else (if acc then some true else none))

/-- BL_RST (R120): the bit is cleared if ACC is 1; in the coded pass set if ACC is 0. -/
def execBlRst (l : Fin 256) (f : BitVec 26) (s : State) : Answer := .next (s.bitWrite l f fun coded acc => if coded then (if acc then none else some true) else (if acc then some false else none))

/-- BL_EP (R120, R121): the rising edge; the coded pass keeps the complement of ¬ACC ∧ m. -/
def execBlEp (l : Fin 256) (f : BitVec 26) (s : State) : Answer := .next (s.bitEdge l f fun coded acc m => if coded then !(!acc && m) else acc && !m)

/-- BL_EN (R120, R121): the falling edge; the coded pass keeps the complement of ACC ∧ ¬m. -/
def execBlEn (l : Fin 256) (f : BitVec 26) (s : State) : Answer := .next (s.bitEdge l f fun coded acc m => if coded then !(acc && !m) else !acc && m)

/-- BL_PUSH (R123): BSTACK_OVF with 16 entries. -/
def execBlPush (l : Fin 256) (f : BitVec 26) (s : State) : Answer := .next (s.bitPlain l f fun s =>
    if 16 ≤ (s.lane l).stack.length then s.laneFaultOpen l 0x10 else s.retire l fun y => { y with stack := y.acc :: y.stack })

/-- BL_POPA (R120). -/
def execBlPopa (l : Fin 256) (f : BitVec 26) (s : State) : Answer := .next (s.bitPop l f false fun coded top acc => if coded then top || acc else top && acc)

/-- BL_POPO (R120). -/
def execBlPopo (l : Fin 256) (f : BitVec 26) (s : State) : Answer := .next (s.bitPop l f false fun coded top acc => if coded then top && acc else top || acc)

/-- BL_POP (R120). -/
def execBlPop (l : Fin 256) (f : BitVec 26) (s : State) : Answer := .next (s.bitPop l f false fun _ top _ => top)

/-- BL_PEEK (R120). -/
def execBlPeek (l : Fin 256) (f : BitVec 26) (s : State) : Answer := .next (s.bitPop l f true fun _ top _ => top)

/-- BL_NOT (R120). -/
def execBlNot (l : Fin 256) (f : BitVec 26) (s : State) : Answer := .next (s.bitAcc l f fun _ acc => !acc)

/-- BL_ONE (R120). -/
def execBlOne (l : Fin 256) (f : BitVec 26) (s : State) : Answer := .next (s.bitAcc l f fun coded _ => !coded)

/-- BL_ZERO (R120). -/
def execBlZero (l : Fin 256) (f : BitVec 26) (s : State) : Answer := .next (s.bitAcc l f fun coded _ => coded)

/-- BL_JC (R122): jumps if ACC is 1, in the coded pass if it is 0. -/
def execBlJc (l : Fin 256) (f : BitVec 26) (s : State) : Answer := .next (s.bitJump l f fun coded acc => acc != coded)

/-- BL_JCN (R122): jumps if ACC is 0, in the coded pass if it is 1. -/
def execBlJcn (l : Fin 256) (f : BitVec 26) (s : State) : Answer := .next (s.bitJump l f fun coded acc => acc == coded)

/-- BL_JMP (R122). -/
def execBlJmp (l : Fin 256) (f : BitVec 26) (s : State) : Answer := .next (s.bitJump l f fun _ _ => true)

/-- BL_END (R120, R129): ends the pass as YIELD in USR mode; what is left on the stack is discarded (R123). -/
def execBlEnd (l : Fin 256) (f : BitVec 26) (s : State) : Answer := .next (s.bitPlain l f fun s => (s.countLane l 0x02).endPass l)

end Sys2Proof.Machine
end

