-- ==== Sys2Proof/Machine/RecorderUnit.lean ====
section
/-! DEFINITION. The Event Recorder beyond the acceptance of records (Ops): its move into MRAM (R421 to R423), tokens and suppressed runs (R424, R425), clearing (R427), what a partition sees (R428), the views of the host window (R429 to R431) and the tags that bind them (R323). -/
namespace Sys2Proof.Machine

/-! ### From the staging queue into MRAM -/

/-- The circulating area holds the newest 262,144 records, the first-fault area 4,096 entries (R422). -/
def circMax : Nat := 262144
def ffMax : Nat := 4096

/-- One record of the staging queue reaches MRAM (R421, R422). -/
def Recorder.moveOne (r : Recorder) : Recorder :=
  match r.staging with
  | [] => r
  | (e, f) :: rest =>
    let c := r.circ ++ [e]
    { r with staging := rest, circ := if circMax < c.length then c.drop 1 else c, ff := if f && decide (r.ff.length < ffMax) then r.ff ++ [e] else r.ff }

/-- When room has returned, RECORDER_LOST with the count comes before any other record (R421). -/
def Recorder.tellLost (r : Recorder) (w : RecAt) : Recorder :=
  if r.lostCnt = 0 ∨ stagingMax < r.staging.length + 2 then r
  else { r with lostCnt := 0 }.accept w (mkRec (lo32 w.t) 0x0003 0 0 (sat32 r.lostCnt) 0 0 0)

/-- RECORDER_MRAM_WRITE (R421 to R423). -/
def execRecorderMramWrite (s : State) : Host.Outcome State Fault Refusal :=
  .next (if s.powered then { s with rcd := s.rcd.moveOne.tellLost s.recAt } else s)

/-- The staging queue is emptied into MRAM (R423, R456). -/
def Recorder.flush (r : Recorder) (w : RecAt) : Recorder :=
  (List.range (r.staging.length + 3)).foldl (fun (r : Recorder) _ => r.moveOne.tellLost w) r

/-- TOKEN_REFILL (R424): the tokens due by now are in the bucket. -/
def execTokenRefill (code : W16) (part : Fin 512) (s : State) : Host.Outcome State Fault Refusal :=
  .next (match s.rcd.bucket code part with
    | some b => { s with rcd := s.rcd.setBucket (b.fill (s.rcd.mode code) s.clk) }
    | none => s)

/-- SUPPRESSED (R425): the second of a run of drops has ended. -/
def execSuppressed (code : W16) (part : Fin 512) (s : State) : Host.Outcome State Fault Refusal :=
  .next (match s.rcd.bucket code part with
    | none => s
    | some b => match b.run with
      | none => s
      | some e =>
        if s.clk < e then s
        else if b.drops = 0 then { s with rcd := s.rcd.setBucket { b with run := none } }
        else
          let r := s.rcd.setBucket { b with run := some (e + sec), drops := 0, first := 0, last := 0 }
          { s with rcd := r.accept s.recAt (mkRec s.now32 0x00FE b.part 0 (code.setWidth 32) (sat32 b.drops) b.first b.last) })

/-- REC_CLEAR (R427): both areas and the queue are emptied; a TIME_ANCHOR and REC_CLEARED are the next two records. -/
def Recorder.clear (r : Recorder) (w : RecAt) (hist : Bool) (part : Nat) : Recorder :=
  let r := { r with staging := [], circ := [], ff := [], ffCount := 0, lostCnt := 0, ffAnchor := some w.clk, hist := if hist then [] else r.hist }
  let anchor := r.seq
  let r := r.enqueue (anchorRec w) true
  r.enqueue (mkRec (lo32 w.t) 0x0002 0 0 anchor (BitVec.ofNat 32 part) 0 0) true

/-! ### What a partition sees (R417, R428, R430) -/

/-- The 32 bytes of a record (R417). -/
def Rec.bytes (e : Rec) : List Byte :=
  leBytes 4 e.seq.toNat ++ leBytes 4 e.time.toNat ++ leBytes 2 e.code.toNat ++ leBytes 2 (e.part % 512 + e.sev * 2 ^ 9 + e.srcCls * 2 ^ 12)
    ++ leBytes 4 e.source.toNat ++ leBytes 4 e.p0.toNat ++ leBytes 4 e.p1.toNat ++ leBytes 4 e.p2.toNat ++ leBytes 4 e.p3.toNat

/-- The view of a partition (R428). -/
def Rec.seenBy (e : Rec) (part : Nat) : Bool :=
  decide (part = 0) || decide (e.part = part) || decide (e.code = 0x0001) || decide (e.code = 0x0002)

/-- The SEQ that MRAM takes next. -/
def Recorder.head (r : Recorder) : W32 := match r.staging with
  | e :: _ => e.1.seq
  | [] => r.seq

/-- The oldest SEQ held in the circulating area. -/
def Recorder.oldest (r : Recorder) : W32 := match r.circ with
  | e :: _ => e.seq
  | [] => r.head

/-- A record with one of its 32 bytes written (R417). -/
def Rec.patch (e : Rec) (i : Nat) (b : Byte) : Rec :=
  let bs := e.bytes.set i b
  let w (o : Nat) : W32 := BitVec.ofNat 32 (field bs o 4)
  let attr := field bs 10 2
  { seq := w 0, time := w 4, code := BitVec.ofNat 16 (field bs 8 2), part := bitsAt attr 0 9, sev := bitsAt attr 9 3, srcCls := bitsAt attr 12 4,
    source := w 12, p0 := w 16, p1 := w 20, p2 := w 24, p3 := w 28 }

/-- An address of the recorder's region that lies in a record: whether in the first-fault area, and the record's place in its list; in the circulating area a record stands at SEQ modulo 262,144 (R270, R422, R423; log 76). -/
def Recorder.placeOf (r : Recorder) (a : Nat) : Option (Bool × Nat × Nat) :=
  let o := a - 0x5005800000
  if a < 0x5005800000 then none
  else if o < 0x20000 then (if o / 32 < r.ff.length then some (true, o / 32, o % 32) else none)
  else if o < 0x820000 then
    let slot := (o - 0x20000) / 32
    let i := (slot + circMax - r.oldest.toNat % circMax) % circMax
    if i < r.circ.length then some (false, i, o % 32) else none
  else none

/-- A byte of the recorder's region that lies in a record. -/
def Recorder.byteAt (r : Recorder) (a : Nat) : Option Byte :=
  (r.placeOf a).bind fun p => ((if p.1 then r.ff else r.circ)[p.2.1]?).bind fun e => e.bytes[p.2.2]?

/-- A byte of a record is written where it stands. -/
def Recorder.poke (r : Recorder) (p : Bool × Nat × Nat) (b : Byte) : Recorder :=
  let put (es : List Rec) : List Rec := es.modify p.2.1 fun e => e.patch p.2.2 b
  if p.1 then { r with ff := put r.ff } else { r with circ := put r.circ }

/-- A reading from a cursor: records with the cursor that follows each, LOST, head, oldest, LOSTN, next. -/
abbrev Reading := List (W32 × Rec) × Bool × W32 × W32 × W32 × W32

/-- Up to n records of a view from a cursor on (R430, R432). -/
def Recorder.read (r : Recorder) (part : Nat) (firstFault : Bool) (cur : W32) (n : Nat) : Reading :=
  if firstFault then
    let ix := (List.range r.ff.length).filterMap fun i => (r.ff[i]?).map fun e => (BitVec.ofNat 32 (i + 1), e)
    let got := (ix.filter fun x => decide (cur.toNat < x.1.toNat) && Rec.seenBy x.2 part).take n
    let head := BitVec.ofNat 32 r.ff.length
    (got, false, head, 0, 0, if got.length < n then head else (got.getLast?.map (·.1)).getD head)
  else
    let old := r.oldest
    let lost := decide ((cur - old).toInt < 0)
    let start := if lost then old else cur
    let got := (r.circ.filter fun e => decide (0 ≤ (e.seq - start).toInt) && Rec.seenBy e part).take n
    let got := got.map fun e => (e.seq + 1, e)
    let next := if got.length < n then r.head else (got.getLast?.map (·.1)).getD r.head
    (got, lost, r.head, old, if lost then old - cur else 0, next)

/-! ### Views (R429 to R431) -/

def State.view (s : State) (n : Nat) : View := tget View.reset s.rcd.views n
def State.setView (s : State) (n : Nat) (v : View) : State := { s with rcd := { s.rcd with views := tput s.rcd.views n v } }

/-- A write of E_VCTL sets AREA and ADV with every OP (R431). -/
def View.ctl (v : View) (ctl : W32) : View :=
  let n := bitsAt ctl.toNat 8 8
  { v with area := ctl.getLsbD 16, adv := if 1 ≤ n ∧ n ≤ 32 then n else v.adv }

/-- LOAD: READY is cleared and the snapshot taken; until READY the records read as zeros (R430). -/
def State.loadView (s : State) (n : Nat) (v : View) : State :=
  s.setView n { v with ready := false, data := [], snap := some (s.rcd.read n v.area v.cur 32) }

/-- The cursor after the ADV-th record of the snapshot, or E_NEXT (R430). -/
def View.advanced (v : View) : W32 :=
  if v.data.length ≤ v.adv then v.next else ((v.data[v.adv - 1]?).map (·.1)).getD v.next

/-- A write of E_VCTL with OP LOAD, ADVANCE or UNBIND, or none; an unbound view ignores it (R429 to R431). -/
def State.loadCtl (s : State) (n : Nat) (ctl : W32) : State :=
  let v := s.view n
  if v.bound.isNone then s else s.loadView n (v.ctl ctl)
def State.advanceCtl (s : State) (n : Nat) (ctl : W32) : State :=
  let v := s.view n
  if v.bound.isNone then s else s.loadView n { v.ctl ctl with cur := (v.ctl ctl).advanced }
def State.unbindCtl (s : State) (n : Nat) (ctl : W32) : State :=
  let v := s.view n
  if v.bound.isNone then s else s.setView n { v.ctl ctl with bound := none }
def State.plainCtl (s : State) (n : Nat) (ctl : W32) : State :=
  let v := s.view n
  if v.bound.isNone then s else s.setView n (v.ctl ctl)

/-- LOAD (R430). -/
def execLoad (n : Fin 512) (ctl : W32) (s : State) : Host.Outcome State Fault Refusal := .next (s.loadCtl n ctl)

/-- ADVANCE (R430): the cursor passes ADV records, then the view loads. -/
def execAdvance (n : Fin 512) (ctl : W32) (s : State) : Host.Outcome State Fault Refusal := .next (s.advanceCtl n ctl)

/-- UNBIND (R429). -/
def execUnbind (n : Fin 512) (ctl : W32) (s : State) : Host.Outcome State Fault Refusal := .next (s.unbindCtl n ctl)

/-- SNAPSHOT_READY (R430): READY is set and the registers hold the snapshot. -/
def execSnapshotReady (n : Fin 512) (s : State) : Host.Outcome State Fault Refusal :=
  .next (
    let v := s.view n
    match v.snap with
    | none => s
    | some (es, lost, head, old, lostN, next) =>
      s.setView n { v with ready := true, data := es, lost := lost, head := head, oldest := old, lostN := lostN, next := next, snap := none })

/-- A tag written to E_SESS_HI binds the view, or counts as a failed OPEN_SESSION on mailbox n (R323, R429). -/
def State.bindView (s : State) (n : Nat) (v : W32) : State :=
  let x := s.view n
  let tag := mk64 x.sessLo v
  if s.mb.sessions.any fun y => decide (y.tag = tag) && decide (y.part = n) then s.setView n { x with bound := some tag }
  else (s.setView n { x with bound := none }).authFail n n

/-- E_SESS_HI_WRITE (R323, R429). -/
def execESessHiWrite (n : Fin 512) (v : W32) (s : State) : Host.Outcome State Fault Refusal := .next (s.bindView n v)

/-- A register of a view as the host reads it (R429, R431); `none` where the window has no register. -/
def View.reg (v : View) (off : Nat) : Option W32 :=
  let b := v.bound.isSome
  let open_ (x : W32) : Option W32 := some (if b then x else 0)
  match off with
  | 0x000 | 0x004 => some 0
  | 0x008 => open_ (BitVec.ofNat 32 (bit v.area * 2 ^ 16 + v.adv % 256 * 2 ^ 8))
  | 0x00C => some (BitVec.ofNat 32 (bit b * 2 ^ 31 + bit v.ready * 2 ^ 30 + bit v.lost * 2 ^ 29 + min v.data.length 32))
  | 0x010 => open_ v.cur
  | 0x014 => open_ v.head
  | 0x018 => open_ v.oldest
  | 0x01C => open_ v.lostN
  | 0x020 => open_ v.next
  | _ =>
    if 0x400 ≤ off ∧ off < 0x800 ∧ off % 4 = 0 then
      let i := (off - 0x400) / 32
      let x := match v.data[i]? with
        | some (_, e) => if v.ready then BitVec.ofNat 32 (field e.bytes ((off - 0x400) % 32) 4) else 0
        | none => 0
      open_ x
    else none

/-- A write to a view's registers; E_VCTL and E_SESS_HI act as their rows do (R429 to R431). -/
def State.writeView (s : State) (n off : Nat) (v : W32) : State :=
  let x := s.view n
  match off with
  | 0x000 => s.setView n { x with sessLo := v }
  | 0x004 => s.bindView n v
  | 0x008 =>
    match bitsAt v.toNat 0 2 with
    | 1 => s.loadCtl n v
    | 2 => s.advanceCtl n v
    | 3 => s.unbindCtl n v
    | _ => s.plainCtl n v
  | 0x010 => if x.bound.isSome then s.setView n { x with cur := v } else s
  | _ => s

end Sys2Proof.Machine
end

