-- ==== Sys2Proof/Machine/Counters.lean ====
section
/-! DEFINITION. The registers of the Counter Unit (R435, R439 to R442): enables written in pairs, configuration and values, who may read, and the host's windows. -/
namespace Sys2Proof.Machine

def Ctr.put (c : Ctr) (i : Nat) (k : Counter) : Ctr := { c with cnt := tput c.cnt i k }

/-- C_EN_LO waits for C_EN_HI; then both halves take effect together (R435). -/
def Ctr.enable (c : Ctr) (hi : W32) : Ctr := { c with en := mk64 ((c.enLo).getD (lo32 c.en)) hi, enLo := none }

/-- C_EN_HI_WRITE (R435). -/
def execCEnHiWrite (v : W32) (s : State) : Host.Outcome State Fault Refusal := .next ({ s with ctr := s.ctr.enable v })

/-- C_UNLOCK_HI binds a partition's block, or counts as a failed OPEN_SESSION (R323, R429, R442). -/
def State.bindCounters (s : State) (n : Nat) (v : W32) : State :=
  let tag := mk64 (tget 0 s.ctr.unlockLo n) v
  if s.mb.sessions.any fun y => decide (y.tag = tag) && decide (y.part = n) then { s with ctr := { s.ctr with bind := tput s.ctr.bind n tag } }
  else { s with ctr := { s.ctr with bind := terase s.ctr.bind n } }.authFail n n

/-- C_UNLOCK_HI_WRITE (R442). -/
def execCUnlockHiWrite (n : Fin 512) (v : W32) (s : State) : Host.Outcome State Fault Refusal := .next (s.bindCounters n v)

/-- A counter as a partition reads it (R440). -/
def Ctr.valueFor (c : Ctr) (part i : Nat) : W32 := if c.readable part i then (c.get i).val else 0

/-- Reserved bits of the configuration words read 0; CHAIN is 0 on an even counter (R441). -/
def evtMask (i : Nat) : W32 := if i % 2 = 0 then 0xFF7FF000 else 0xFFFFF000
def selMask : W32 := 0x01FF01FF
def pageMask : W32 := 0x0FFFFFFF
def aclMask : W32 := 0x7FF

/-- A register of block 0x1D (R441). DEDUCED (log 46): from a write of C_EN_LO to that of C_EN_HI, C_EN_LO reads the value written and held (R4, R435). -/
def Ctr.reg (c : Ctr) (off : Nat) : Option W32 :=
  match off with
  | 0x000 => some (BitVec.ofNat 32 (bit c.halt))
  | 0x008 => some (lo32 c.ovf)
  | 0x00C => some (hi32 c.ovf)
  | 0x010 => some (c.enLo.getD (lo32 c.en))
  | 0x014 => some (hi32 c.en)
  | _ =>
    if off % 4 ≠ 0 then none
    else if 0x100 ≤ off ∧ off < 0x500 then
      let k := c.get ((off - 0x100) / 16)
      some (match (off - 0x100) % 16 with | 0 => k.evt | 4 => k.sel | 8 => k.abase | _ => k.alim)
    else if 0x500 ≤ off ∧ off < 0x600 then some (c.get ((off - 0x500) / 4)).val
    else if 0x600 ≤ off ∧ off < 0x700 then some (c.get ((off - 0x600) / 4)).acl
    else none

/-- The event codes of R436. -/
def evCodes : List Nat :=
  [0x00, 0x01, 0x02, 0x03, 0x04, 0x05, 0x06, 0x07, 0x08, 0x09, 0x0A, 0x10, 0x11, 0x12, 0x13, 0x14, 0x20, 0x21, 0x22, 0x23,
    0x30, 0x31, 0x32, 0x33, 0x40, 0x41]

/-- EVENT as written, unless the code is reserved (R5). -/
def eventField (old v : W32) : W32 := if bitsAt v.toNat 24 8 ∈ evCodes then v &&& 0xFF000000 else old &&& 0xFF000000

/-- A write of a configuration word: discarded while the counter is enabled (R435, R441). -/
def Ctr.config (c : Ctr) (i part : Nat) (v : W32) : Ctr :=
  if c.en.getLsbD i then c
  else
    let k := c.get i
    c.put i (match part with
      | 0 => { k with evt := ((v &&& 0x00FFFFFF) ||| eventField k.evt v) &&& evtMask i }
      | 4 => { k with sel := v &&& selMask }
      | 8 => { k with abase := v &&& pageMask }
      | _ => { k with alim := v &&& pageMask })

/-- A write to block 0x1D by the service cores (R435, R441). -/
def Ctr.write (c : Ctr) (off : Nat) (v : W32) : Ctr :=
  match off with
  | 0x000 => { c with halt := v.getLsbD 0 }
  | 0x008 => { c with ovf := c.ovf &&& ~~~(v.setWidth 64) }
  | 0x00C => { c with ovf := c.ovf &&& ~~~(v.setWidth 64 <<< 32) }
  | 0x010 => { c with enLo := some v }
  | 0x014 => c.enable v
  | _ =>
    if off % 4 ≠ 0 then c
    else if 0x100 ≤ off ∧ off < 0x500 then c.config ((off - 0x100) / 16) ((off - 0x100) % 16) v
    else if 0x500 ≤ off ∧ off < 0x600 then
      let i := (off - 0x500) / 4
      c.put i { c.get i with val := v }
    else if 0x600 ≤ off ∧ off < 0x700 then
      let i := (off - 0x600) / 4
      c.put i { c.get i with acl := v &&& aclMask }
    else c

/-- A partition's block in the host window: counters, C_RSTAT (R442). -/
def Ctr.blockReg (c : Ctr) (n off : Nat) : Option W32 :=
  let b := (tfind c.bind n).isSome
  if off % 4 ≠ 0 then none
  else if off < 0x100 then some (if b then c.valueFor n (off / 4) else 0)
  else if off = 0x100 ∨ off = 0x104 then some 0
  else if off = 0x108 then some (BitVec.ofNat 32 (bit b))
  else none

end Sys2Proof.Machine
end

