-- ==== Sys2Proof/Machine/RingOps.lean ====
section
/-! DEFINITION. What happens to links and to frames that arrive: a link going DOWN and its notices (R179, R199), isolation (R241), receiving, forwarding and delivering (R183 to R195). -/
namespace Sys2Proof.Machine

/-! ### A link goes DOWN -/

/-- Isolation: Pair Link and both row ports DOWN within 45 µs, heartbeats received until then (R241). -/
def State.isolates (s : State) : Bool :=
  match s.pair.plDownAt, s.pair.eDownAt, s.pair.wDownAt, s.pair.lastHb with
  | some p, some e, some w, some h =>
    let first := min p (min e w)
    let last := max p (max e w)
    decide (last - first ≤ 45 * usec) && decide (first ≤ h + 12 * usec) && !s.portUp .e && !s.portUp .w && !s.portUp .pl
  | _, _, _, _ => false

/-- The module isolates itself: it stops committing and sending, drives no output, and an ACTIVE one becomes STANDBY UNSYNCED (R241). -/
def State.isolate (s : State) : State :=
  if s.mod.isolated || !s.isolates then s
  else
    let before := s.mod.st
    let s := s.record 0x060A 0 s.module 7 (BitVec.ofNat 32 before.code) 0 0
    let s := { s with mod := { s.mod with isolated := true }, trip := { s.trip with drive := 0 } }
    match before with
    | .active | .synced | .unsynced => s.toUnsynced
    | _ => s

/-- Notes when the Pair Link or a row port went DOWN (R241). -/
def State.noteDown (s : State) (p : Port) : State :=
  match p with
  | .pl => { s with pair := { s.pair with plDownAt := some s.clk } }
  | .e => { s with pair := { s.pair with eDownAt := some s.clk } }
  | .w => { s with pair := { s.pair with wDownAt := some s.clk } }
  | _ => s

/-- A ring notice of this module, repeated 5 µs and 10 µs later; `key` tells its repeats from others (R199, R202, R206). -/
def State.linkNotice (s : State) (key : Nat) (kind : Byte) (links : List LinkName) (t0 : W64) : State :=
  let s := s.sendNotice kind links t0
  ({ s with ring := { s.ring with repeats := tput s.ring.repeats key (2, links, kind) } }).after (.breakRepeat key) (5 * usec)

/-- The leader has to issue an epoch for a change of a ring (R203). -/
def State.leaderWork (s : State) (w : Work) : State :=
  if s.active ∧ s.pl.leader = some (pairOf s.module) ∧ !s.pl.todo.any fun q => decide (q.1 = w) then
    { s with pl := { s.pl with todo := s.pl.todo ++ [(w, none)] } }
  else s

/-- A link counts as DOWN in the ring-state table from the first notice of it on; an ACTIVE leader issues an epoch for it (R199, R203). -/
def State.breakLink (s : State) (l : LinkName) : State :=
  if s.ring.links.any fun e => decide (e.link = l) && e.downAt.isSome then s
  else
    let at_ := s.clk
    (s.setLink l fun e => { e with downAt := some at_ }).leaderWork .wrap

/-- A link works again that runs from its position to position b: with it go the entries of links that ran between the two before (R202, R203). -/
def State.mendLink (s : State) (l : LinkName) (b : Nat) : State :=
  let n := s.ringSize l.row
  let gone (e : LinkEntry) : Bool :=
    decide (e.link.row = l.row) && decide (e.link.ring = l.ring) && decide (dist n l.pos e.link.pos < max 1 (dist n l.pos b))
  if s.ring.links.any gone then
    { s with ring := { s.ring with links := s.ring.links.filter fun e => !gone e } }.leaderWork .mend
  else s

/-- A link is DOWN: LINK_DOWN with its cause (0 lock, 1 IDENT, 2 CRC), queued frames dropped, IDENT with the UP flag clear at once, and on a ring the RING_BREAK notice (R176, R179, R199). -/
def State.linkDown (s : State) (p : Port) (cause : Nat) : State :=
  let x := s.port p
  if x.st ≠ .up then s
  else
    let l := s.linkAt p
    let s := s.setPort p
      { x with st := .down, identOkAt := none, upSeen := false, crcTimes := [], txq := [], sending := [], susp := [],
               cnt := { x.cnt with down := x.cnt.down + 1 } }
    let s := s.record 0x0502 0 (Port.ix p) (BitVec.ofNat 32 cause) 0 0 0
    let s := (s.disarm (.identUp (Port.ix p))).disarm (.identSend (Port.ix p))
    let s := s.noteDown p
    let planned := decide (p ≠ .pl) && s.ring.links.any fun e => decide (e.link = l) && e.planT0.isSome
    let s := if planned then s else s.dropBreak p x.txq.length
    let s := (x.txq ++ x.sending.map (·.1)).foldl (fun (s : State) t => s.release t.org) s
    let s := if p = .pl then s else (s.breakLink l).linkNotice (Port.ix p) 0x02 [l] 0
    s.isolate

/-! ### Receiving -/

/-- What a member does with a frame that has arrived: it delivers it to itself or not, in the state after forwarding. -/
structure Recv where
  deliver : Bool
  s : State

/-- A ring port works: bypasses open, link UP (R204). -/
def State.onRing (s : State) (p : Port) : Bool :=
  s.portUp p && if p = .pl then true else if isRowPort p then !s.pins.bypEW else !s.pins.bypNS

/-- A CRC error counts on the receiving port; 8 within 1 ms take the link DOWN (R179, R186). -/
def State.crcError (s : State) (p : Port) : State :=
  let x := s.port p
  let ts := s.clk :: x.crcTimes.filter fun t => decide (s.clk - t ≤ msec)
  let s := s.setPort p { x with crcTimes := ts, cnt := { x.cnt with crcErr := x.cnt.crcErr + 1 } }
  let s := s.count (ctrEv 0x32 1 (Port.ix p))
  if 8 ≤ ts.length then s.linkDown p 2 else s

/-- A frame that has made 126 hops is dropped, counted and recorded (R184). -/
def State.hopLimit (s : State) (p : Port) (f : Frame) : State :=
  (s.portCnt p fun c => { c with hopLimit := c.hopLimit + 1 }).record 0x0506 0 (Port.ix p) (BitVec.ofNat 32 f.srcMod) (BitVec.ofNat 32 f.dstMod) 0 0

/-- A frame that came in goes on at a port: HOPS rises, the hop limit drops it; it enters a new ring on VC0, crosses a dateline to VC1, and its CRC is stomped where it came with a bad one (R184 to R186, R193). -/
def State.forwardNow (s : State) (inp outp : Port) (t : Tx) (newRing : Bool) : State :=
  let f := t.f
  if f.hops = 126 then s.hopLimit inp f
  else
    let g := { f with lenHops := f.lenHops + 0x200 }
    let g := if newRing then g.onVc 0 else g
    let g := if s.dateline outp then g.onVc 1 else g
    let g := { g with crc := if f.crcOk then g.goodCrc else ~~~g.goodCrc }
    (s.portCnt outp fun c => { c with fwd := c.fwd + 1 }).queue outp { t with f := g }

/-- A VC2 frame that the module forwards takes one of the 8 places of its input port until the next clock; with all full the oldest is dropped and counted (R195, R436). -/
def State.holdVc2 (s : State) (inp : Port) (v : Vc2) : State :=
  let x := s.port inp
  if x.vc2.length < 8 then s.setPort inp { x with vc2 := x.vc2 ++ [v] }
  else
    (s.setPort inp { x with vc2 := x.vc2.drop 1 ++ [v], cnt := { x.cnt with vc2Drop := x.cnt.vc2Drop + 1 } }).count
      (ctrEv 0x33 1 (Port.ix inp))

/-- Forwards a frame to some outputs: VC2 through a place of its input port, the others at once (R194, R195). -/
def State.forward (s : State) (inp : Port) (t : Tx) (outs : List (Port × Bool)) : State :=
  if outs.isEmpty then s
  else if t.f.vc = 2 then s.holdVc2 inp { f := t.f, body := t.body, outs := outs }
  else outs.foldl (fun (s : State) o => s.forwardNow inp o.1 t o.2) s

/-- The VC2 frames held at a port leave in arrival order. -/
def State.leaveVc2 (s : State) (p : Port) : State :=
  let x := s.port p
  if x.vc2.isEmpty then s
  else x.vc2.foldl (init := s.setPort p { x with vc2 := [] }) fun s v =>
    v.outs.foldl (fun (s : State) o => s.forwardNow p o.1 { f := v.f, body := v.body, org := none } o.2) s

/-- At each clock the held VC2 frames of every port leave (R195, R196). -/
def State.leaveAllVc2 (s : State) : State := [Port.n, .e, .s, .w, .pl].foldl (fun (s : State) p => s.leaveVc2 p) s

/-- The end of the segment was bypassed: it lies strictly between the sender on this port and this member (R188). -/
def State.passedEnd (s : State) (p : Port) (f : Frame) : Bool :=
  match (s.port p).far with
  | none => false
  | some m =>
    let row := isRowPort p
    let n := s.ringSize row
    let pos (x : Nat) : Nat := if row then colOf x else rowOf x
    let a := pos m
    let b := pos s.module
    let forward := decide (p = .w) || decide (p = .n)
    let between (t : Nat) : Bool :=
      if forward then decide (0 < dist n a t) && decide (dist n a t < dist n a b)
      else decide (0 < dist n t a) && decide (dist n t a < dist n b a)
    let c := pos f.dstMod
    between c && (!(row && decide (f.scope = 1)) || between (c + 1))

/-- The member is at the end of the segment the frame travels (R188). -/
def State.atEnd (s : State) (p : Port) (f : Frame) : Bool :=
  if isRowPort p then
    let c := colOf s.module
    decide (c = colOf f.dstMod) || (decide (f.scope = 1) && decide (c = colOf f.dstMod + 1))
  else decide (rowOf s.module = rowOf f.dstMod)

/-- The frame has reached its module or pair. -/
def State.atDst (s : State) (f : Frame) : Bool :=
  if f.scope = 1 then decide (pairOf s.module = pairOf f.dstMod) else decide (s.module = f.dstMod)

/-- Passes a frame across the Pair Link with PAIRX set (R190). -/
def State.passPair (s : State) (p : Port) (t : Tx) : State :=
  let g := { t.f with flags := t.f.flags ||| 0x04 }
  s.forwardNow p .pl { t with f := { g with crc := g.goodCrc } } true

/-- R190 at the first module of a pair: with ROLE the ACTIVE module delivers, without it both do. -/
def State.pairDeliver (s : State) (p : Port) (t : Tx) : Recv :=
  let f := t.f
  if f.scope ≠ 1 then ⟨true, s⟩
  else if f.role then
    if s.active then ⟨true, s⟩
    else if f.pairx then
      ⟨false, (s.portCnt p fun c => { c with roleMiss := c.roleMiss + 1 }).record 0x0507 0 (Port.ix p)
        (BitVec.ofNat 32 f.srcMod) (BitVec.ofNat 32 f.ty) 0 0⟩
    else ⟨false, s.passPair p t⟩
  else if f.pairx then ⟨true, s⟩
  else ⟨true, s.passPair p t⟩

/-- The way a turning member sends a frame along its second ring (R189). -/
def State.turnWay (s : State) (row : Bool) (f : Frame) : Option Bool :=
  if row then (s.rowWay (rowOf s.module) (colOf s.module) f.dstMod f.scope).map (·.2)
  else s.way false (colOf s.module) (rowOf s.module) (rowOf f.dstMod)

/-- A unicast frame at a member: delivered, turned, forwarded straight on, or dropped where its end was passed (R185, R188 to R190). -/
def State.unicast (s : State) (p : Port) (t : Tx) : Recv :=
  let f := t.f
  if s.atDst f then (if f.crcOk then s.pairDeliver p t else ⟨false, s⟩)
  else if p = .pl then ⟨false, s⟩
  else if s.atEnd p f then
    match s.turnWay (!isRowPort p) f with
    | some d => ⟨false, s.forward p t [(portTo (!isRowPort p) d, true)]⟩
    | none => ⟨false, s.unreachable p f.dstMod⟩
  else if s.passedEnd p f then ⟨false, s.unreachable p f.dstMod⟩
  else ⟨false, s.forward p t [(Port.across p, false)]⟩

/-- The outputs of a broadcast copy that turns into this member's other ring (R192). -/
def State.turnOuts (s : State) (row : Bool) : List (Port × Bool) :=
  let n := s.ringSize row
  let (ring, me) := if row then (rowOf s.module, colOf s.module) else (colOf s.module, rowOf s.module)
  let outs := s.outLinks row ring
  ([true, false].filter fun d => decide (0 < reach n outs me d)).map fun d => (portTo row d, true)

/-- The output of a broadcast copy straight on: within the reach of the member at which it entered this ring (R192, R198). -/
def State.straightOuts (s : State) (p : Port) (f : Frame) : List (Port × Bool) :=
  let row := isRowPort p
  let n := s.ringSize row
  let ring := if row then rowOf s.module else colOf s.module
  let me := if row then colOf s.module else rowOf s.module
  let src := if row then colOf f.srcMod else rowOf f.srcMod
  let forward := decide (p = .w) || decide (p = .n)
  let d := if forward then dist n src me else dist n me src
  if d < reach n (s.outLinks row ring) src forward then [(Port.across p, false)] else []

/-- A broadcast at a member: sent on within its reach, and delivered unless it is a second copy (R192); a row broadcast to the members of DST's row (R187; log 75). The newest 256 keys are remembered (log 75). -/
def State.broadcastIn (s : State) (p : Port) (t : Tx) : Recv :=
  let f := t.f
  let key := (f.srcMod, f.ty, f.stamp)
  let dup := decide (key ∈ s.ring.seen)
  let row := isRowPort p
  let inRow := decide (rowOf s.module = rowOf f.dstMod)
  let outs : List (Port × Bool) :=
    if p = .pl then []
    else if f.scope = 2 then (if !inRow && row then [] else if !row && inRow then s.turnOuts true else s.straightOuts p f)
    else s.straightOuts p f ++ (if (if f.alt then !row else row) then s.turnOuts (!row) else [])
  let s := s.forward p t outs
  if f.crcOk && !dup && (decide (f.scope = 3) || inRow) then
    ⟨true, { s with ring := { s.ring with seen := (key :: s.ring.seen).take 256 } }⟩
  else ⟨false, s⟩

/-- A member that is not an LZC-9256 may send only PUB and HEALTH frames (07, after R215). -/
def State.foreign (s : State) (f : Frame) : Bool :=
  decide (s.position f.srcMod = .adapter) && decide (f.ty ≠ 1) && decide (f.ty ≠ 7)

/-- What a port does with a frame: malformed, foreign and stomped ones are counted and dropped, a bad CRC is counted, the others are delivered or forwarded (R183 to R192). -/
def State.take (s : State) (p : Port) (t : Tx) : Recv :=
  let f := t.f
  if !f.formed then ⟨false, s.portCnt p fun c => { c with malformed := c.malformed + 1 }⟩
  else if f.stomped then ⟨false, s.portCnt p fun c => { c with stomped := c.stomped + 1 }⟩
  else if s.foreign f then
    let s := s.portCnt p fun c => { c with malformed := c.malformed + 1 }
    ⟨false, if s.oncePer 4 f.srcMod (60 * sec) then
      (s.record 0x0508 0 (Port.ix p) (BitVec.ofNat 32 f.srcMod) (BitVec.ofNat 32 f.ty) 0 0).markOnce 4 f.srcMod else s⟩
  else
    let s := if f.crcOk then s else s.crcError p
    let r := if f.scope = 0 ∨ f.scope = 1 then s.unicast p t else s.broadcastIn p t
    if r.deliver then
      ⟨true, (r.s.portCnt p fun c => { c with rxd := c.rxd + 1 }).count (ctrEv 0x31 1 (Port.ix p))⟩
    else r

/-- The place a frame of VC0 or VC1 takes in its input port's pools (R194). -/
def State.poolPlace (s : State) (p : Port) (f : Frame) : Option Org :=
  if f.vc < 2 then some { port := Port.ix p, id := s.ring.nextId, vc := f.vc, pool := f.pool, units := f.units } else none

/-- A frame arrives at a port; its buffer is returned as CREDIT once no copy of it waits to go on (R183 to R195). `body` is what it carries of internal layout. -/
def State.receiveAs (s : State) (p : Port) (f : Frame) (body : Option Msg) : Recv :=
  if !s.onRing p then ⟨false, s⟩
  else
    let o := s.poolPlace p f
    let r := { s with ring := { s.ring with nextId := s.ring.nextId + 1 } }.take p { f := f, body := body, org := o }
    ⟨r.deliver, r.s.release o⟩

/-- A frame arrives that carries nothing of internal layout. -/
def State.receive (s : State) (p : Port) (f : Frame) : Recv := s.receiveAs p f none

/-- A frame of the partner is a sign of life to the evaluation of R237. -/
def State.alive (s : State) (f : Frame) : State :=
  if f.srcMod = s.partner ∧ s.pair.firstMiss.isSome then { s with pair := { s.pair with echoed := true } } else s

/-! ### Instances of a set (R211) -/

/-- SEQ a is newer than b. -/
def seqNewer (a b : W32) : Bool := decide (0 < (a - b).toInt)

/-- The two newest of some instances, by SEQ. -/
def newestTwo (is : List Inst) : List Inst :=
  (is.filter fun i => decide ((is.filter fun j => seqNewer j.seq i.seq).length < 2))

end Sys2Proof.Machine
end

