-- ==== Sys2Proof/Machine/Budget.lean ====
section
/-! DEFINITION. What the placer computes of a set of placed tasks: units (R148), sources and publication sets (R35, R142, R209), routes and link loads (R149, R187, R214), the cycle budget (R64, R65, R234) and lane memory (R147). Times are ns; WCETs are lane clocks of 1 ns. -/
namespace Sys2Proof.Machine

/-- A task with the place given to it; `live` marks the version in force (R256). -/
structure Put where
  t : TaskPlan
  live : Bool
  pair : Nat
  lane : Nat
deriving DecidableEq, Repr

/-! ### Partitions and classes -/

/-- Period and phase of a class in µs. -/
def domPeriod (d : Domain) (k : Nat) : Nat := (tget (0, 0) d.classes k).1
def domPhase (d : Domain) (k : Nat) : Nat := (tget (0, 0) d.classes k).2

def domPart (d : Domain) (p : Nat) : Option PartPlan := d.parts.find? fun x => decide (x.cfg.part = p)
def domSetPart (d : Domain) (x : PartPlan) : Domain :=
  { d with parts := d.parts.map fun y => if y.cfg.part = x.cfg.part then x else y }

def critRank : Crit → Nat | .p => 0 | .c => 1 | .s => 2 | .a => 3

/-- Rank (R168): criticality first, then commissioning order. -/
def ranksAbove (a b : PartPlan) : Bool :=
  decide (critRank a.cfg.crit < critRank b.cfg.crit) || (decide (a.cfg.crit = b.cfg.crit) && decide (a.order < b.order))

def domProfile (d : Domain) (p : Nat) : Profile := ((domPart d p).map (·.cfg.profile)).getD .winter

/-- Whether a placed task's coded pass is charged (R64, R65). -/
def codedOf (d : Domain) (t : TaskPlan) : Bool := (t.bitLogic || t.coded) && (domProfile d (taskPart t.task)).coded
def hotOf (d : Domain) (t : TaskPlan) : Bool := (domProfile d (taskPart t.task)).hot

/-- A partition that an overload holds in SAFE is not charged (R168). -/
def chargedOf (d : Domain) (t : TaskPlan) : Bool := !((domPart d (taskPart t.task)).map (·.stopped)).getD false

/-! ### Units (R35, R148) -/

/-- Two tasks linked by a same-class input. -/
def sameDep (a b : TaskPlan) : Bool := a.ins.any fun i => i.same && b.outs.any fun o => decide (o.decl = i.vid)

/-- Connected tasks, each unit in rising task order. -/
def unitsOf (ts : List TaskPlan) : List (List TaskPlan) :=
  ts.foldl (init := []) fun us t =>
    let (hit, rest) := us.partition fun u => u.any fun x => sameDep t x || sameDep x t
    (hit.flatten ++ [t]) :: rest

def lowestTask (u : List TaskPlan) : Nat := u.foldl (fun m t => min m t.task.toNat) (2 ^ 32)

/-- Inserts by a strict order. -/
def insertBy {α : Type} (lt : α → α → Bool) (x : α) : List α → List α
  | [] => [x]
  | y :: r => if lt x y then x :: y :: r else y :: insertBy lt x r
def sortBy {α : Type} (lt : α → α → Bool) (xs : List α) : List α := xs.foldl (fun r x => insertBy lt x r) []

/-- The order in which units are placed (R148). -/
def unitBefore (d : Domain) (a b : List TaskPlan) : Bool :=
  let pa := lowestTask a / 2 ^ 23
  let pb := lowestTask b / 2 ^ 23
  if pa = pb then decide (lowestTask a < lowestTask b)
  else match domPart d pa, domPart d pb with
    | some x, some y => ranksAbove x y
    | _, _ => decide (pa < pb)

/-! ### Sources of variables (R35, R142) -/

/-- VIDs of a pair with an index from here up are fed by trip inputs and CAN objects; the last two are TRIP_IN and TRIP_DIAG (log 11). -/
def ioIndex : Nat := 0xF0000

inductive Source where
  | task (p : Put)
  | adapter (set : W32) (words : List W32)
  | io (home : Nat)
deriving DecidableEq, Repr

def State.sourceOf (s : State) (ps : List Put) (vid : W32) : Option Source :=
  let writes (p : Put) : Bool := p.t.outs.any fun o => decide (o.decl = vid)
  match ps.find? fun p => p.live && writes p with
  | some p => some (.task p)
  | none =>
    match ps.find? writes with
    | some p => some (.task p)
    | none =>
      match s.nv.adapters.find? fun a => decide (vid ∈ a.2) with
      | some a => some (.adapter a.1 a.2)
      | none =>
        let h := vid.toNat / 2 ^ 20
        if ioIndex ≤ vid.toNat % 2 ^ 20 ∧ s.position h = .module then some (.io h) else none

/-- A task reads a variable as a frozen input. -/
def readsFrozen (t : TaskPlan) (vid : W32) : Bool := t.ins.any fun i => !i.same && decide (i.vid = vid)

/-- A task subscribes to the set that carries a variable: it declares so, or reads the variable as a frozen input (R33, R144). -/
def wantsVid (t : TaskPlan) (vid : W32) : Bool := readsFrozen t vid || t.subs.any fun u => decide (u.1 = vid)

/-! ### Publication sets (R150, R209) -/

/-- A set the placer forms, with the pairs that subscribe to it. -/
structure SetForm where
  home : Nat
  num : Nat
  part : Nat
  cls : Nat
  words : List W32
  shadow : Bool
  io : Bool
  dests : List Nat
deriving DecidableEq, Repr

def setId (home num : Nat) : W32 := BitVec.ofNat 32 (home * 2 ^ 20 + num)
def SetForm.id (f : SetForm) : W32 := setId f.home f.num

/-- Link bytes of an instance: the words, and per frame its 16-byte PUB header and 28 bytes of framing (R177, R210). -/
def setBytes (n : Nat) : Nat := 8 * n + 44 * ((n + 125) / 126)

/-- (partition, class) pairs of the tasks on a pair. -/
def groupsOn (ps : List Put) (q : Nat) : List (Nat × Nat) :=
  ((ps.filter fun p => decide (p.pair = q)).map fun p => (taskPart p.t.task, p.t.cls)).eraseDups

/-- Declared VIDs that the tasks of a partition's class write on a pair. -/
def outsOn (ps : List Put) (q part k : Nat) : List W32 :=
  ((ps.filter fun p => decide (p.pair = q) && decide (taskPart p.t.task = part) && decide (p.t.cls = k)).flatMap fun p =>
    p.t.outs.map (·.decl)).eraseDups

/-- Pairs other than q on which some task subscribes to a variable. -/
def readersOf (ps : List Put) (q : Nat) (vid : W32) : List Nat :=
  ((ps.filter fun p => decide (p.pair ≠ q) && wantsVid p.t vid).map (·.pair)).eraseDups

/-- Some task declares a subscription to the set that carries a variable. -/
def declaresSub (ps : List Put) (vid : W32) : Bool := ps.any fun p => p.t.subs.any fun u => decide (u.1 = vid)

/-- Sets of the tasks on the domain's pairs, and recovery shadows of class P and C partitions (R150, R209). -/
def taskSets (d : Domain) (ps : List Put) : List SetForm :=
  ((ps.map (·.pair)).eraseDups).flatMap fun q => (groupsOn ps q).flatMap fun (p, k) =>
    let vs := (outsOn ps q p k).filter fun v => !(readersOf ps q v).isEmpty || declaresSub ps v
    let pub : List SetForm :=
      if vs.isEmpty then []
      else [{ home := q, num := p * 8 + k, part := p, cls := k, words := vs, shadow := false, io := false,
              dests := (vs.flatMap (readersOf ps q)).eraseDups }]
    let crit := ((domPart d p).map (·.cfg.crit)).getD .a
    let rec_ := (d.spare.filter fun x => decide (x.part = p) && decide (x.host = q)).map (·.pair)
    let sh : List SetForm :=
      if rec_.isEmpty || decide (crit = .s) || decide (crit = .a) then []
      else [{ home := q, num := 4096 + p * 8 + k, part := p, cls := k, words := outsOn ps q p k, shadow := true, io := false, dests := rec_ }]
    pub ++ sh

/-- Sets of trip and CAN words that a reader elsewhere takes, one per home and reading partition and class. -/
def State.ioSets (s : State) (ps : List Put) : List SetForm :=
  let rd := ps.flatMap fun p => (((p.t.ins.filter fun i => !i.same).map (·.vid)) ++ p.t.subs.map (·.1)).eraseDups.filterMap fun v =>
    match s.sourceOf ps v with
    | some (.io h) => if pairOf h = p.pair then none else some (h, taskPart p.t.task, p.t.cls, v, p.pair)
    | _ => none
  ((rd.map fun x => (x.1, x.2.1, x.2.2.1)).eraseDups).map fun (h, p, k) =>
    let mine := rd.filter fun x => decide ((x.1, x.2.1, x.2.2.1) = (h, p, k))
    { home := h, num := 8192 + p * 8 + k, part := p, cls := k, words := (mine.map (·.2.2.2.1)).eraseDups, shadow := false, io := true,
      dests := (mine.map (·.2.2.2.2)).eraseDups }

def State.setsOf (s : State) (d : Domain) (ps : List Put) : List SetForm := taskSets d ps ++ s.ioSets ps

/-! ### Routes and link loads (R149, R187, R189, R214) -/

/-- Positions from a to b on a ring in the direction the entering member chooses (R189). -/
def State.legHops (s : State) (row : Bool) (ring a b : Nat) : Nat :=
  let n := s.ringSize row
  match s.way row ring a b with
  | some true => dist n a b
  | some false => dist n b a
  | none => n

/-- A link direction: row or column, its ring, the position whose E or S port it leaves, forward or not. -/
abbrev LinkDir := Bool × Nat × Nat × Bool

def legLinks (row : Bool) (ring n a b : Nat) (forward : Bool) : List LinkDir :=
  if forward then (List.range (dist n a b)).map fun i => (row, ring, (a + i) % n, true)
  else (List.range (dist n b a)).map fun i => (row, ring, (b + i) % n, false)

/-- Link directions of one leg of a route, if a way leads there (R189). -/
def State.leg (s : State) (row : Bool) (ring a b : Nat) : Option (List LinkDir) :=
  (s.way row ring a b).map (legLinks row ring (s.ringSize row) a b)

/-- Link directions of the route between two modules: row first, else column first with ALT, else none (R189, R191). -/
def State.route? (s : State) (a b : Nat) : Option (List LinkDir) :=
  let two (x y : Option (List LinkDir)) : Option (List LinkDir) := x.bind fun x => y.map fun y => x ++ y
  (two (s.leg true (rowOf a) (colOf a) (colOf b)) (s.leg false (colOf b) (rowOf a) (rowOf b))).orElse fun _ =>
    two (s.leg false (colOf a) (rowOf a) (rowOf b)) (s.leg true (rowOf b) (colOf a) (colOf b))

def State.routeLinks (s : State) (a b : Nat) : List LinkDir := (s.route? a b).getD []

/-- Hops of the route between two modules; one that no way reaches counts as a turn round both rings. -/
def State.hopsTo (s : State) (a b : Nat) : Nat := ((s.route? a b).map (·.length)).getD (s.nv.nc + s.nv.nr)

/-- The farthest of some modules on a route in one direction. -/
def farthest (xs : List (Nat × Nat)) : Option (Nat × Nat) :=
  xs.foldl (init := none) fun m x => match m with
    | none => some x
    | some y => if y.1 < x.1 then some x else some y

/-- The ends of a set's span frames (R187): per column and direction its farthest subscriber, and along the row the farthest one that no such frame passes; one whose column no way leads along has a frame of its own (R191). -/
def State.spanEnds (s : State) (m : Nat) (subs : List Nat) : List Nat :=
  let r := rowOf m
  let c := colOf m
  let others := subs.filter fun x => decide (rowOf x ≠ r)
  let cols := (others.map colOf).eraseDups
  let ends := cols.flatMap fun c' => [true, false].filterMap fun fwd =>
    let xs := others.filter fun x => decide (colOf x = c') && decide (s.way false c' r (rowOf x) = some fwd)
    (farthest (xs.map fun x => (s.legHops false c' r (rowOf x), x))).map (·.2)
  let rowEnds := [true, false].filterMap fun fwd =>
    let xs := subs.filter fun x => decide (rowOf x = r) && decide (colOf x ≠ c) && decide (s.way true r c (colOf x) = some fwd)
    match farthest (xs.map fun x => (s.legHops true r c (colOf x), x)) with
    | none => none
    | some (h, x) =>
      if ends.any fun e => decide (colOf e ≠ c) && decide (s.way true r c (colOf e) = some fwd) && decide (h ≤ s.legHops true r c (colOf e))
      then none else some x
  let stray := others.filter fun x => decide (s.way false (colOf x) r (rowOf x) = none)
  rowEnds ++ ends ++ stray

/-- Subscribing modules of a set: both modules of each pair. -/
def subModules (dests : List Nat) : List Nat := dests.flatMap fun q => [q, q + 1]

/-- The link directions that the span frames of a module's set cross, each as often as it is crossed. -/
def State.spanLinks (s : State) (m : Nat) (subs : List Nat) : List LinkDir := (s.spanEnds m subs).flatMap (s.routeLinks m)

/-- Modules that may send a set: the two of a pair, whichever is ACTIVE; else the home alone. -/
def State.sendersOf (s : State) (home : Nat) : List Nat := if pairOf home ∈ s.pairs then [pairOf home, pairOf home + 1] else [home]

/-- How often the span frames of a set cross each link direction, whichever module of its pair sends them (R214). -/
def State.setLinks (s : State) (home : Nat) (subs : List Nat) : List (LinkDir × Nat) :=
  let ls := (s.sendersOf home).map fun m => s.spanLinks m subs
  ls.flatten.eraseDups.map fun l => (l, (ls.map fun x => x.count l).foldl max 0)

/-- Pairs that subscribe to an adapter's set. -/
def adapterDests (ps : List Put) (words : List W32) : List Nat :=
  ((ps.filter fun p => words.any (wantsVid p.t)).map (·.pair)).eraseDups

/-- The cyclic load of each link direction (R214): the link bytes that cross it and the period in µs in which they do, of every set of a module and of every adapter's set; an adapter keeps a pace of its own. -/
def State.linkLoads (s : State) (d : Domain) (ps : List Put) (fs : List SetForm) : List (LinkDir × Nat × Nat) :=
  (fs.flatMap fun f => (s.setLinks f.home (subModules f.dests)).map fun l => (l.1, l.2 * setBytes f.words.length, max (domPeriod d f.cls) 1))
    ++ s.nv.adapters.flatMap fun a => (s.setLinks (a.1.toNat / 2 ^ 20) (subModules (adapterDests ps a.2))).map fun l =>
      (l.1, l.2 * setBytes a.2.length, max (Config.adapterPeriod a.1) 1)

/-- A sum of bytes per period is at most `limit` tenths of a byte per µs, in whole numbers. -/
def rateOk (xs : List (Nat × Nat)) (limit : Nat) : Bool :=
  let l := (xs.map (·.2)).foldl Nat.lcm 1
  decide ((xs.map fun x => x.1 * (l / x.2)).sum * 10 ≤ limit * l)

/-- At most 2,036.3 bytes per µs on every link direction (R214). -/
def loadsOk (ls : List (LinkDir × Nat × Nat)) : Bool :=
  (ls.map (·.1)).eraseDups.all fun l => rateOk ((ls.filter fun x => decide (x.1 = l)).map (·.2)) 20363

/-- Link bytes of some payload in frames of at most 1,024 bytes (R177, R181). -/
def frameBytes (n : Nat) : Nat := n + 28 * ((n + 1023) / 1024)

/-- SIG frames of n tasks of a class cycle (R221), and the MIRROR of a class cycle: its words, sequence numbers, DM state and overrun counts (R225; log 77). -/
def sigBytes (n : Nat) : Nat := 16 * n + 44 * ((n + 62) / 63)
def mirrorBytes (ts : List TaskPlan) : Nat :=
  frameBytes (16 + (ts.map fun t => 12 * t.outs.length + 8 * t.subs.length + 8 + if t.coded || t.bitLogic then 0 else t.dm).sum)

/-- SIG and MIRROR frames on a direction of a pair's Pair Link, at most 4,072.6 bytes per µs (R222). -/
def pairLinkOk (d : Domain) (ps : List Put) (q : Nat) : Bool :=
  rateOk ((groupsOn ps q).map fun (p, k) =>
    let ts := (ps.filter fun x => decide (x.pair = q) && x.live && decide (taskPart x.t.task = p) && decide (x.t.cls = k)).map (·.t)
    (if ts.isEmpty then 0 else if (domProfile d p).hot then sigBytes ts.length else mirrorBytes ts, max (domPeriod d k) 1)) 40726

/-- Hops of the longest route of a pair's sets (R203). -/
def State.longestRoute (s : State) (fs : List SetForm) (q : Nat) : Nat :=
  ((fs.filter fun f => decide (f.home = q)).flatMap fun f => (s.spanEnds q (subModules f.dests)).map (s.hopsTo q)).foldl max 0

/-- The path term of R64 in ns: 16 µs, or 0.25 µs per hop where a route is longer than 64 hops (R203). -/
def pathNs (hops : Nat) : Nat := if hops ≤ 64 then 16000 else 250 * hops

/-! ### The cycle budget (R64, R234) -/

/-- What the sum of R64 takes from a module: words frozen and publication bytes per class, lanes each class wakes, path term. -/
structure Terms where
  freeze : Nat → Nat
  pub : Nat → Nat
  lanes : Nat → List Nat
  path : Nat

/-- Boundaries of two classes can fall on one instant. -/
def coincide (d : Domain) (j k : Nat) : Bool :=
  let g := Nat.gcd (domPeriod d j) (domPeriod d k)
  decide (g ≠ 0) && decide (domPhase d j % g = domPhase d k % g)

/-! ### What a pair freezes (R15, R144) -/

/-- A set a pair's tasks subscribe to: ID, words, home, the producer's class; `io` of trip or CAN words, `own` of the pair itself. -/
structure Feed where
  set : W32
  words : List W32
  home : Nat
  cls : Option Nat
  io : Bool
  own : Bool
deriving DecidableEq, Repr

/-- The set that carries a variable for the tasks of a partition's class on a pair; a pair's own trip and CAN words stand in no set there (R13). -/
def State.feedOf (s : State) (fs : List SetForm) (q p k : Nat) (vid : W32) : Option Feed :=
  match s.nv.adapters.find? fun a => decide (vid ∈ a.2) with
  | some a => some { set := a.1, words := a.2, home := a.1.toNat / 2 ^ 20, cls := none, io := false, own := false }
  | none =>
    (fs.find? fun f => !f.shadow && decide (vid ∈ f.words) && (!f.io || (decide (f.part = p) && decide (f.cls = k) && decide (pairOf f.home ≠ q)))).map fun f =>
      { set := f.id, words := f.words, home := f.home, cls := some f.cls, io := f.io, own := decide (pairOf f.home = q) }

/-- Subscriptions of a task with the maximum age of each: declared ones, and a set it reads from elsewhere without declaring one has no limit (R33, R45). -/
def State.subsOfTask (s : State) (fs : List SetForm) (q : Nat) (t : TaskPlan) : List (Feed × Nat) :=
  let feed := s.feedOf fs q (taskPart t.task) t.cls
  let declared := t.subs.filterMap fun u => (feed u.1).map fun f => (f, u.2)
  let rest := (t.ins.filter fun i => !i.same).filterMap fun i => (feed i.vid).bind fun f =>
    if f.own || declared.any fun x => decide (x.1.set = f.set) then none else some (f, 0xFFFFFFFF)
  (declared ++ rest).eraseDups

/-- A task of this pair reads a variable from outside its own class cycle: it needs a replica (R144). -/
def State.needsReplica (s : State) (ps : List Put) (q : Nat) (t : TaskPlan) (vid : W32) : Bool :=
  match s.sourceOf ps vid with
  | some (.task p) => decide (p.pair ≠ q) || decide (p.t.cls ≠ t.cls) || decide (taskPart p.t.task ≠ taskPart t.task)
  | _ => true

/-- (partition, VID) of the replicas that a class freezes on a pair: the frozen inputs of its tasks, and the trip and CAN words that its modules publish (R142, R144). -/
def State.replicasOf (s : State) (ps : List Put) (fs : List SetForm) (q k : Nat) : List (Nat × W32) :=
  (((ps.filter fun p => decide (p.pair = q) && decide (p.t.cls = k)).flatMap fun p =>
      (p.t.ins.filter fun i => !i.same && s.needsReplica ps q p.t i.vid).map fun i => (taskPart p.t.task, i.vid))
    ++ (fs.filter fun f => f.io && decide (pairOf f.home = q) && decide (f.cls = k)).flatMap fun f => f.words.map fun v => (f.part, v)).eraseDups

/-- (partition, set, maximum age) of the status words of a class on a pair: tasks of a partition's class that declare one age share a word (R45, R144). -/
def State.statusesOf (s : State) (ps : List Put) (fs : List SetForm) (q k : Nat) : List (Nat × W32 × Nat) :=
  ((ps.filter fun p => decide (p.pair = q) && decide (p.t.cls = k)).flatMap fun p => (s.subsOfTask fs q p.t).map fun x =>
    (taskPart p.t.task, x.1.set, x.2)).eraseDups

/-- Words that a class freezes on a pair (R15). -/
def State.freezeOn (s : State) (ps : List Put) (fs : List SetForm) (q k : Nat) : Nat :=
  (s.replicasOf ps fs q k).length + (s.statusesOf ps fs q k).length

def State.termsOf (s : State) (ps : List Put) (fs : List SetForm) (q path : Nat) : Terms :=
  { freeze := s.freezeOn ps fs q
    pub := fun k => ((fs.filter fun f => decide (pairOf f.home = q) && decide (f.cls = k) && !f.dests.isEmpty).map fun f => setBytes f.words.length).sum
    lanes := fun k => ((ps.filter fun p => decide (p.pair = q) && decide (p.t.cls = k) && p.live).map (·.lane)).eraseDups
    path := path }

/-- Sets of classes whose boundaries can all fall on one instant: classes that coincide two by two do so together. -/
def togetherSets (d : Domain) (ks : List Nat) : List (List Nat) :=
  ks.foldl (init := [[]]) fun acc j => acc ++ (acc.filter fun x => x.all (coincide d j)).map fun x => j :: x

/-- t_start of a class in ns: the latest over the instants at which its boundary can fall together with those of other classes (R64). -/
def startNs (d : Domain) (x : Terms) (k : Nat) : Nat :=
  let near := (List.range 8).filter fun j => decide (j ≠ k) && decide (domPeriod d j ≠ 0) && coincide d j k
  ((togetherSets d near).map fun js =>
    let wake := ((((k :: js).flatMap x.lanes).eraseDups.length + 15) / 16) * 1000
    let words := x.freeze k + ((js.filter fun j => decide (j < k)).map x.freeze).sum
    max wake ((words + 3) / 4)).foldl max 0

/-- Lane time L_k of the tasks of a class on a lane (R64). -/
def laneNs (d : Domain) (ts : List TaskPlan) (k : Nat) : Nat :=
  ((ts.filter fun t => decide (t.cls = k) && chargedOf d t).map fun t => t.wcetP + 100 + if codedOf d t then t.wcetC + 100 else 0).sum

/-- The pre-emption iteration of R64; `none` when it passes the period. -/
def iterate (base pj lj limit : Nat) : Nat → Nat → Option Nat
  | 0, _ => none
  | n + 1, r =>
    let r' := base + (r + pj - 1) / pj * lj
    if r' = r then some r else if limit < r' then none else iterate base pj lj limit n r'

/-- R_k in ns on a lane with the given tasks, with `extra` ns more lane time (R64, R234). -/
def completionNs (d : Domain) (x : Terms) (ts : List TaskPlan) (k extra : Nat) : Option Nat :=
  let pk := domPeriod d k * 1000
  let base := startNs d x k + laneNs d ts k + extra
  let fast := ((ts.map (·.cls)).eraseDups.filter fun j => decide (j ≠ k) && slower (domPeriod d k) k (domPeriod d j) j).head?
  let r := match fast with
    | some j => iterate base (max (domPeriod d j * 1000) 1) (laneNs d ts j) pk 4096 base
    | none => some base
  let mine := ts.filter fun t => decide (t.cls = k) && chargedOf d t
  r.map fun r => r + (if mine.any (codedOf d) then 500 else 0) + 8192 + (if mine.any (hotOf d) then 3000 else 0)
    + (x.pub k * 1000 + 2908) / 2909 + x.path

/-- R_k plus the reserve fits the period, also with the largest coded pass of a SUMMER task added (R64, R234). -/
def classFits (d : Domain) (x : Terms) (ts : List TaskPlan) (k : Nat) : Bool :=
  let pk := domPeriod d k * 1000
  let reserve := max 2000 (pk / 50)
  let summer := ts.filter fun t => decide (t.cls = k) && (t.coded || t.bitLogic) && decide (domProfile d (taskPart t.task) = .summer)
  let extra := (summer.map fun t => t.wcetC + 100).foldl max 0
  let ok (e : Nat) : Bool := match completionNs d x ts k e with
    | some r => decide (r + reserve ≤ pk)
    | none => false
  ok 0 && (summer.isEmpty || ok extra)

/-! ### Lanes (R36, R84, R88, R147) -/

/-- Lane memory for packages: 124 KiB (R147). -/
def laneMem : Nat := 126976

/-- The version of a change that is counted: the one in force, or for a partition with a change the other one (R260). -/
def counted (other : Option Nat) (p : Put) : Bool :=
  if other = some (taskPart p.t.task) then !p.live else p.live

/-- A lane with the tasks put on it holds R36, R147 and, for each version, R64. -/
def laneHolds (d : Domain) (x : Terms) (ps : List Put) (q l : Nat) : Bool :=
  let here := ps.filter fun p => decide (p.pair = q) && decide (p.lane = l)
  let versions := none :: ((d.parts.filter fun y => decide (y.change ≠ .none)).map fun y => some y.cfg.part)
  decide ((here.map (·.t.cls)).eraseDups.length ≤ 2)
    && decide ((here.map (·.t.im)).sum ≤ laneMem) && decide ((here.map (·.t.dm)).sum ≤ laneMem)
    && versions.all fun v =>
      let ts := (here.filter (counted v)).map (·.t)
      (ts.map (·.cls)).eraseDups.all (classFits d x ts)

/-- Lanes of a module that the plan may not use (R84, R147). -/
def State.badLanes (s : State) (m : Nat) : List Nat :=
  if m = s.module then (s.lanes.filter fun p => p.2.retire || p.2.bgtest).map (·.1)
  else ((tfind s.pl.health m).map (·.lanes)).getD []

/-- Clusters without coded work (R88). -/
def State.badClusters (s : State) (m : Nat) : List Nat :=
  if m = s.module then s.rnd.lost else ((tfind s.pl.health m).map (·.clusters)).getD []

def State.laneUsable (s : State) (t : TaskPlan) (q l : Nat) : Bool :=
  decide (l ∉ s.badLanes q) && decide (l ∉ s.badLanes (q + 1))
    && !((t.coded || t.bitLogic) && (decide (l / 16 ∈ s.badClusters q) || decide (l / 16 ∈ s.badClusters (q + 1))))

/-- Lane utilisation in parts per million (R149 key 2). -/
def laneUse (d : Domain) (ps : List Put) (q l : Nat) : Nat :=
  let ts := (ps.filter fun p => decide (p.pair = q) && decide (p.lane = l) && p.live).map (·.t)
  ((ts.map (·.cls)).eraseDups.map fun k => laneNs d ts k * 1000 / max (domPeriod d k) 1).sum

end Sys2Proof.Machine
end

