-- ==== Sys2Proof/Machine/Linking.lean ====
section
/-! DEFINITION. Linking of Task Packages on a module (R92, R146): relocated code in IM, initial DM contents, and the image and lanes as BOOT leaves them (R265, R459). -/
namespace Sys2Proof.Machine

/-- The constant of an LDHI and ORK pair: its low 16 bits in ORK, the rest in LDHI (R104, R146). -/
def relocWord (kind : Nat) (w lii : Nat) : Nat :=
  match kind with
  | 0 => w / 2 ^ 21 * 2 ^ 21 + lii % 2 ^ 21
  | 1 => w / 2 ^ 26 * 2 ^ 26 + lii % 2 ^ 20 * 2 ^ 6 + w % 2 ^ 6
  | 2 => w / 2 ^ 16 * 2 ^ 16 + lii % 2 ^ 16
  | _ => w / 2 ^ 21 * 2 ^ 21 + lii / 2 ^ 16 % 2 ^ 21

/-- Writes one relocation into a task's code. -/
def applyReloc (code : List Byte) (r : Reloc) : List Byte :=
  let put (bs : List Byte) (off kind : Nat) : List Byte :=
    bs.take off ++ leBytes 4 (relocWord kind (field bs off 4) r.lii) ++ bs.drop (off + 4)
  if r.kind = 3 then put (put code r.off 3) (r.off + 4) 2 else put code r.off r.kind

def linkedCode (t : TaskPlan) (coded : Bool) : List Byte :=
  (t.relocs.filter fun r => decide (r.codedPass = coded)).foldl applyReloc (if coded then t.codeC else t.codeP)

/-- Writes a task's linked code into its windows and enables its lane (R97, R146). -/
def State.linkTask (s : State) (t : TaskPlan) : State :=
  let base (w : W32) : Nat := imAddr t.lane (bitsAt w.toNat 0 9 * 256)
  let s := s.setLane t.lane { s.lane t.lane with en := true }
  let s := s.wrBytes (base t.xwinP) (linkedCode t false)
  if t.codeC.isEmpty then s else s.wrBytes (base t.xwinC) (linkedCode t true)

/-- The DM address of a byte of a task's data window (R92). -/
def TaskPlan.dmAt (t : TaskPlan) (i : Nat) : Nat := 0x20000 + bitsAt t.dwinP.toNat 0 9 * 256 + i

/-- DM of a task from its package, in both windows (R146). -/
def State.dmInit (s : State) (t : TaskPlan) : State :=
  let base (w : W32) : Nat := dmAddr t.lane (0x20000 + bitsAt w.toNat 0 9 * 256)
  (s.wrBytes (base t.dwinP) t.dmP).wrBytes (base t.dwinC) t.dmC

/-- The cycle classes whose tasks a lane hosts in the plans the classes run. -/
def State.laneClasses (s : State) (l : Nat) : List Nat := (List.range 8).filter fun k => (s.tasksOf k).any fun t => decide (t.lane = l)

/-- The class of a lane that runs in its fast event class: of two the one with the shorter period, of equal periods the lower number (R31, R36). -/
def State.fastClass (s : State) (l : Nat) : Option Nat :=
  match s.laneClasses l with
  | [a, b] => if slower (s.cls_ a).period a (s.cls_ b).period b then some b else some a
  | _ => none

/-- L_EVCLASS of a lane as the plan asks for it: the cycle start of the faster of its two classes is in the fast class, every other in the normal one (R36). -/
def State.setEventClass (s : State) (l : Nat) : State :=
  let x := s.lane l
  let fast : BitVec 13 := match s.fastClass l with
    | some k => BitVec.twoPow 13 k
    | none => 0
  s.setLane l { x with evclass := (x.evclass &&& 0x1F00) ||| fast }

/-- Event classes of every lane that a list of tasks uses. -/
def State.setEventClasses (s : State) (ts : List TaskPlan) : State := ts.foldl (fun (s : State) t => s.setEventClass t.lane) s

/-- Every task of a plan is linked, with its initial DM contents. -/
def State.linkAll (s : State) (p : ModPlan) : State :=
  ((p.tasks ++ p.staged).foldl (fun (s : State) t => (s.linkTask t).dmInit t) s).setEventClasses p.tasks

/-- VID of a status word's entry: it is no variable. -/
def noVid : W32 := 0xFFFFFFFF

/-- What an entry holds before anything is written: the declared initial value, or a status word with NEVER and OLD set and AGE at its limit (R45). -/
def LiiEntry.first (e : LiiEntry) : W64 := if e.vid = noVid then 0x60000000FFFFFFFF else e.init

/-- Both banks hold the first value of every entry of a plan (R39, R45, R265). -/
def State.imageInit (s : State) (p : ModPlan) : State :=
  p.lii.foldl (fun (s : State) e => (s.wrImg 0 e.lii (LiiEntry.first e)).wrImg 1 e.lii (LiiEntry.first e)) s

/-! ### Two plans of a module -/

/-- The same version of the same task, told by the load that brought it in (R141). -/
def sameVersion (a b : TaskPlan) : Bool := decide (a.task = b.task) && decide (a.version = b.version)

/-- Tasks of a plan whose code or place differs from what is linked; a lane left unchanged is not linked again (R146). -/
def toLink (old new : ModPlan) : List TaskPlan :=
  (new.tasks ++ new.staged).filter fun t => !(old.tasks ++ old.staged).any fun u =>
    sameVersion u t && decide (u.lane = t.lane) && decide (u.xwinP = t.xwinP) && decide (u.xwinC = t.xwinC) && decide (u.relocs = t.relocs)

/-- Classes that differ between two plans of a module, and those of partitions whose profile or version changes (R153). -/
def affectedBy (old new : ModPlan) (changed : List Nat) : List Nat :=
  (List.range 8).filter fun k =>
    let diff : Bool :=
      decide (old.tasks.filter (fun t => decide (t.cls = k)) ≠ new.tasks.filter fun t => decide (t.cls = k))
        || decide (old.subs.filter (fun t => decide (t.cls = k)) ≠ new.subs.filter fun t => decide (t.cls = k))
        || decide (old.copies.filter (fun t => decide (t.cls = k)) ≠ new.copies.filter fun t => decide (t.cls = k))
        || decide (old.sets.filter (fun t => decide (t.cls = k)) ≠ new.sets.filter fun t => decide (t.cls = k))
        || decide (old.lii.filter (fun t => decide (t.cls = k)) ≠ new.lii.filter fun t => decide (t.cls = k))
    diff || new.tasks.any fun t => decide (t.cls = k) && decide (taskPart t.task ∈ changed)

/-- The plan in force and the two before it (R156), the newest first. -/
def State.plansKept (s : State) : List Past :=
  { epoch := s.pl.epoch, apply := s.pl.lastApply, setHome := s.pl.plan.setHome, subs := s.pl.plan.subs, shadowSets := s.pl.plan.shadowSets } :: s.pl.history

/-- The plan in force at a stamp: the newest kept whose apply instant is not later (R156). -/
def State.planAt (s : State) (stamp : W64) : Option Past := s.plansKept.find? fun h => reached h.apply stamp

end Sys2Proof.Machine
end

