-- ==== Sys2Proof/Machine/TripOps.lean ====
section
/-! DEFINITION. Operations of the Trip I/O Block: the parameter image (R392 to R395), the Safety Checkers' evaluation of a sample (R371 to R374, R380 to R391), faults and latches (R387), and the drive of the outputs (R376, R379, R385). -/
namespace Sys2Proof.Machine

/-! ### The parameter image (R392, R399) -/

def cfgSper (im : List Byte) : Nat := bitsAt (field im 0 4) 0 10
def cfgIn (im : List Byte) (n : Nat) : Nat := field im (4 + 4 * n) 4
def cfgOut (im : List Byte) (m : Nat) : Nat := field im (132 + 4 * m) 4
def cfgSp (im : List Byte) (k : Nat) : Nat := field im (196 + 4 * k) 4

def inDeb (c : Nat) : Nat := bitsAt c 0 16
def inOwEn (c : Nat) : Bool := decide (bitsAt c 16 1 = 1)
def inWet (c : Nat) : Bool := decide (bitsAt c 17 1 = 1)
def outOwner (c : Nat) : Nat := bitsAt c 30 2
def outTest (c : Nat) : Bool := decide (bitsAt c 29 1 = 1)
def outRetry (c : Nat) : Bool := decide (bitsAt c 28 1 = 1)
def outRst (c : Nat) : Nat := bitsAt c 24 4
def outRdelay (c : Nat) : Nat := bitsAt c 16 8
def outMask (c : Nat) : Nat := bitsAt c 0 16
def spKind (c : Nat) : Nat := bitsAt c 29 3
def spAuto (c : Nat) : Bool := decide (bitsAt c 28 1 = 1)
def spRst (c : Nat) : Nat := bitsAt c 24 4
def spDisc (c : Nat) : Nat := bitsAt c 0 9

/-- A pair with a pair state: kind NC_NC or NC_NO (R382, R383). -/
def spReal (c : Nat) : Bool := decide (spKind c = 1) || decide (spKind c = 2)

/-- The rules an image must meet (R393). -/
def imageOk (im : List Byte) : Bool :=
  let sp := cfgSper im
  let isReset (k : Nat) : Bool := decide (spKind (cfgSp im k) = 4)
  decide (im.length = 260) && decide (field im 0 4 = sp) && decide (10 ≤ sp) && decide (sp ≤ 1000)
    && (List.range 32).all (fun n => decide (1 ≤ inDeb (cfgIn im n)) && decide (bitsAt (cfgIn im n) 18 14 = 0))
    && (List.range 16).all (fun k =>
        let c := cfgSp im k
        decide (spKind c ≤ 4) && decide (bitsAt c 9 15 = 0)
          && (!spReal c || (decide (1 ≤ spDisc c) && decide (spDisc c ≤ 500) && isReset (spRst c))))
    && (List.range 16).all (fun m =>
        let c := cfgOut im m
        let own := outOwner c
        decide (own ≤ 2) && (!outRetry c || (decide (own = 1) && decide (1 ≤ outRdelay c)))
          && (!outTest c || decide (own = 2))
          && (decide (own ≠ 2) || (decide (outMask c ≠ 0) && isReset (outRst c)
              && (List.range 16).all fun k => decide (bitsAt (outMask c) k 1 = 0) || spReal (cfgSp im k))))

/-- One bit of CRC-32, reflected (R395). -/
def crc32Bit (c : W32) : W32 := if c.getLsbD 0 then (c >>> 1) ^^^ 0xEDB88320 else c >>> 1
def crc32Byte (c : W32) (b : Byte) : W32 :=
  let c := c ^^^ b.setWidth 32
  crc32Bit (crc32Bit (crc32Bit (crc32Bit (crc32Bit (crc32Bit (crc32Bit (crc32Bit c)))))))
def crc32 (bs : List Byte) : W32 := ~~~(bs.foldl crc32Byte (BitVec.allOnes 32))

/-- The check value over image, safety partition and permit VIDs (R395); an empty image stands for none in force and has the register's reset value. -/
def checkValue (im : List Byte) (part : Nat) (permits : List W32) : W32 :=
  if im.isEmpty then 0
  else crc32 (im ++ leBytes 4 part ++ (List.range 16).flatMap fun m => leBytes 4 ((permits[m]?).getD 0).toNat)

def Trip.check (t : Trip) : W32 := checkValue t.image t.safetyPart t.permitVids

/-! ### Outputs -/

/-- The task whose pin declaration claims an output, and the VID (R379). -/
def State.claim (s : State) (m : Nat) : Option (TaskPlan × W32) :=
  ((List.range 8).flatMap s.tasksOf).findSome? fun t =>
    (t.pins.find? fun q => decide (q.1 = m)).map fun q => (t, s.resolve q.2)

/-- Permit VIDs as the present plan declares them: the claims of the outputs that an image gives to the checkers (R395). -/
def State.permits (s : State) (im : List Byte) : List W32 :=
  (List.range 16).map fun m => if outOwner (cfgOut im m) = 2 then ((s.claim m).map (·.2)).getD 0 else 0

def Trip.latched (t : Trip) (m : Nat) : Bool := (tfind t.latch m).isSome || !t.global.isEmpty && decide (outOwner (cfgOut t.image m) = 2)

/-- Whether output m may be closed now (R375, R376, R385). -/
def State.closes (s : State) (m : Nat) : Bool :=
  let t := s.trip
  let own := outOwner (cfgOut t.image m)
  s.active && !s.mod.isolated && t.cfgValid && !t.latched m && !s.armed (.outputRetry m) && t.value.getLsbD m
    && match s.claim m with
      | none => false
      | some (task, vid) =>
        let run := decide (s.pstateOf (taskPart task.task) task.cls = .running)
        if own = 1 then run
        else if own = 2 then
          run && t.a.en.getLsbD m && t.b.en.getLsbD m && decide ((t.permitVids[m]?).getD 0 = vid)
            && decide (taskPart task.task = t.safetyPart)
        else false

/-- Brings the drive of every output up to date (R376). -/
def State.tripDrive (s : State) : State :=
  let d := (List.range 16).foldl (fun (w : W16) m => if s.closes m then w ||| BitVec.twoPow 16 m else w) 0
  { s with trip := { s.trip with drive := d } }

/-! ### Faults (R387) -/

/-- H_STAT.TRIP (R314, R387): a pair in FAULT or an output latched by a checker. -/
def Trip.holds (t : Trip) : Bool :=
  t.latch.any (fun p => decide (outOwner (cfgOut t.image p.1) = 2)) || !t.global.isEmpty || t.a.pairs.any (fun p => decide (p.2.st = .fault)) || t.b.pairs.any fun p => decide (p.2.st = .fault)

/-- SOURCE of a fault by its cause (R418): channel n, 0x100 + pair k, 0x200 + output m; the global causes name none. -/
def faultSource (cause index : Nat) (output : Bool) : Nat :=
  if output then 0x200 + index else if cause = 0x01 then 0x100 + index else if 0x09 ≤ cause then 0 else index

/-- A fault is captured and recorded (R387). -/
def State.tripFault (s : State) (cause index : Nat) (byB output : Bool) : State :=
  let t := s.trip
  let t := if t.fltInfo.msb then t
    else { t with fltInfo := BitVec.ofNat 32 (2 ^ 31 + bit byB * 2 ^ 30 + cause * 256 + index) }
  { s with trip := t }.record 0x0A01 s.trip.safetyPart (faultSource cause index output) (BitVec.ofNat 32 cause) (BitVec.ofNat 32 index)
    (BitVec.ofNat 32 (bit byB)) 0

/-- A fault that latches an output. -/
def State.latchOut (s : State) (m cause : Nat) (byB : Bool) : State :=
  if (tfind s.trip.latch m).isSome then s
  else { s with trip := { s.trip with latch := tput s.trip.latch m (BitVec.ofNat 8 cause) } }.tripFault cause m byB true

/-- A fault that latches every checker-owned output until a module reset. -/
def State.latchAll (s : State) (cause : Nat) (byB : Bool) : State :=
  let c : Byte := BitVec.ofNat 8 cause
  if c ∈ s.trip.global then s
  else { s with trip := { s.trip with global := c :: s.trip.global } }.tripFault cause 0 byB false

/-! ### One checker's evaluation -/

/-- A 32-bit word from one bit per input. -/
def wordOf (n : Nat) (f : Nat → Bool) : W32 := (List.range n).foldl (fun w i => if f i then w ||| BitVec.twoPow 32 i else w) 0

/-- The samples: thresholds with hysteresis, a hot limiter reads 0 (R371, R387). -/
def Checker.rawOf (c : Checker) (x : Sample) : W32 :=
  wordOf 32 fun i => !x.inOt.getLsbD i && (x.hi.getLsbD i || (!x.lo.getLsbD i && c.raw.getLsbD i))

/-- Debounce in ns, rounded up to a multiple of SPER (R374). -/
def debNs (im : List Byte) (i : Nat) : Nat :=
  let sp := max 1 (cfgSper im)
  (inDeb (cfgIn im i) + sp - 1) / sp * sp * usec

/-- The debounced state of one input, and the candidate value kept (R374). -/
def Checker.debounce (c : Checker) (im : List Byte) (raw : W32) (clk i : Nat) : Bool × Option (Bool × Nat) :=
  let r := raw.getLsbD i
  let d := c.deb.getLsbD i
  if r = d then (d, none)
  else
    let t0 := match tfind c.cand i with
      | some (v, t) => if v = r then t else clk
      | none => clk
    if debNs im i ≤ clk - t0 then (r, none) else (d, some (r, t0))

/-- Open wire: three consecutive samples low, and low between them (R373). -/
def Checker.owCount (c : Checker) (im : List Byte) (x : Sample) (i : Nat) : Nat :=
  let cf := cfgIn im i
  if inOwEn cf ∧ !inWet cf ∧ x.lo.getLsbD i ∧ x.idleLow.getLsbD i then tget 0 c.owCnt i + 1 else 0

/-- The checker's view of its inputs after a sample. -/
def Checker.sample (c : Checker) (im : List Byte) (x : Sample) (clk : Nat) : Checker :=
  let raw := c.rawOf x
  let ds := (List.range 32).map fun i => c.debounce im raw clk i
  let cnt := (List.range 32).map fun i => c.owCount im x i
  { c with
    raw := raw
    deb := wordOf 32 fun i => ((ds[i]?).map (·.1)).getD false
    cand := (List.range 32).filterMap fun i => ((ds[i]?).bind (·.2)).map fun v => (i, v)
    owCnt := (List.range 32).filterMap fun i => if (cnt[i]?).getD 0 = 0 then none else some (i, (cnt[i]?).getD 0)
    ow := wordOf 32 fun i => decide (3 ≤ (cnt[i]?).getD 0)
    inOt := x.inOt }

/-- Healthy and demand of a pair (R382). -/
def pairLevels (kind : Nat) (deb : W32) (k : Nat) : Bool × Bool :=
  let x := deb.getLsbD (2 * k)
  let y := deb.getLsbD (2 * k + 1)
  if kind = 1 then (x && y, !x && !y) else (x && !y, !x && y)

/-- One pair after a sample (R383, R384): its new state, and the cause when it enters FAULT. `chan` is a fault of R387 on one of its channels. -/
def SpSt.eval (p : SpSt) (cfg : Nat) (healthy demand : Bool) (chan : Option Nat) (clk : Nat) : SpSt × Option Nat :=
  let mixed := !healthy && !demand
  let p := { p with
    mixedAt := if mixed then some (p.mixedAt.getD clk) else none
    healthyAt := if healthy then some (p.healthyAt.getD clk) else none
    demandSinceStart := p.demandSinceStart || demand }
  let long := match p.mixedAt with
    | some t => decide (spDisc cfg * msec < clk - t)
    | none => false
  let fail (c : Nat) : SpSt × Option Nat :=
    ({ p with st := .fault, sawDemand := false, mixedLong := false, readySinceStart := false }, some c)
  match chan with
  | some c => if p.st = .fault then ({ p with sawDemand := false, mixedLong := false }, none) else fail c
  | none =>
    match p.st with
    | .run => if healthy then (p, none) else ({ p with st := .demand, sawDemand := demand, readySinceStart := false }, none)
    | .ready => if healthy then (p, none) else ({ p with st := .demand, sawDemand := p.sawDemand || demand, readySinceStart := false }, none)
    | .demand =>
      if long then fail 0x01
      else if healthy then
        if p.sawDemand then ({ p with st := if spAuto cfg then .run else .ready }, none) else fail 0x01
      else ({ p with sawDemand := p.sawDemand || demand }, none)
    | .fault =>
      if demand then ({ p with sawDemand := true, mixedLong := false }, none)
      else if long then ({ p with mixedLong := true }, none)
      else (p, none)

/-- A pair in FAULT may be reset: in demand and then healthy again since the fault, with no mixed period longer than DISC (R383). -/
def SpSt.mayReset (p : SpSt) (healthy : Bool) : Bool := healthy && p.sawDemand && !p.mixedLong

/-- Start of a pair (R391). -/
def SpSt.start (cfg : Nat) (healthy demand : Bool) (clk : Nat) : SpSt :=
  { st := if healthy then (if spAuto cfg then .run else .ready) else .demand
    sawDemand := demand
    mixedAt := if healthy || demand then none else some clk
    mixedLong := false
    readySinceStart := healthy && !spAuto cfg
    healthyAt := if healthy then some clk else none
    demandSinceStart := false }

/-- A fault of R387 on one of a pair's channels, with the channel: open wire, hot limiter, coupler lost for 3 samples. -/
def chanFault (c : Checker) (lost : Table Nat) (k : Nat) : Option (Nat × Nat) :=
  let find (f : Nat → Bool) (cause : Nat) : Option (Nat × Nat) :=
    if f (2 * k) then some (cause, 2 * k) else if f (2 * k + 1) then some (cause, 2 * k + 1) else none
  ((find (fun i => c.ow.getLsbD i) 0x02).orElse fun _ => find (fun i => c.inOt.getLsbD i) 0x03).orElse fun _ =>
    find (fun i => decide (3 ≤ tget 0 lost i)) 0x08

/-- Faults of R387 that a sample shows anew on channels of no pair state, or of a pair that was in FAULT already: open wire counts on pair channels only. -/
def Checker.newFaults (old new : Checker) (im : List Byte) (lostOld lost : Table Nat) : List (Nat × Nat) :=
  (List.range 32).flatMap fun i =>
    let real := spReal (cfgSp im (i / 2))
    if real && decide ((tget SpSt.reset old.pairs (i / 2)).st ≠ .fault) then []
    else
      (if real && new.ow.getLsbD i && !old.ow.getLsbD i then [(0x02, i)] else [])
        ++ (if new.inOt.getLsbD i && !old.inOt.getLsbD i then [(0x03, i)] else [])
        ++ (if decide (3 ≤ tget 0 lost i) && decide (tget 0 lostOld i < 3) then [(0x08, i)] else [])

/-- All pairs after a sample, with the faults that arise: cause and INDEX, the pair of a discrepancy, else the channel. -/
def Checker.evalPairs (c : Checker) (im : List Byte) (lost : Table Nat) (clk : Nat) : Checker × List (Nat × Nat) :=
  (List.range 16).foldl (init := (c, [])) fun (c, fs) k =>
    let cfg := cfgSp im k
    if !spReal cfg then (c, fs)
    else
      let (h, d) := pairLevels (spKind cfg) c.deb k
      let ch := chanFault c lost k
      let (p, f) := (tget SpSt.reset c.pairs k).eval cfg h d (ch.map (·.1)) clk
      ({ c with pairs := tput c.pairs k p },
       match f with | some cause => (cause, if cause = 0x01 then k else (ch.map (·.2)).getD k) :: fs | none => fs)

/-- What the reset inputs show after a sample: valid edges, and RESET pairs stuck with their high time in ms (R388). -/
def Checker.evalResets (c : Checker) (im : List Byte) (old : W32) (clk : Nat) : Checker × List Nat × List (Nat × Nat) :=
  (List.range 16).foldl (init := (c, [], [])) fun (c, es, st) k =>
    if spKind (cfgSp im k) ≠ 4 then (c, es, st)
    else
      let now := c.deb.getLsbD (2 * k)
      let was := old.getLsbD (2 * k)
      let seen := c.seenLow.getLsbD k
      let c := if now then c else { c with seenLow := c.seenLow ||| BitVec.twoPow 16 k }
      match tfind c.rose k with
      | some t =>
        if 5 * sec < clk - t then ({ c with rose := terase c.rose k }, es, (k, (clk - t) / msec) :: st)
        else if was && !now then
          ({ c with rose := terase c.rose k }, if 100 * msec ≤ clk - t then k :: es else es, st)
        else (c, es, st)
      | none => if now && !was && seen then ({ c with rose := tput c.rose k clk }, es, st) else (c, es, st)

/-- A valid reset edge acts on the pairs that name its RESET pair; whether it found any (R389). -/
def Checker.resetPairs (c : Checker) (im : List Byte) (k : Nat) : Checker × Bool :=
  (List.range 16).foldl (init := (c, false)) fun (c, hit) j =>
    let cfg := cfgSp im j
    if !spReal cfg || decide (spRst cfg ≠ k) then (c, hit)
    else
      let p := tget SpSt.reset c.pairs j
      let (h, _) := pairLevels (spKind cfg) c.deb j
      let go : Checker := { c with pairs := tput c.pairs j { p with st := .run, sawDemand := false, readySinceStart := false } }
      match p.st with
      | .ready => (go, true)
      | .fault => if p.mayReset h then (go, true) else (c, hit)
      | _ => (c, hit)

/-- A checker's output enables, without the test pulse (R385). -/
def Trip.enables (t : Trip) (c : Checker) : W16 :=
  (List.range 16).foldl (init := 0) fun w m =>
    let cfg := cfgOut t.image m
    let run := (List.range 16).all fun k =>
      decide (bitsAt (outMask cfg) k 1 = 0) || decide ((tget SpSt.reset c.pairs k).st = .run)
    if t.cfgValid && decide (outOwner cfg = 2) && run && !t.latched m then w ||| BitVec.twoPow 16 m else w

/-- The enables of both checkers, the test pulse of one of them taken out (R385, R390). -/
def Trip.setEnables (t : Trip) : Trip :=
  let cut (byB : Bool) (w : W16) : W16 := match t.pulse with
    | some m => if t.pulseB = byB then w &&& ~~~(BitVec.twoPow 16 m) else w
    | none => w
  { t with a := { t.a with en := cut false (t.enables t.a) }, b := { t.b with en := cut true (t.enables t.b) } }

/-- A pair of a standby that has been READY since the start follows the partner's (R391). -/
def Checker.followPartner (c : Checker) (run : W16) (clk : Nat) : Checker :=
  { c with pairs := c.pairs.map fun (k, p) =>
      let healthy := match p.healthyAt with
        | some t => decide (sec ≤ clk - t)
        | none => false
      if decide (p.st = .ready) && p.readySinceStart && !p.demandSinceStart && run.getLsbD k && healthy then
        (k, { p with st := .run, readySinceStart := false })
      else (k, p) }

/-- Both checkers start: every pair as its channels show (R391). -/
def Checker.start (c : Checker) (im : List Byte) (clk : Nat) : Checker :=
  { c with
    pairs := (List.range 16).filterMap fun k =>
      let cfg := cfgSp im k
      if spReal cfg then
        let (h, d) := pairLevels (spKind cfg) c.deb k
        some (k, SpSt.start cfg h d clk)
      else none
    seenLow := 0, rose := [] }

/-- The sample period in µs; 100 until a set is loaded (R372). -/
def Trip.sper (im : List Byte) : Nat := if cfgSper im = 0 then 100 else cfgSper im

/-- Checkers load the in-force set and begin to evaluate (R391); on the odd module of a pair half a sample period later (R372). -/
def State.tripStart (s : State) : State :=
  let t := s.trip
  let valid := imageOk t.image
  ({ s with trip := { t with running := true, cfgValid := valid, a := t.a.start t.image s.clk, b := t.b.start t.image s.clk } }).after .tripSample
    (if s.module % 2 = 1 then Trip.sper t.image * usec / 2 else 0)

/-- TRIP_IN and TRIP_DIAG as they stand (R377). -/
def Trip.words (t : Trip) : W64 × W64 :=
  let pairs (st : SpState) : Nat := (t.a.pairs.filter fun p => decide (p.2.st = st)).foldl (fun n p => n + 2 ^ p.1) 0
  let latched := (List.range 16).foldl (fun n m => if t.latched m then n + 2 ^ m else n) 0
  (BitVec.ofNat 64 (pairs .fault * 2 ^ 48 + pairs .run * 2 ^ 32 + t.a.deb.toNat),
   BitVec.ofNat 64 (latched * 2 ^ 48 + t.rb.toNat * 2 ^ 32 + t.a.ow.toNat))

/-- At commit the ACTIVE module passes bit 0 of every claimed VID of the partition's class (R379), after force substitution except for a checker's output (R54, R59); a latch of a partition-owned output clears after a committed cycle with 0 (R375). -/
def State.tripCommit (s : State) (p k : Nat) (bnd : W64) : State :=
  let s := (List.range 16).foldl (init := s) fun s m =>
    match s.claim m with
    | none => s
    | some (t, vid) =>
      if taskPart t.task ≠ p ∨ t.cls ≠ k then s
      else match s.homeEntry vid with
        | none => s
        | some e =>
          let own := outOwner (cfgOut s.trip.image m)
          let v := s.rdImg (s.nextBank e.cls) e.lii
          let v := if own = 2 then v else s.subst vid bnd v
          let on := v.getLsbD 0
          let tr := s.trip
          let tr := { tr with value := if on then tr.value ||| BitVec.twoPow 16 m else tr.value &&& ~~~(BitVec.twoPow 16 m) }
          let tr := if own = 1 ∧ !on then { tr with latch := terase tr.latch m, retries := terase tr.retries m, ovl := tr.ovl &&& ~~~(BitVec.twoPow 16 m) } else tr
          { s with trip := tr }
  s.tripDrive

end Sys2Proof.Machine
end

