-- ==== Sys2Proof/Machine/IoOps.lean ====
section
/-! DEFINITION. Local inputs and outputs at a cycle's ends: the latch 5 µs before a boundary (R377, R378, R403, R405, R406), CAN reference messages (R410), CAN transmission at commit (R407, R408) and station publications (R414). -/
namespace Sys2Proof.Machine

def State.canOf (s : State) (c : Nat) : Can := tget Can.reset s.can c
def State.setCan (s : State) (c : Nat) (x : Can) : State := { s with can := tput s.can c x }

/-- Data bytes of a DLC (R400, ISO 11898-1). -/
def dlcBytes (fdf : Bool) (dlc : Nat) : Nat :=
  if !fdf then min dlc 8
  else match dlc with
    | 9 => 12 | 10 => 16 | 11 => 20 | 12 => 24 | 13 => 32 | 14 => 48 | 15 => 64
    | n => n

/-- Data words of a frame for b bytes: byte j at word j/8; beyond the DLC and beyond b they are 0 (R405). -/
def packData (b n : Nat) (data : List Byte) : List W64 :=
  let kept := (data.take (min b n)) ++ List.replicate (8 * ((b + 7) / 8)) 0
  (List.range ((b + 7) / 8)).map fun i => BitVec.ofNat 64 (field kept (8 * i) 8)

/-- A received frame as object words, COUNT 0 (R405). -/
def frameWords (b : Nat) (f : CanFrame) : List W64 :=
  let flags := bit f.esi * 128 + bit f.ide * 64 + bit f.fdf * 32 + bit f.brs * 16 + f.dlc.toNat
  mk64 ((if f.ide then f.id else f.id &&& 0x7FF).setWidth 32) f.sof :: BitVec.ofNat 64 flags :: packData b (dlcBytes f.fdf f.dlc.toNat) f.data

/-- Object words with the COUNT of a reading class (R405). -/
def CanObj.latch (o : CanObj) (k : Nat) : List W64 :=
  let n := min 255 (tget 0 o.count k)
  match o.words with
  | w0 :: w1 :: r => w0 :: (w1 ||| BitVec.ofNat 64 (n * 256)) :: r
  | ws => ws

/-- The sequence window of a channel: a count word, then K slots of 10 words (R406). -/
def Can.window (c : Can) : List W64 :=
  let fs := c.q1.take c.seqDepth
  let w := bit c.takeover * 2 ^ 63 + (c.q1.length - fs.length) % 2 ^ 16 * 2 ^ 32 + c.dropped % 2 ^ 16 * 2 ^ 16 + fs.length
  BitVec.ofNat 64 w :: (fs.flatMap (frameWords 64)) ++ List.replicate (10 * (c.seqDepth - fs.length)) 0

/-- One channel at a latch instant of class k: its objects' words and, for its sequence class, the window; a standby empties RXQ1 (R405, R406). -/
def Can.latchAt (c : Can) (k : Nat) (own : Bool) : Can × List (List W64) × List W64 :=
  let objs := c.objs.map fun o => o.latch k
  let seq := decide (c.seqCls = some k)
  let win := if seq then c.window else []
  let c := { c with objs := c.objs.map fun o => { o with count := terase o.count k } }
  let c := if !seq then c
    else if own then { c with q1 := c.q1.drop c.seqDepth, dropped := 0, takeover := false }
    else { c with q1 := [], dropped := 0 }
  (if own then { c with latched := tput c.latched k (objs, win) } else c, objs, win)

/-- This module freezes its partner's words: it is a standby beside an ACTIVE partner (R378, R403). -/
def State.freezesPartner (s : State) : Bool :=
  !s.unpaired && s.partnerActive && (decide (s.mod.st = .synced) || decide (s.mod.st = .unsynced))

/-- The partner is a standby that is sent the words: R378. -/
def State.partnerStandby (s : State) : Bool :=
  match s.pair.view with
  | some v => decide (v.st = 4) || decide (v.st = 5)
  | none => false

/-- The boundary of class k that a latch serves: the next one, 5 µs ahead (R377). -/
def State.latchDue (s : State) (k : Nat) : Option W64 :=
  let c := s.cls_ k
  let b := c.nextBoundary s.now
  if c.period ≠ 0 ∧ since b s.now ≤ 5 * usec ∧ tfind s.trip.latchFor k ≠ some b then some b else none

/-- All channels latch (R405); the ACTIVE module sends what it latched (R403). -/
def State.canLatch (s : State) (k : Nat) (own sends : Bool) : State :=
  (List.range 4).foldl (init := s) fun s c =>
    let (x, objs, win) := (s.canOf c).latchAt k own
    let s := s.setCan c x
    if sends then s.toPartner (.canWords k c objs win) else s

/-- TRIP_WORD_LATCH (R377, R378, R403, R405, R406): 5 µs before a boundary of the class the trip words and CAN objects are latched and, on an ACTIVE module beside a standby, sent to it. -/
def execTripWordLatch (k : Fin 8) (s : State) : Host.Outcome State Fault Refusal :=
  .next (match s.latchDue k with
    | none => s
    | some b =>
      let own := !s.freezesPartner
      let sends := s.active && s.partnerStandby && !s.mod.isolated
      let (i, d) := s.trip.words
      let s := { s with trip := { s.trip with latchFor := tput s.trip.latchFor k b } }
      let s := if own then { s with trip := { s.trip with tripIn := tput s.trip.tripIn k i, tripDiag := tput s.trip.tripDiag k d } } else s
      let s := if sends then s.toPartner (.tripWords k i d) else s
      s.canLatch k own sends)

/-! ### CAN output -/

/-- The reference message of a boundary: the cycle count (T div period) mod 2^CYCLES (R410). -/
def refFrame (tref : W32) (period : Nat) (b : W64) : CanFrame :=
  let n := if period = 0 then 0 else b.toNat / (period * usec) % 2 ^ bitsAt tref.toNat 25 3
  { id := BitVec.ofNat 29 (bitsAt tref.toNat 0 11), ide := false, fdf := false, brs := false, esi := false, remote := false,
    dlc := 1, data := [BitVec.ofNat 8 n], sof := 0 }

/-- At a boundary of the TREF class the ACTIVE module queues a reference message; one not sent by then is withdrawn and counted, and none is sent before the first commit (R410, R415). -/
def State.canReference (s : State) (k : Nat) (b : W64) : State :=
  if !s.active then s
  else (List.range 4).foldl (init := s) fun s c =>
    let x := s.canOf c
    if x.tref.msb ∧ bitsAt x.tref.toNat 28 3 = k ∧ !x.refStop ∧ x.on ∧ s.mod.firstCommit then
      let n := if x.ref.isSome then x.withdrawn + 1 else x.withdrawn
      s.setCan c { x with ref := some (refFrame x.tref (s.cls_ k).period b), withdrawn := n }
    else s

/-- The frame of a transmit object from its data words (R407). -/
def canTxFrame (o : CanTxCfg) (ws : List W64) : CanFrame :=
  { id := o.id, ide := o.ide, fdf := o.fdf, brs := o.brs, esi := false, remote := false, dlc := o.dlc,
    data := (ws.flatMap fun w => leBytes 8 w.toNat).take (dlcBytes o.fdf o.dlc.toNat), sof := 0 }

/-- A frame queued in an object's slot: one not yet started is replaced and the replacement counted; newer contents wait behind one on the bus (R408). -/
def CanTx.queue (o : CanTx) (f : CanFrame) (ws : List W64) : CanTx × Nat :=
  let o := { o with last := some ws }
  match o.pend with
  | none => ({ o with pend := some f }, 0)
  | some _ => if o.onBus then ({ o with next := some f }, if o.next.isSome then 1 else 0) else ({ o with pend := some f }, 1)

/-- A transmit object at a commit of its class: triggered at every N-th commit, or on change (R407). -/
def CanTx.commit (o : CanTx) (ws : List W64) (queue : Bool) : CanTx × Nat :=
  let o := { o with commits := o.commits + 1 }
  let fire := if o.cfg.every = 0 then decide (o.last ≠ some ws) else decide (o.commits % o.cfg.every = 0)
  if fire && queue then o.queue (canTxFrame o.cfg ws) ws else (o, 0)

/-- A variable of a class at its commit, with its force (R54): in NEXT for that class. -/
def State.commitWord (s : State) (vid : W32) (k : Nat) (bnd : W64) : W64 :=
  match s.homeEntry (s.resolve vid) with
  | some e => s.subst e.vid bnd (s.rdImg (if e.cls = k then s.nextBank e.cls else s.curBank e.cls) e.lii)
  | none => 0

/-- The owning partition of a transmit object: that of the task whose outputs its data words are (R407). -/
def State.canOwner (s : State) (o : CanTxCfg) : Option Nat :=
  o.vids.findSome? fun v => (s.homeEntry (s.resolve v)).map (·.part)

/-- CAN transmit objects at the commit of a partition's class: only the ACTIVE module queues (R407, R408). -/
def State.canCommit (s : State) (p k : Nat) (bnd : W64) : State :=
  (List.range 4).foldl (init := s) fun s c =>
    let x := s.canOf c
    let (tx, n) := x.tx.foldl (init := (([] : List CanTx), 0)) fun (os, n) o =>
      if o.cfg.cls = k ∧ s.canOwner o.cfg = some p then
        let (o, d) := o.commit (o.cfg.vids.map fun v => s.commitWord v k bnd) s.publishes
        (os ++ [o], n + d)
      else (os ++ [o], n)
    s.setCan c { x with tx := tx, replaced := x.replaced + n }

/-! ### Station publications (R414) -/

/-- One entry of a datagram. -/
def pubEntry (vid : W32) (tag forced : Nat) (v : W64) : List Byte :=
  leBytes 4 vid.toNat ++ [BitVec.ofNat 8 tag, BitVec.ofNat 8 forced] ++ leBytes 2 0 ++ leBytes 8 v.toNat

def tagNum : Tag → Nat | .bits => 0 | .int => 1 | .real64 => 2 | .real32 => 3

/-- The committed value of a variable: NEXT for the class just committed, CURRENT otherwise. -/
def State.committedWord (s : State) (e : LiiEntry) (k : Nat) : W64 :=
  s.rdImg (if e.cls = k then s.nextBank e.cls else s.curBank e.cls) e.lii

/-- The access a publication makes to one variable: kind P by the service cores for its partition (R288, R291, R414). -/
def State.pubAccess (s : State) (p : Nat) (e : LiiEntry) (k : Nat) : Access :=
  { part := p, master := .service, kind := .p, source := 0,
    addr := imgAddr (if e.cls = k then s.nextBank e.cls else s.curBank e.cls) e.lii, len := 8 }

/-- The entries of a publication, or none where a VID is refused, with GUARD_DENY (R302, R414). -/
def State.pubEntries (s : State) (p k : Nat) (bnd : W64) : List W32 → Option (List Byte) × State
  | [] => (some [], s)
  | v :: r =>
    match s.homeEntry (s.resolve v) with
    | none => (none, s)
    | some e =>
      let a := s.pubAccess p e k
      let (ok, s) := s.guardCheck a
      if !ok then (none, s.recordDeny a)
      else
        let x := s.committedWord e k
        let f := s.forceOf e.vid bnd
        let (rest, s') := s.pubEntries p k bnd r
        (rest.map fun bs => pubEntry e.vid (tagNum e.tag) (bit f.isSome) (f.getD x) ++ bs, s')

/-- Header of a datagram (R414). -/
def pubHeader (pub : StationPub) (safe : Bool) (seq : W32) (stamp : W64) (epoch : W32) : List Byte :=
  [0x51, 0x44, 0x53, 0x50, 0x01, BitVec.ofNat 8 (bit safe)] ++ leBytes 2 pub.vids.length ++ leBytes 4 pub.id.toNat
    ++ leBytes 4 seq.toNat ++ leBytes 8 stamp.toNat ++ leBytes 4 epoch.toNat ++ leBytes 4 0

/-- Station publications at a commit: every N-th one sends, SEQ rising on both modules; only the ACTIVE module sends (R414). -/
def State.stationCommit (s : State) (p k : Nat) (bnd : W64) : State :=
  s.stn.pubs.foldl (init := s) fun s (pub, seq, n) =>
    if pub.part ≠ p ∨ pub.cls ≠ k then s
    else
      let fire := decide ((n + 1) % max 1 pub.every = 0)
      let upd (seq : W32) (s : State) : State :=
        { s with stn := { s.stn with pubs := s.stn.pubs.map fun q => if q.1.id = pub.id then (q.1, seq, n + 1) else q } }
      if !fire then upd seq s
      else
        let s := upd (seq + 1) s
        if !s.publishes then s
        else
          let (es, s) := s.pubEntries p k bnd pub.vids
          match es with
          | none => s
          | some bs =>
            let safe := decide (s.pstateOf p k = .safe)
            s.send (.udp (pubHeader pub safe seq bnd (((s.planAt bnd).map (·.epoch)).getD s.pl.epoch) ++ bs) pub.dstIp pub.dstPort)

end Sys2Proof.Machine
end

