-- ==== Sys2Proof/Machine/Store.lean ====
section
/-! DEFINITION. The application store (R257, R258, R270): which packages each half holds, and the move of a version into the committed half, entry by entry. -/
namespace Sys2Proof.Machine

/-- The partition whose task a package brings (R32). -/
def Package.of (g : Package) : Nat := taskPart g.task.task

/-- Room of one half (R270). -/
def storeRoom : Nat := 2 ^ 24

/-- Bytes of a store entry (log 41). -/
def Package.bytes (g : Package) : List Byte := leBytes 4 g.task.task.toNat ++ g.task.codeP ++ g.task.codeC ++ g.task.dmP ++ g.task.dmC

def Package.size (g : Package) : Nat := 4 + g.task.codeP.length + g.task.codeC.length + g.task.dmP.length + g.task.dmC.length

/-- The current version of a partition: its confirmed packages (R256). -/
def currentPkgs (d : Domain) (x : PartPlan) : List Package :=
  if x.change = .unconfirmed then x.other else d.packages.filter fun g => decide (Package.of g = x.cfg.part)

/-- Its new version, while its change is STAGED or UNCONFIRMED (R256). -/
def newPkgs (d : Domain) (x : PartPlan) : List Package :=
  match x.change with
  | .none => []
  | .staged => x.other
  | .unconfirmed => d.packages.filter fun g => decide (Package.of g = x.cfg.part)

/-- A partition has tasks hosted or staged on a module, the staged copies of R150 among them (R257). -/
def ModPlan.holdsPart (p : ModPlan) (part : Nat) : Bool := (p.tasks ++ p.staged ++ p.rescue).any fun t => decide (taskPart t.task = part)

/-- What the other half of a module's store holds under a plan (R257). -/
def otherHalf (p : ModPlan) (d : Domain) : List Package := (d.parts.filter fun x => ModPlan.holdsPart p x.cfg.part).flatMap (newPkgs d)

/-- The new versions fit in the other half of a module (R257). -/
def storeFits (p : ModPlan) (d : Domain) : Bool := decide (((otherHalf p d).map Package.size).sum ≤ storeRoom)

/-- The move a partition needs for its current version to stand in the committed half. -/
def Nv.moveFor (n : Nv) (d : Domain) (x : PartPlan) : Option Move :=
  let want := currentPkgs d x
  let left := want.filter fun e => decide (e ∉ n.app)
  let stale := n.app.any fun e => decide (Package.of e = x.cfg.part) && decide (e ∉ want)
  if left.isEmpty && !stale then none else some { part := x.cfg.part, want := want, left := left, written := false }

/-- The store follows an epoch: the other half takes the new versions, entries of partitions that have left the module go, and a move begins for every partition whose current version is another one (R257, R258). -/
def Nv.follow (n : Nv) (p : ModPlan) (d : Domain) : Nv :=
  let here := d.parts.filter fun x => ModPlan.holdsPart p x.cfg.part
  let n := { n with appNew := otherHalf p d, app := n.app.filter fun e => here.any fun x => decide (x.cfg.part = Package.of e) }
  { n with moves := here.filterMap (n.moveFor d) }

/-- One step of a move (R258): an entry is written beside the old one; then it is read back, and only a matching CRC-32C lets the old entry of its task go. After the last entry the old tasks that the version lacks go. -/
def Nv.moveStep (n : Nv) : Nv :=
  match n.moves with
  | [] => n
  | m :: rest =>
    match m.left with
    | [] => { n with app := n.app.filter fun e => decide (Package.of e ≠ m.part) || decide (e ∈ m.want), moves := rest }
    | e :: es =>
      if !m.written then { n with app := n.app ++ [e], moves := { m with written := true } :: rest }
      else if (n.app.getLast?.map fun g => crc32c (Package.bytes g)) = some (crc32c (Package.bytes e)) then
        { n with app := (n.app.filter fun g => decide (g.task.task ≠ e.task.task)) ++ [e], moves := { m with left := es, written := false } :: rest }
      else { n with app := n.app.dropLast, moves := { m with written := false } :: rest }

/-- Every open move to its end. -/
def Nv.moveAll (n : Nv) : Nv :=
  (List.range (n.moves.foldl (fun k m => k + 2 * m.left.length + 1) 0)).foldl (fun n _ => n.moveStep) n

/-- The firmware moves one entry further while it runs. -/
def State.moveEntry (s : State) : State :=
  match s.mod.st with
  | .off | .bypass | .boot | .recovery => s
  | _ => { s with nv := s.nv.moveStep }

end Sys2Proof.Machine
end

