-- ==== Sys2Proof/Machine/Cycle.lean ====
section
/-! DEFINITION. One control cycle: class boundaries with the end of the old cycle, the bank swap and the freeze (R12 to R16, R23 to R25, R43 to R46, R51, R153, R491), collection into NEXT (R19, R47), commit and publication (R21, R22, R157, R211 to R213, R225, R227) and late partners (R228). -/
namespace Sys2Proof.Machine

/-! ### The end of a class cycle -/

/-- A MIRROR that marks a class cycle as not committed (R225). -/
def notCommitted (p k : Nat) (b : W64) : MirrorMsg :=
  { part := p, cls := k, bnd := lo32 b, committed := false, complete := true, words := [], pubSeq := [], inSeq := [], dm := [], overruns := [] }

/-- The ACTIVE module mirrors a class cycle of a partition: warm ones to a standby, and every one to a standby that synchronises (R225, R255). -/
def State.mirrors (s : State) (p k : Nat) (b : W64) : Bool :=
  s.active && !s.unpaired && s.partnerStandby && !s.mod.isolated && (!s.hotIn p k b || !s.partnerSynced)

/-- A class cycle of a partition ends at boundary b: not committed and not withheld, each of its tasks is an overrun (R24, R51, R52). -/
def State.endCycle (s : State) (p k : Nat) (pb b : W64) : State :=
  let c := s.cycle p k pb
  let s := if !c.committed && s.mirrors p k pb && decide (s.pstateOf p k = .running) && !(s.partTasks p k).isEmpty then s.toPartner (.mirror (notCommitted p k pb)) else s
  if c.committed || c.withheld || decide (s.pstateOf p k ≠ .running) || !s.executes p k pb then s
  else (s.partTasks p k).foldl (init := s) fun s t =>
    if ((c.ownOf t.task).map (·.status)) = some 0x02 then s
    else (s.countOverrun t.task k pb 0x0202).recordOverrun t.task k t.lane (lo32 b) 0xFFFFFFFF

/-- UNIT_DELAY of inputs whose producer never delivered in the cycle (R47; log 20). -/
def State.endDelays (s : State) (k : Nat) (pb : W64) : State :=
  let mine (d : W32 × W64 × Nat) : Bool := decide (d.2.1 = pb) && (s.tasksOf k).any fun t => decide (t.task = d.1)
  let s := (s.delays.filter mine).foldl (init := s) fun s d =>
    let prod := ((s.findTask d.1).bind fun t => (t.ins.find? fun i => decide (i.lii = d.2.2)).map (·.producer)).getD 0
    if s.inNext.any fun q => decide (q = (prod, pb)) then s
    else s.record 0x0203 (taskPart d.1) s.module d.1 prod (BitVec.ofNat 32 d.2.2) 0xFFFFFFFF
  { s with delays := s.delays.filter fun d => !mine d, late := s.late.filter fun d => decide (d.2 ≠ pb) || !(s.tasksOf k).any fun t => decide (t.task = d.1) }

/-- The bundle of a task was committed in a cycle. -/
def State.committedTask (s : State) (task : W32) (k : Nat) (b : W64) : Bool :=
  let c := s.cycle (taskPart task) k b
  c.committed && decide ((task, true) ∈ c.settled)

/-- Values of the class whose writers did not commit are carried into the bank that becomes CURRENT (R23); replicas keep what the previous freeze wrote (R14). -/
def State.carryOver (s : State) (k : Nat) (pb : Option W64) : State :=
  (s.planOf k).lii.foldl (init := s) fun s e =>
    if e.cls ≠ k then s
    else
      let done := match pb with
        | some b => decide (e.writer ≠ 0) && s.committedTask e.writer k b
        | none => false
      if done then s else s.wrImg (s.nextBank k) e.lii (s.rdImg (s.curBank k) e.lii)

/-! ### States, profiles and plans that change at a boundary -/

/-- PSTATE codes (R348, R420). -/
def PState.num : PState → Nat
  | .loaded => 0 | .running => 1 | .safe => 2

/-- PARTITION_STATE record and notice at the boundary of the change (R60, R491). -/
def State.partitionChanged (s : State) (p : Nat) (old new : PState) (code : W16) (b : W64) : State :=
  let s := s.recordAt (lo32 b) 0x0201 p s.module (BitVec.ofNat 32 old.num) (BitVec.ofNat 32 new.num) (code.setWidth 32) 0
  s.notifyBoth p 0xF003
    (leBytes 2 p ++ [BitVec.ofNat 8 old.num, BitVec.ofNat 8 new.num] ++ leBytes 2 code.toNat ++ leBytes 2 0 ++ leBytes 4 (lo32 b).toNat)

/-- Output VIDs of a partition's class take their declared safe values; under "hold" the last committed value, which is CURRENT after the swap, is what NEXT publishes too (R62). -/
def State.safeValues (s : State) (p k : Nat) : State :=
  (s.partTasks p k).foldl (init := s) fun s t => t.outs.foldl (init := s) fun s o =>
    match o.safe with
    | some v => (s.wrImg 0 o.lii v).wrImg 1 o.lii v
    | none => s.wrImg (s.nextBank k) o.lii (s.rdImg (s.curBank k) o.lii)

/-- Sets read by a partition's class show NEVER until a complete set has been frozen since it entered RUNNING (R14, R45). -/
def State.forgetSets (s : State) (p k : Nat) : State :=
  ((s.planOf k).subs.filter fun u => decide (u.part = p) && decide (u.cls = k)).foldl (init := s) fun s u =>
    { s with setRx := s.setRx.map fun r => (r.1, { r.2 with frozen := terase r.2.frozen u.statusLii }) }

/-- What a class of a partition does on entering a state (R45, R62). -/
def State.enterEffect (s : State) (p k : Nat) (b : W64) (old st : PState) : State :=
  let mark (s : State) (f : Table W64 → Table W64) : State := match s.part? p with
    | some x => s.setPart p { x with owedFrom := f x.owedFrom }
    | none => s
  match st with
  | .safe => s.safeValues p k
  | .running => mark (s.forgetSets p k) fun t => if old = .loaded then tput t k b else t
  | .loaded => mark s fun t => terase t k

/-- A module that hosts tasks of a partition tells of its changes; where no module does, each tells (R491). -/
def State.tellsState (s : State) (p : Nat) : Bool :=
  !(s.classesOf p).isEmpty || !s.pl.dom.packages.any fun g => decide (taskPart g.task.task = p)

/-- Class k enters the orders whose instants have come, the earliest first; the first class to enter one changes the state of the partition as a whole (R491). -/
def State.enterOrders (k : Nat) (b : W64) (p : Nat) : List Order → State → State × List Order
  | [], s => (s, [])
  | o :: r, s =>
    if !reached o.e b || decide (k ∈ o.entered) then
      let (s, r) := State.enterOrders k b p r s
      (s, o :: r)
    else
      let old := ((s.part? p).map (·.state)).getD .loaded
      let was := s.pstateOf p k
      let s := match s.part? p with
        | some x => s.setPart p { x with state := o.st }
        | none => s
      let s := if o.entered.isEmpty && s.tellsState p then s.partitionChanged p old o.st o.code b else s
      let (s, r) := State.enterOrders k b p r (s.enterEffect p k b was o.st)
      (s, { o with entered := k :: o.entered } :: r)

/-- Orders that every class has entered are over; the state before the next one is theirs. -/
def settleOrders (ks : List Nat) (was : PState) : List Order → PState × List Order
  | [] => (was, [])
  | o :: r => if ks.all fun j => decide (j ∈ o.entered) then settleOrders ks o.st r else (was, o :: r)

/-- Class k of a partition reaches its first boundary at or after the instant ordered for a new state (R39, R61, R63, R491). The classes are those that the partition uses on any module. -/
def State.enterState (s : State) (k : Nat) (b : W64) (p : Nat) : State :=
  match s.part? p with
  | none => s
  | some x =>
    let ks := s.classesAll p
    if x.pend.isNone || (decide (k ∉ ks) && !ks.isEmpty) || !x.orders.any fun o => reached o.e b && decide (k ∉ o.entered) then s
    else
      let (s, os) := State.enterOrders k b p x.orders s
      let (was, os) := settleOrders ks x.was os
      match s.part? p with
      | some y => s.setPart p ({ y with was := was }.withOrders os)
      | none => s

/-- Class k of a partition changes profile (R43). -/
def State.enterProfile (s : State) (k : Nat) (b : W64) (p : Nat) : State :=
  match s.part? p with
  | none => s
  | some x =>
    match x.pendProfile with
    | none => s
    | some (q, e) =>
      let ks := s.classesAll p
      if !reached e b || decide (k ∈ x.profEntered) || (decide (k ∉ ks) && !ks.isEmpty) then s
      else
        let ent := k :: x.profEntered
        let x := if (x.profileOf k).hot && !q.hot then { x with owedFrom := tput x.owedFrom k b } else x
        if ks.all fun j => decide (j ∈ ent) then
          s.setPart p { x with cfg := { x.cfg with profile := q }, pendProfile := none, profEntered := [] }
        else s.setPart p { x with profEntered := ent }

/-- Writer of a variable that a staged version will bring in: no task stores it yet (R260, R264). -/
def notYet : W32 := BitVec.allOnes 32

/-- The DM state a native task without a coded variant declares, each byte by its place in the task's data window (R157, R225). -/
def State.dmState (s : State) (t : TaskPlan) : List (Nat × Byte) :=
  if t.coded || t.bitLogic then []
  else (List.range t.dm).map fun i => (i, Mem.rd s.mem (dmAddr t.lane (TaskPlan.dmAt t i)))

/-- DM state put into a task's data window, wherever that lies on this module. -/
def State.putDm (s : State) (t : TaskPlan) (dm : List (Nat × Byte)) : State :=
  dm.foldl (fun (s : State) d => s.wrMem (dmAddr t.lane (TaskPlan.dmAt t d.1)) 1 d.2.toNat) s

/-- The state of a unit after a delta that this module holds complete: the newest, or one before it (R158, R159). -/
def Migr.snap (m : Migr) (n : Nat) : Snap :=
  (m.past.find? fun x => decide (x.number = n)).getD { number := m.newest, words := m.words, dm := m.dm, forces := m.forces }

/-- The task that stands for its unit: the lowest of the tasks linked to it (R148). -/
def State.unitHead (s : State) (t : TaskPlan) : Bool :=
  match (unitsOf s.pl.plan.tasks).find? fun u => u.any fun x => decide (x.task = t.task) with
  | some u => decide (lowestTask u = t.task.toNat)
  | none => true

/-- What a task starts from on its new host: the recovery shadow, or the delta that the pair agreed on, else the declared initial values; its DM from the package, which the DM state of a migration replaces (R146, R158, R159, R166). -/
def State.arrive (s : State) (k : Nat) (t : TaskPlan) (b : W64) : State :=
  let put (s : State) (ws : List (W32 × W64)) : State := t.outs.foldl (init := s) fun s o =>
    let v := ((ws.find? fun w => decide (w.1 = o.decl)).map (·.2)).getD o.init
    (s.wrImg (s.curBank k) o.lii v).wrImg (s.nextBank k) o.lii v
  let s := s.dmInit t
  if t.task ∈ s.pl.plan.replaced then
    let hs := s.pl.shadow.filter fun h => h.2.2.any fun w => t.outs.any fun o => decide (o.decl = w.1)
    let s := put s (hs.flatMap (·.2.2))
    if s.unitHead t then
      s.record 0x0404 (taskPart t.task) s.module t.task (BitVec.ofNat 32 (pairOf s.module)) ((hs.head?.map (·.2.1)).getD 0) 0
    else s
  else
    match s.pl.migr.find? fun m => m.incoming && decide (m.task = t.task) with
    | some m =>
      let used := m.agreed.getD m.newest
      let x := m.snap used
      let s := (put s x.words).putDm t x.dm
      let fs := t.outs.filterMap fun o => (x.forces.find? fun f => decide (f.1 = o.decl)).map fun f =>
        ({ vid := o.vid, val := f.2, part := taskPart t.task, e := b, prev := none, live := true } : Force)
      let s := { s with forces := fs ++ s.forces.filter fun f => !fs.any fun g => decide (g.vid = f.vid) }
      if m.final && decide (used = m.newest) then s
      else s.record 0x0407 (taskPart t.task) s.module t.task (BitVec.ofNat 32 used) (BitVec.ofNat 32 (if m.final then m.newest else m.newest + 1)) 0xFFFFFFFF
    | none => put s []

/-- The value of an output at the switch: kept where the old plan holds it here under the same tag, else its initial value (R264, R265). -/
def State.keepOut (s : State) (k : Nat) (o : OutVar) : State :=
  match s.pl.old.lii.find? fun e => decide (e.declared = o.decl) && decide (e.writer ≠ notYet) && !e.replica with
  | some e =>
    if e.tag ≠ o.tag then (s.wrImg (s.curBank k) o.lii o.init).wrImg (s.nextBank k) o.lii o.init
    else if e.lii = o.lii ∧ e.cls = k then s
    else
      let v := s.rdImg (s.curBank e.cls) e.lii
      (s.wrImg (s.curBank k) o.lii v).wrImg (s.nextBank k) o.lii v
  | none => (s.wrImg (s.curBank k) o.lii o.init).wrImg (s.nextBank k) o.lii o.init

/-- DM and the count of overruns of a task that stays: a lane change within the pair takes the DM state along, and a new version with another DM layout starts from its package (R146, R265). -/
def State.keepTask (s : State) (t u : TaskPlan) : State :=
  let carried := !t.coded && !t.bitLogic && decide (t.dmDigest = u.dmDigest)
  let newVersion := decide (t.codeP ≠ u.codeP) || decide (t.dmDigest ≠ u.dmDigest)
  let s := if newVersion then s.clearOverrun t.task else s
  if t.lane = u.lane ∧ t.dwinP = u.dwinP then s
  else if carried then
    s.putDm t (s.dmState u)
  else s.dmInit t

/-- ARBITRATION_MOVED: a unit leaves with its last cycle withheld (R235). -/
def State.arbitrationMoved (s : State) (k : Nat) (pb : Option W64) (t : W32) : State :=
  match pb with
  | none => s
  | some b =>
    let c := s.cycle (taskPart t) k b
    if c.withheld ∧ t ∈ c.disputed then
      s.record 0x0607 (taskPart t) s.module (BitVec.ofNat 32 (taskPart t)) (BitVec.ofNat 32 k) t 0
    else s

/-- An affected class switches to the new plan at its first boundary at or after the apply instant; forces leave with the units that move away (R54, R145, R153, R158, R264). -/
def State.switchPlan (s : State) (k : Nat) (pb : Option W64) (b : W64) : State :=
  let c := s.cls_ k
  if c.switched || !reached s.pl.lastApply b then s
  else
    let gone := (s.pl.old.tasks.filter fun t => decide (t.cls = k)).filter fun t => !s.pl.plan.tasks.any fun u => decide (u.task = t.task)
    let s := gone.foldl (fun (s : State) t => s.arbitrationMoved k pb t.task) s
    let left := gone.filter fun t => s.pl.plan.migrOut.any fun q => decide (q.1 = t.task)
    let s := { s with forces := s.forces.filter fun f => !left.any fun t => t.outs.any fun o => decide (o.vid = f.vid) }
    let s := (s.setCls k { c with switched := true }).setEventClasses (s.pl.old.tasks ++ s.pl.plan.tasks)
    let s := (s.tasksOf k).foldl (init := s) fun s t =>
      match s.pl.old.tasks.find? fun u => decide (u.task = t.task) with
      | some u => t.outs.foldl (fun (s : State) o => s.keepOut k o) (s.keepTask t u)
      | none => if s.pl.old.staged.any (fun u => decide (u.task = t.task)) && decide (t.task ∉ s.pl.plan.replaced) then
          t.outs.foldl (fun (s : State) o => s.keepOut k o) (s.dmInit t)
        else s.arrive k t b
    if (List.range 8).all fun j => (s.cls_ j).switched then
      let left := s.pl.migr.filter fun m => !s.pl.plan.migrIn.any (fun q => decide (q.1 = m.task)) && !s.pl.plan.migrOut.any fun q => decide (q.1 = m.task)
      { s with pl := { s.pl with old := emptyPlan, migr := left } }
    else s

/-! ### The boundary (R12, R25, R365) -/

/-- The boundary of a class that has come, and whether a cycle starts there; after a time step the cycle in progress ends at its old-time boundary and the next one begins on the new grid a period later (R365). -/
def State.boundaryDue (s : State) (k : Nat) : Option (W64 × Bool) :=
  let c := s.cls_ k
  let b := c.lastBoundary s.now
  if c.period = 0 || !s.joined then none
  else match tfind s.time.grid k with
    | some g =>
      if c.bnd.isSome then (if reached g s.now then some (g, false) else none)
      else if reached (g + BitVec.ofNat 64 (c.period * usec)) b ∧ since s.now b ≤ 1 then some (b, true)
      else none
    | none => if since s.now b ≤ 1 ∧ c.bnd ≠ some b then some (b, true) else none

/-- Lanes that run tasks of a class in this cycle. -/
def State.cycleLanes (s : State) (k : Nat) (b : W64) : List Nat :=
  ((s.tasksOf k).filter fun t => s.executes (taskPart t.task) k b && decide (s.pstateOf (taskPart t.task) k = .running)).map (·.lane)

/-- Lanes of the class are owed their cycle start, and gated ones are woken (R16, R452). -/
def State.oweLanes (s : State) (k : Nat) (b : W64) : State :=
  (s.cycleLanes k b).foldl (init := s) fun s l =>
    let x := s.lane l
    (s.setLane l { x with owed := x.owed ||| BitVec.twoPow 8 k }).requestWake l .cycle

/-- Partitions whose cycle was withheld run an arbitration cycle next (R233). -/
def State.arbitrate (s : State) (k : Nat) (pb : Option W64) (b : W64) : State :=
  match pb with
  | none => s
  | some pb =>
    (s.cycles.filter fun c => decide (c.cls = k) && decide (c.bnd = pb) && c.withheld).foldl (init := s) fun s c =>
      let still := c.disputed.filter fun t => (s.tasksOf k).any fun u => decide (u.task = t)
      if still.isEmpty then s
      else s.setCycle { s.cycle c.part k b with arbitration := true, disputed := still }

/-- Steps 3 and 4 of a handover are over once every class has begun a cycle after H (R246). -/
def State.handDone (s : State) : State :=
  match s.pair.hand with
  | some h =>
    if h.stage = 2 ∧ (List.range 8).all fun k =>
        decide ((s.tasksOf k).isEmpty) || (match (s.cls_ k).bnd with | some b => reached h.h b && decide (b ≠ h.h) | none => false) then s.endHand
    else s
  | none => s

/-- A class passes its boundary: the old cycle ends, banks swap, ordered states, profiles and plans take effect, the new cycle begins (R23, R24, R43, R51, R153, R491). -/
def State.passBoundary (s : State) (k : Nat) (b : W64) (start : Bool) : State :=
  let pb := (s.cls_ k).bnd
  let parts := s.parts.map (·.1)
  let s := match pb with
    | some pb => (parts.foldl (fun (s : State) p => s.endCycle p k pb b) s).endDelays k pb
    | none => s
  let s := s.carryOver k pb
  let c := s.cls_ k
  let s := s.setCls k { c with cur := !c.cur, bnd := if start then some b else none, prevBnd := pb, count := c.count + 1 }
  let s := s.switchPlan k pb b
  let s := parts.foldl (fun (s : State) p => (s.enterState k b p).enterProfile k b p) s
  let s := { s with
    inNext := s.inNext.filter fun q => some q.2 ≠ pb ∨ !(s.tasksOf k).any fun t => decide (t.task = q.1)
    words := s.words.filter fun q => some q.2.1 = pb ∨ !(s.tasksOf k).any fun t => decide (t.task = q.1)
    cycles := s.cycles.filter fun y => decide (y.cls ≠ k) || decide (some y.bnd = pb) || reached b y.bnd
    time := if start then { s.time with grid := terase s.time.grid k } else s.time }
  let s := (s.tasksOf k).foldl (fun (s : State) t => (s.setLane t.lane ((s.lane t.lane).cycleOver k)).relevel t.lane) s
  let s := if start then ((s.arbitrate k pb b).oweLanes k b).canReference k b else s
  s.handDone.tripDrive

/-! ### The freeze (R13 to R15, R45, R46) -/

/-- A status word (R45). -/
def statusWord (held never old safe : Bool) (seq : W32) (age : Nat) : W64 :=
  BitVec.ofNat 64 (bit held * 2 ^ 63 + bit never * 2 ^ 62 + bit old * 2 ^ 61 + bit safe * 2 ^ 60 + seq.toNat % 2 ^ 16 * 2 ^ 32 + age)

/-- AGE: µs from a stamp to the boundary, saturating (R45). -/
def ageUs (b : W64) (stamp : W32) : Nat := min ((b - extNear b stamp).toNat / 1000) 0xFFFFFFFF

/-- The stamp selected: the producer's last boundary at or before b less the allowance, or an adapter's newest instance there (R13). -/
def State.selectStamp (s : State) (u : SubPlan) (r : SetRx) (b : W64) : Option W32 :=
  let lim := b - BitVec.ofNat 64 (u.allowance * usec)
  match u.producerCls with
  | some pk => some (lo32 ((s.cls_ pk).lastBoundary lim))
  | none =>
    ((r.complete ++ r.partial_).filter fun i => reached (extNear b i.stamp) lim).foldl (init := none) fun m i =>
      match m with
      | none => some i.stamp
      | some t => if 0 < (i.stamp - t).toInt then some i.stamp else some t

/-- Writes a frozen word with its force (R54). -/
def State.freezeWord (s : State) (k lii : Nat) (v : W64) (b : W64) : State :=
  let v := match s.liiEntry k lii with
    | some e => s.subst e.vid b v
    | none => v
  s.wrImg (s.curBank k) lii v

/-- The values of a set in set order; LII 0xFFFFF, which is never assigned, stands for a word that no task here reads (R146). -/
def State.freezeValues (s : State) (k : Nat) (b : W64) (liis : List Nat) (val : Nat → W64) : State :=
  ((List.range liis.length).foldl (init := s) fun s i =>
    match liis[i]? with
    | some l => if l = 0xFFFFF then s else s.freezeWord k l (val i) b
    | none => s)

/-- DATA_AGE_OLD and DATA_AGE_OK for a change of OLD between two freezes with a value (R46). -/
def State.ageRecord (s : State) (u : SubPlan) (was now : Bool) (age : Nat) : State :=
  if was = now then s
  else s.record (if now then 0x0205 else 0x0206) u.part s.module u.set (BitVec.ofNat 32 u.cls) (BitVec.ofNat 32 age) 0

/-- The subscription as the plan in force at a stamp has it: another set while the producer stood elsewhere, its words in another order (R156, R212). -/
def State.subAt (s : State) (u : SubPlan) (stamp : W64) : SubPlan :=
  match s.planAt stamp with
  | none => u
  | some h =>
    let mine := h.subs.filter fun x => decide (x.part = u.part) && decide (x.cls = u.cls)
    ((mine.find? fun x => decide (x.set = u.set) && decide (x.maxAge = u.maxAge)).orElse fun _ =>
      mine.find? fun x => decide (x.statusLii = u.statusLii)).getD u

/-- What was frozen last for a subscription: SEQ, stamp and OLD, also under the set ID that its producer had before (R14, R45, R156). -/
def State.frozenOf (s : State) (u : SubPlan) : Option (W32 × W32 × Bool) :=
  let now (set : W32) : Option (W32 × W32 × Bool) := tfind (tget SetRx.reset s.setRx set.toNat).frozen u.statusLii
  (now u.set).orElse fun _ => (s.pl.history.flatMap (·.subs)).findSome? fun x =>
    if x.part = u.part ∧ x.cls = u.cls ∧ x.statusLii = u.statusLii then now x.set else none

/-- One subscription's freeze: the selected instance if it is complete, else the previous values with HELD (R13, R14, R45, R46). -/
def State.freezeSub (s : State) (k : Nat) (b : W64) (u : SubPlan) : State :=
  let r := tget SetRx.reset s.setRx u.set.toNat
  let prev := s.frozenOf u
  let sel := (s.selectStamp u r b).bind fun t =>
    let v := s.subAt u (extNear b t)
    ((tget SetRx.reset s.setRx v.set.toNat).complete.find? fun i => decide (i.stamp = t)).map fun i => (v, i)
  let put (s : State) (f : W32 × W32 × Bool) : State :=
    let r := tget SetRx.reset s.setRx u.set.toNat
    { s with setRx := tput s.setRx u.set.toNat { r with frozen := tput r.frozen u.statusLii f } }
  match sel with
  | some (v, i) =>
    let age := ageUs b i.stamp
    let old := decide (u.maxAge < age)
    let s := s.freezeValues k b (v.words.map fun l => if l ∈ u.words then l else 0xFFFFF) fun n => tget 0 i.words n
    let s := s.wrImg (s.curBank k) u.statusLii (statusWord false false old i.safe i.seq age)
    let s := put s (i.seq, i.stamp, old)
    match prev with
    | some (_, _, was) => s.ageRecord u was old age
    | none => s
  | none =>
    match prev with
    | some (seq, stamp, was) =>
      let age := ageUs b stamp
      let old := decide (u.maxAge < age)
      let safe := (s.rdImg (s.curBank k) u.statusLii).getLsbD 60
      let s := s.wrImg (s.curBank k) u.statusLii (statusWord true false old safe seq age)
      let s := put s (seq, stamp, old)
      let s := s.record 0x0204 u.part s.module u.set (BitVec.ofNat 32 u.cls) seq (sat32 ((b - extNear b stamp).toNat))
      s.ageRecord u was old age
    | none =>
      let s := s.freezeValues k b u.words fun n => if u.producerCls.isSome then (u.inits[n]?).getD 0 else 0
      let s := s.wrImg (s.curBank k) u.statusLii (statusWord true true true false 0 0xFFFFFFFF)
      s.record 0x0204 u.part s.module u.set (BitVec.ofNat 32 u.cls) 0 0xFFFFFFFF

/-- A copy of trip words, or of one CAN channel's words. -/
def CopySrc.isTrip : CopySrc → Bool
  | .tripIn | .tripDiag => true
  | _ => false
def CopySrc.channel : CopySrc → Option Nat
  | .canWord c _ _ => some c
  | .canWindow c _ => some c
  | _ => none

end Sys2Proof.Machine

namespace Sys2Proof

def CopySrc.trip (c : CopySrc) : Bool := Machine.CopySrc.isTrip c
def CopySrc.chan (c : CopySrc) : Option Nat := Machine.CopySrc.channel c

end Sys2Proof

namespace Sys2Proof.Machine

/-- Tasks that read words which came late report STATUS 0x04 (R378, R403). -/
def State.markLate (s : State) (k : Nat) (b : W64) (hit : CopyPlan → Bool) : State :=
  let liis := ((s.planOf k).copies.filter fun c => decide (c.cls = k) && hit c).map (·.lii)
  let ts := (s.tasksOf k).filter fun t => t.ins.any fun i => decide (i.lii ∈ liis)
  { s with late := ts.map (fun t => (t.task, b)) ++ s.late }

/-- The trip words a class freezes: its own latch, or on a standby the ACTIVE module's, and the previous ones where they are late (R378). -/
def State.tripFreeze (s : State) (k : Nat) (b : W64) : State :=
  if !s.freezesPartner || !(s.planOf k).copies.any fun c => decide (c.cls = k) && c.src.trip then s
  else
    let t := s.trip
    let s := match tfind t.lateAt k with
      | some _ => s.record 0x0A04 t.safetyPart 0 (BitVec.ofNat 32 k) 0 0 0xFFFFFFFF
      | none => s
    match tfind t.rxIn k with
    | some (i, d) =>
      { s with trip := { t with tripIn := tput t.tripIn k i, tripDiag := tput t.tripDiag k d, rxIn := terase t.rxIn k, lateAt := terase t.lateAt k } }
    | none => { s with trip := { t with lateAt := tput t.lateAt k b } }.markLate k b fun c => c.src.trip

/-- The CAN words a class freezes (R403), as the trip words. -/
def State.canFreeze (s : State) (k : Nat) (b : W64) : State :=
  if !s.freezesPartner then s
  else (List.range 4).foldl (init := s) fun s c =>
    if !(s.planOf k).copies.any fun y => decide (y.cls = k) && decide (y.src.chan = some c) then s
    else
      let x := s.canOf c
      let s := match tfind x.lateAt k with
        | some _ => s.record 0x0B01 0 c (BitVec.ofNat 32 c) (BitVec.ofNat 32 k) 0 0xFFFFFFFF
        | none => s
      match tfind x.rx k with
      | some w => s.setCan c { x with latched := tput x.latched k w, rx := terase x.rx k, lateAt := terase x.lateAt k }
      | none => (s.setCan c { x with lateAt := tput x.lateAt k b }).markLate k b fun y => decide (y.src.chan = some c)

/-- The value a copy freezes (R13). -/
def State.copyValue (s : State) (k : Nat) (c : CopySrc) : W64 :=
  match c with
  | .local lii j => s.rdImg (s.curBank j) lii
  | .io => 0
  | .tripIn => tget 0 s.trip.tripIn k
  | .tripDiag => tget 0 s.trip.tripDiag k
  | .canWord ch o w => (((tget ([], []) (s.canOf ch).latched k).1[o]?).bind fun ws => ws[w]?).getD 0
  | .canWindow ch w => ((tget ([], []) (s.canOf ch).latched k).2[w]?).getD 0

/-- The clk at which the copies that run now are complete: the next one begins then (R25, R64). -/
def State.copiesEnd (s : State) : Nat :=
  (List.range 8).foldl (init := s.clk) fun t k => match (s.cls_ k).freezing with
    | some e => max t e
    | none => t

/-- The freeze copy of a class begins (R13 to R15); 4 words per lane clock after the copies that run, and the copy's end is when FREEZE_COPY_DONE may come. -/
def State.freeze (s : State) (k : Nat) (b : W64) : State :=
  let pl := s.planOf k
  let subs := pl.subs.filter fun u => decide (u.cls = k)
  let copies := pl.copies.filter fun c => decide (c.cls = k)
  let n := (subs.map fun u => (u.words.filter fun l => decide (l ≠ 0xFFFFF)).length + 1).foldl (· + ·) 0 + copies.length
  let s := (s.tripFreeze k b).canFreeze k b
  let s := subs.foldl (fun (s : State) u => s.freezeSub k b u) s
  let s := copies.foldl (fun (s : State) c => s.wrImg (s.curBank k) c.lii (s.subst c.vid b (s.copyValue k c.src))) s
  let s := s.count (ctrEv 0x22 n 0)
  let c := s.cls_ k
  s.setCls k { c with frozen := some b, freezing := some (s.copiesEnd + (n + 3) / 4) }

/-- All classes whose boundary has come pass it, C0 first, before any freeze (R25). -/
def State.passAll (s : State) : State :=
  (List.range 8).foldl (init := s) fun s k => match s.boundaryDue k with
    | some (b, start) => s.passBoundary k b start
    | none => s

/-- The cycle start of a class whose copy is complete: lanes that are awake get it (R16). -/
def State.copyDone (s : State) (k : Nat) : State :=
  let c := s.cls_ k
  match c.freezing with
  | some t =>
    if t ≤ s.clk then
      let s := s.setCls k { c with freezing := none }
      (List.range 256).foldl (init := s) fun s l =>
        let x := s.lane l
        if x.owed.getLsbD k && !x.gated then
          (s.setLane l { x with owed := x.owed &&& ~~~(BitVec.twoPow 8 k) }).raiseEvent l k
        else s
    else s
  | none => s

/-- FREEZE_COPY_DONE (R15, R16): the copy is complete and lanes that are awake get their cycle start; a lower class whose copy is complete comes first (R25). -/
def execFreezeCopyDone (k : Fin 8) (s : State) : Host.Outcome State Fault Refusal :=
  .next ((List.range (k.val + 1)).foldl (fun (s : State) j => s.copyDone j) s)

/-! ### Collection (R19, R23, R47) -/

/-- The bundle granted next: clusters in turn after the one granted last, the lowest lane within a cluster (R19). -/
def Coll.grant (c : Coll) : Option HandOver :=
  (List.range 16).findSome? fun i =>
    let cl := (c.last + 1 + i) % 16
    (c.waiting.filter fun h => decide (h.lane / 16 = cl)).foldl (init := none) fun m h => match m with
      | none => some h
      | some j => if h.lane < j.lane then some h else some j

/-- Words of a bundle and, for declared outputs it has no word for, the last committed values go into NEXT (R19, R23). -/
def State.intoNext (s : State) (k : Nat) (t : Option TaskPlan) (ws : List BWord) : State :=
  let s := ws.foldl (fun (s : State) w => s.wrImg (s.nextBank k) w.lii w.val) s
  match t with
  | some t => t.outs.foldl (init := s) fun s o =>
      if ws.any fun w => decide (w.lii = o.lii) then s else s.wrImg (s.nextBank k) o.lii (s.rdImg (s.curBank k) o.lii)
  | none => s

/-- UNIT_DELAY of the consumers that have gone on without this producer (R47). -/
def State.delayRecords (s : State) (prod : W32) (b : W64) : State :=
  s.delays.foldl (init := s) fun s d =>
    match s.findTask d.1 with
    | some t =>
      if d.2.1 = b ∧ t.ins.any (fun i => decide (i.lii = d.2.2) && decide (i.producer = prod)) then
        s.record 0x0203 (taskPart d.1) s.module d.1 prod (BitVec.ofNat 32 d.2.2)
          (sat32 (since s.now (b + BitVec.ofNat 64 (t.inputDl * usec))).toNat)
      else s
    | none => s

/-- The levels of REPL follow in every lane that waits for this task (R124). -/
def State.replLanes (s : State) (task : W32) : State :=
  s.lanes.foldl (init := s) fun s p => if p.2.replwait = task then (s.relevel p.1).wakeIfDue p.1 else s

/-- STATUS of a task with a signature: 0x04 with a unit delay or late input words, else 0x00 (R221, R378). -/
def State.sigStatus (s : State) (task : W32) (b : W64) : Nat :=
  if s.delays.any (fun d => decide (d.1 = task) && decide (d.2.1 = b)) || decide ((task, b) ∈ s.late) then 0x04 else 0x00

/-- BUNDLE_COLLECTED (R19, R20, R23, R80, R221): one whole bundle is written into NEXT and its signature sent; a bundle of a cycle that has ended is not collected. -/
def execBundleCollected (s : State) : Host.Outcome State Fault Refusal :=
  .next (match s.coll.grant with
    | none => s
    | some h =>
      let s := { s with coll := { s.coll with last := h.lane / 16, waiting := s.coll.waiting.erase h } }
      if (s.cls_ h.cls).bnd ≠ some h.bnd then s
      else
        let s := s.intoNext h.cls (s.findTask h.task) h.p
        let s := (s.count (ctrEv 0x20 h.p.length 0)).count (ctrEv 0x21 1 0)
        let s := s.delayRecords h.task h.bnd
        let s := { s with inNext := (h.task, h.bnd) :: s.inNext, words := (h.task, h.bnd, h.p) :: s.words }
        let s := (s.setLane h.lane ((s.lane h.lane).delivered h.cls h.bnd)).relevel h.lane
        let s := (s.wakeIfDue h.lane).replLanes h.task
        s.sigReady h.task h.cls h.bnd (s.sigStatus h.task h.bnd) 0 (signature h.p))

/-! ### Commit (R21, R22, R227) -/

/-- The role term equals the one in the partner's latest HEARTBEAT (R227). -/
def State.termAgrees (s : State) : Bool :=
  match s.pair.view with
  | some v => decide (v.term = s.pair.term)
  | none => true

/-- A class cycle may be committed: every task settled, or the partition in SAFE, with nothing withheld and the terms equal (R62, R227, R233, R239, R241). -/
def State.mayCommit (s : State) (p k : Nat) (b : W64) : Bool :=
  let c := s.cycle p k b
  let st := s.pstateOf p k
  let ts := s.partTasks p k
  !c.committed && !c.withheld && !s.mod.isolated && !s.pair.withhold && (s.executes p k b || (s.publishes && decide (st = .safe))) && !ts.isEmpty
    && (decide (st = .safe) || (decide (st = .running) && ts.all fun t => c.isSettled t.task))
    && !(s.pair.adopt.any fun a => decide (a.part = p) && decide (a.cls = k) && decide (a.bnd = b))
    && (s.mod.solo || s.unpaired || s.termAgrees)

/-- Splits a list into pieces of n. -/
def chunks {α : Type} (n : Nat) : Nat → List α → List (List α)
  | 0, _ => []
  | f + 1, xs => if xs.length ≤ n then [xs] else xs.take n :: chunks n f (xs.drop n)

/-- The PUB payload of one fragment (R210). -/
def pubPayload (set seq : W32) (i n first : Nat) (safe shadow : Bool) (ws : List W64) : List Byte :=
  leBytes 4 set.toNat ++ leBytes 4 seq.toNat ++ [BitVec.ofNat 8 i, BitVec.ofNat 8 n, BitVec.ofNat 8 (bit safe + 2 * bit shadow), 0]
    ++ leBytes 4 first ++ ws.flatMap fun w => leBytes 8 w.toNat

/-- Sends an instance as span frames: fragments in order on each span (R187, R213). -/
def State.sendInstance (s : State) (sp : SetPlan) (seq : W32) (safe : Bool) (b : W64) (ws : List W64) : State :=
  let fs := chunks 126 256 ws
  sp.spans.foldl (init := s) fun s dst =>
    (List.range fs.length).foldl (init := s) fun s i =>
      let f := s.mkFrame 1 0 0 0 (lo32 b) (pubPayload sp.set seq i fs.length (126 * i) safe sp.shadow ((fs[i]?).getD []))
      let f := { f with dst := dst }
      s.sendRouted f none

/-- The Access Guard's checks of a publication read (R288, R302). -/
def State.pubReads (s : State) (sp : SetPlan) (k : Nat) : Option Access × State :=
  sp.words.foldl (init := (none, s)) fun (bad, s) w =>
    let a : Access := { part := sp.part, master := .ring, kind := .p, source := 0, addr := imgAddr (s.nextBank k) w.2, len := 8 }
    let (ok, s) := s.guardCheck a
    (if ok then bad else some a, s)

/-- A module that subscribes to a set of its own pair holds the instance as it is published (R13, R144). -/
def State.keepOwn (s : State) (set seq : W32) (b : W64) (safe : Bool) (ws : List W64) : State :=
  if (s.pl.plan.subs ++ s.pl.old.subs).any fun u => decide (u.set = set) then
    let r := tget SetRx.reset s.setRx set.toNat
    let i : Inst := { seq := seq, stamp := lo32 b, src := s.module, nfrag := 1, frags := [0], words := (List.range ws.length).zip ws, safe := safe }
    { s with setRx := tput s.setRx set.toNat { r with complete := newestTwo (i :: r.complete) } }
  else s

/-- One publication set at the commit of its class: SEQ rises on every module that commits, the ACTIVE module sends (R22, R62, R211, R213, R224). -/
def State.publish (s : State) (k : Nat) (b : W64) (sp : SetPlan) : State :=
  let seq := tget 0 s.pubSeq sp.set.toNat + 1
  let safe := decide (s.pstateOf sp.part k = .safe)
  let ws := sp.words.map fun w => s.commitWord w.2 k b
  let s := { s with pubSeq := tput s.pubSeq sp.set.toNat seq }.keepOwn sp.set seq b safe ws
  if !s.publishes then s
  else
    let (bad, s) := s.pubReads sp k
    match bad with
    | some a => s.recordDenyOnce a sp.set.toNat
    | none => s.sendInstance sp seq safe b (sp.words.map fun w => s.commitWord w.2 k b)

/-- The MIRROR of a committed class cycle (R225). -/
def State.mirrorOf (s : State) (p k : Nat) (b : W64) : MirrorMsg :=
  let ts := s.partTasks p k
  { part := p, cls := k, bnd := lo32 b, committed := true, complete := true
    words := ts.flatMap fun t => ((s.words.find? fun q => decide (q.1 = t.task) && decide (q.2.1 = b)).map (·.2.2)).getD []
    pubSeq := ((s.planOf k).sets.filter fun x => decide (x.part = p) && decide (x.cls = k)).map fun x => (x.set, tget 0 s.pubSeq x.set.toNat)
    inSeq := ((s.planOf k).subs.filter fun u => decide (u.part = p) && decide (u.cls = k)).filterMap fun u =>
      (tfind (tget SetRx.reset s.setRx u.set.toNat).frozen u.statusLii).map fun f => (u.set, f.1)
    dm := ts.flatMap fun t => (s.dmState t).map fun d => (t.lane, TaskPlan.dmAt t d.1, d.2)
    overruns := ts.map fun t => (t.task, tget 0 s.overrun t.task.toNat) }

/-- The unit's committed words, by declared VID. -/
def State.unitWords (s : State) (t : TaskPlan) (k : Nat) : List (W32 × W64) :=
  t.outs.map fun o => (o.decl, s.rdImg (s.nextBank k) o.lii)

/-- After a commit the old host sends the state image of a unit that is leaving, then numbered deltas, to both modules of the new pair (R145, R157, R158). -/
def State.migrationSend (s : State) (k : Nat) (b : W64) (t : TaskPlan) (other : Nat) (final : Bool) : State :=
  let ws := s.unitWords t k
  let dm := s.dmState t
  let old := s.pl.migr.find? fun m => !m.incoming && decide (m.task = t.task)
  let fs := t.outs.filterMap fun o => (s.forces.find? fun f => f.live && decide (o.vid = f.vid)).map fun f => (o.decl, f.val)
  let msg : DeltaMsg := match old with
    | none => { task := t.task, number := 0, image := true, complete := true, words := ws, dm := dm, forces := fs, final := final }
    | some m => { task := t.task, number := m.newest + 1, image := false, complete := true, words := ws.filter fun w => w ∉ m.words,
                  dm := dm.filter fun d => d ∉ m.dm, forces := fs, final := final }
  let m : Migr := { task := t.task, other := other, incoming := false, newest := msg.number, final := final, words := ws, dm := dm,
                    forces := fs, agreed := none }
  let rest := s.pl.migr.filter fun m => m.incoming || decide (m.task ≠ t.task)
  let s := { s with pl := { s.pl with migr := m :: rest } }
  (s.toModule 6 other 0 (.delta msg)).toModule 6 (other + 1) 0 (.delta msg)

/-- Streams of the units of a partition's class that the prepared or applied epoch moves away; the delta of the cycle that ends at the switch boundary, the class's first at or after the apply instant, is the final one (R157, R158). -/
def State.migrationCommit (s : State) (p k : Nat) (b : W64) : State :=
  if !s.active then s
  else
    let next := b + BitVec.ofNat 64 ((s.cls_ k).period * usec)
    let leaving (task : W32) : Option (Nat × Bool) :=
      match (if (s.cls_ k).switched then none else s.pl.plan.migrOut.find? fun q => decide (q.1 = task)) with
      | some q => some (q.2, true)
      | none => s.pl.prep.bind fun e => (e.plan.migrOut.find? fun q => decide (q.1 = task)).map fun q =>
          (q.2, match e.go with | some a => reached a next | none => false)
    (s.partTasks p k).foldl (init := s) fun s t =>
      match leaving t.task with
      | some (other, final) => s.migrationSend k b t other final
      | none => s

/-- What follows a commit for its tasks: counts return to 0, an arbitration cycle is cleared, a synchronising module has a clean cycle (R52, R233, R255). -/
def State.commitTasks (s : State) (c : Cycle) : State :=
  let s := c.settled.foldl (fun (s : State) e => if e.2 then s.clearOverrun e.1 else s) s
  let s := if c.arbitration then
      c.disputed.foldl (fun (s : State) t => s.record 0x0606 c.part s.partner (BitVec.ofNat 32 c.part) (BitVec.ofNat 32 c.cls) t 0) s
    else s
  if s.mod.st = MState.unsynced ∧ c.settled.all (·.2) then
    { s with pair := { s.pair with sync := { s.pair.sync with clean := (c.part, c.cls) :: s.pair.sync.clean } } }
  else s

/-- The sets of trip and CAN words leave with the freeze that took them, stamped with its boundary (R10, R13, R142). -/
def State.publishIo (s : State) (k : Nat) (b : W64) : State :=
  ((s.planOf k).sets.filter fun x => x.io && decide (x.cls = k)).foldl (init := s) fun s sp =>
    let seq := tget 0 s.pubSeq sp.set.toNat + 1
    let s := { s with pubSeq := tput s.pubSeq sp.set.toNat seq }
    if !s.active then s else s.sendInstance sp seq false b (sp.words.map fun w => s.rdImg (s.curBank k) w.2)

/-- The freeze of a class that has passed its boundary and not frozen for it (R13), and what leaves with it. -/
def State.freezeIfPassed (s : State) (k : Nat) : State :=
  match (s.cls_ k).bnd with
  | some b => if (s.cls_ k).frozen = some b then s else (s.freeze k b).publishIo k b
  | none => s

/-- CLASS_BOUNDARY (R12 to R16, R23 to R25): due boundaries are passed, then the freezes begin, C0 first, up to that of this class; its trip and CAN words leave for their subscribers. -/
def execClassBoundary (k : Fin 8) (s : State) : Host.Outcome State Fault Refusal :=
  .next (
    let due := (s.boundaryDue k).isSome
    let half := (s.cls_ k).bnd.isSome && decide ((s.cls_ k).bnd ≠ (s.cls_ k).frozen)
    if !due && !half then s
    else (List.range (k.val + 1)).foldl (fun (s : State) j => s.freezeIfPassed j) s.passAll)

/-- CLASS_CYCLE_COMMIT (R21, R22, R62, R224, R225, R227): one class cycle of one partition. -/
def execClassCycleCommit (p : Fin 512) (k : Fin 8) (s : State) : Host.Outcome State Fault Refusal :=
  .next (match (s.cls_ k).bnd with
    | none => s
    | some b =>
      if !s.mayCommit p k b then s
      else
        let c := { s.cycle p k b with committed := true }
        let s := (s.setCycle c).commitTasks c
        let s := ((s.planOf k).sets.filter fun x => decide (x.part = p.val) && decide (x.cls = k.val) && !x.io).foldl (fun (s : State) x => s.publish k b x) s
        let s := (s.canCommit p k b).stationCommit p k b
        let s := if s.active then { s.tripCommit p k b with mod := { s.mod with firstCommit := true } } else s
        let s := s.migrationCommit p k b
        if s.mirrors p k b then s.toPartner (.mirror (s.mirrorOf p k b)) else s)

/-- SIG_LATE (R228): 20 µs after the module's own entry the partner's has not come while its heartbeats do. -/
def execSigLate (p : Fin 512) (k : Fin 8) (task : W32) (s : State) : Host.Outcome State Fault Refusal :=
  .next (match (s.cls_ k).bnd with
    | none => s
    | some b =>
      let c := s.cycle p k b
      match c.ownOf task with
      | some e =>
        if (c.partnerOf task).isNone ∧ s.comparing p k b ∧ e.at_ + 20 * usec < s.clk ∧ s.pair.misses = 0 ∧ !c.isSettled task
            ∧ task ∉ c.latePartner ∧ taskPart task = p.val then
          (s.setCycle { c with latePartner := task :: c.latePartner }).resolveTask p k b task
        else s
      | none => s)

end Sys2Proof.Machine
end

