-- ==== Sys2Proof/Machine/Pair.lean ====
section
/-! DEFINITION. The redundant pair: heartbeats and roles (R220, R223, R227, R240, R254), failover (R236 to R243), SIG, adoption and mirrors (R221 to R232), force changes (R56), handovers (R245 to R248), synchronisation (R255), the Health Report (R251, R252) and the words a standby freezes (R378, R403). -/
namespace Sys2Proof.Machine

/-- An Execution of the pair rows. -/
abbrev PairAnswer := Host.Outcome State Fault Refusal

/-- The Pair Link carries messages for a module from BOOT on (R253, R255). -/
def State.pairLink (s : State) : Bool := s.portUp .pl && s.powered

/-! ### Becoming ACTIVE -/

/-- A partition with autostart whose pair becomes ACTIVE-capable starts at the next boundary of its slowest class (R39, R63). -/
def State.autoStart (s : State) : State :=
  { s with parts := s.parts.map fun (p, x) =>
      if x.state = .loaded ∧ x.cfg.autostart ∧ x.pend.isNone then
        match s.slowest (s.classesAll p) with
        | some k => (p, x.order_ .running ((s.cls_ k).nextBoundary s.now) 0)
        | none => (p, x)
      else (p, x) }

/-- JOINING ends in ACTIVE with the next term (R223, R254). -/
def State.joinActive (s : State) : State :=
  let s := (s.setState .active).nextTerm
  { s with mod := { s.mod with solo := true, syncPct := 100 } }.autoStart

/-- The parts of a JOIN that the ACTIVE module sends a joining partner (R255). -/
def State.sendJoin (s : State) : State :=
  let cfg : JoinMsg := .config s.pl.epoch s.pair.term
    (s.parts.map fun (_, x) => { cfg := x.cfg, state := PState.num x.state, limit := x.limit, mismatchSafe := x.mismatchSafe, faultSafe := x.faultSafe })
    (s.cls.map fun (k, c) => (k, (c.period, c.phase))) s.nv.keys
  let fs := s.forces.filter (·.live)
  let img := (s.pl.plan.lii.map fun e => (e.lii, s.rdImg (s.curBank e.cls) e.lii))
  let fz := s.setRx.flatMap fun r => r.2.frozen.map fun f => (BitVec.ofNat 32 r.1, f.1, f.2.1, f.2.2.1, f.2.2.2)
  let parts : List JoinMsg := [cfg, .plan s.pl.plan, .packages s.pl.dom, .forces (fs.map fun f => (f.vid, f.val, f.part)), .image img (s.pubSeq.map fun q => (BitVec.ofNat 32 q.1, q.2)) (s.overrun.map fun q => (BitVec.ofNat 32 q.1, q.2)) fz]
  parts.foldl (fun (s : State) m => s.toPartner (.join m)) s

/-! ### HEARTBEAT (R220) -/

def viewOf (b : Heartbeat) : PartnerView :=
  { st := b.flags.setWidth 4, solo := b.flags.getLsbD 5, inhibit := b.flags.getLsbD 6,
    modfault := b.flags.getLsbD 7, term := b.term, seq := b.seq, epoch := b.epoch }

/-- What a HEARTBEAT makes of the roles (R223, R238, R240, R254). -/
def State.heartbeatRole (s : State) (was : Nat) (v : PartnerView) : State :=
  let newer := decide (v.st = 6) && termNewer v.term s.pair.term
  let take (s : State) : State := if newer then { s with pair := { s.pair with term := v.term } } else s
  match s.mod.st with
  | .active =>
    if newer then take ((s.record 0x0602 0 s.module s.pair.term v.term 0 0).toUnsynced)
    else
      let s := if v.st = 5 then (if was = 5 then s else { s with mod := { s.mod with solo := false } })
        else if v.st = 6 then s else s.goSolo
      if v.st = 4 ∧ was ≠ 4 then s.sendJoin else s
  | .joining =>
    let s := if termNewer v.term s.pair.term then { s with pair := { s.pair with term := v.term } } else s
    if v.st = 6 then s.toUnsynced
    else if v.st = 3 then (if s.preferred then s.joinActive else s.toUnsynced)
    else s.after .partnerSilent (2 * sec)
  | .unsynced | .synced => take s
  | _ => s

/-- HEARTBEAT (R220, R236, R239, R240, R254): the partner lives; its state, flags and term are kept. -/
def execHeartbeat (b : Heartbeat) (s : State) : PairAnswer :=
  .next (if !s.pairLink then s
    else
      let v := viewOf b
      let was := (s.pair.view.map (·.st.toNat)).getD 0
      let s := { s with pair := { s.pair with view := some v, lastHb := some s.clk, misses := 0, firstMiss := none, echoed := false,
                                              qE := false, qW := false, withhold := false } }
      let s := (s.disarm .takeover).after .hbMiss (12 * usec)
      if s.stopping then s else s.heartbeatRole was v)

/-- The HEARTBEAT of this module (R220). -/
def State.ownHeartbeat (s : State) : Heartbeat :=
  { flags := BitVec.ofNat 8 (s.mod.st.code + bit s.preferred * 16 + bit s.mod.solo * 32 + bit s.nv.inhibit * 64 + bit s.modFault * 128),
    term := s.pair.term, seq := BitVec.ofNat 8 s.pair.hbSeq.toNat, epoch := s.pl.epoch.setWidth 8 }

/-- HEARTBEAT_SEND (R220): every 10 µs while the Pair Link is UP. A module that stops in order is silent (R455). -/
def execHeartbeatSend (s : State) : PairAnswer :=
  .next (if !s.due .hbSend then s
    else if !s.pairLink || s.stopping then s.again .hbSend (10 * usec)
    else
      let s := (s.send (.heartbeat s.ownHeartbeat)).again .hbSend (10 * usec)
      { s with pair := { s.pair with hbSeq := s.pair.hbSeq + 1 } })

/-! ### Missed heartbeats and failover (R236 to R243) -/

/-- Positions of the row from column a forward up to column b, not b itself. -/
def arc (n a b : Nat) : List Nat := (List.range (dist n a b)).map fun i => (a + i) % n

/-- A query in a direction leaves on an UP link, and the ring-state table shows every link up to the partner's position UP (R237). -/
def State.queryWay (s : State) (east : Bool) : Bool :=
  let n := s.nv.nc
  let c := colOf s.module
  let p := colOf s.partner
  let links := if east then arc n c p else arc n p c
  let outs := s.outLinks true (rowOf s.module)
  s.portUp (if east then .e else .w) && links.all fun a => decide (a ∉ outs)

/-- ECHO queries to the partner on the row ring, one each way, and whether each could reach it (R236, R237). -/
def State.sendEcho (s : State) : State :=
  let q (d : Nat) : Frame :=
    s.mkFrame 6 (0x10 + 0x20 * d) s.partner 0 s.now32 (leBytes 4 (Config.mgmtWord 0).toNat)
  let e := s.queryWay true
  let w := s.queryWay false
  let s := (s.transmit .e (q 0) none).transmit .w (q 1) none
  { s with pair := { s.pair with qE := e, qW := w } }

/-- A standby, or an ACTIVE module that has one. -/
def State.paired (s : State) : Bool :=
  match s.mod.st with
  | .active | .synced | .unsynced => !s.unpaired
  | _ => false

/-- HEARTBEAT_MISS (R236, R239): none has come 2 µs after it was due. The standby queries from the first miss, the ACTIVE module once its partner is suspect, when it also withholds commits until it decides. -/
def execHeartbeatMiss (s : State) : PairAnswer :=
  .next (if !s.expired .hbMiss || !s.powered || s.stopping then s
    else
      let n := s.pair.misses + 1
      let first := match s.pair.firstMiss with
        | some t => some t
        | none => some s.clk
      let s := { s with pair := { s.pair with misses := n, firstMiss := first } }.again .hbMiss (10 * usec)
      if !s.paired then s
      else
        let s := if n = 1 then s.arm .takeover ((s.pair.lastHb).getD s.clk + 45 * usec) else s
        if s.active then
          if n < 3 || s.mod.solo then s
          else (if s.armed .takeover then { s with pair := { s.pair with withhold := true } } else s).sendEcho
        else s.sendEcho)

/-- ECHO (R236): a query of the partner is answered in the direction opposite to the one in which it came, a liveness query of another module by its route (R137, R164). A module that stops in order answers none (R455). -/
def execEcho (p : Port) (f : Frame) (s : State) : PairAnswer :=
  .next (
    let r := s.receive p f
    if !r.deliver || decide (f.ty ≠ 6) then r.s
    else
      let s := r.s.alive f
      if s.stopping || !s.joined then s
      else if f.srcMod ≠ s.partner then s.sendTo 6 f.srcMod (leBytes 4 (Config.mgmtWord 3).toNat)
      else if !isRowPort p then s
      else
        let d := if p = .w then 1 else 0
        s.transmit p (s.mkFrame 6 (0x10 + 0x20 * d) s.partner 0 s.now32 (leBytes 4 (Config.mgmtWord 1).toNat)) none)

/-- The partner is alive on the ring (R237, R239): a standby becomes UNSYNCED with PAIR_LINK_LOST, an ACTIVE module goes on SOLO, a joining one becomes UNSYNCED. -/
def State.partnerAlive (s : State) : State :=
  let s := s.disarm .takeover
  match s.mod.st with
  | .active => s.goSolo
  | .synced | .unsynced => (s.record 0x0603 0 s.module 0 0 0 0).toUnsynced
  | .joining => (s.disarm .partnerSilent).toUnsynced
  | _ => s

/-- ECHO_ANSWER (R237, R239): proof that the partner lives; decisive once it is suspect. -/
def execEchoAnswer (p : Port) (f : Frame) (s : State) : PairAnswer :=
  .next (
    let r := s.receive p f
    if !r.deliver || decide (f.ty ≠ 6) || decide (f.srcMod ≠ s.partner) then r.s
    else
      let s := r.s.alive f
      if 3 ≤ s.pair.misses ∧ s.armed .takeover ∧ s.pair.echoed then s.partnerAlive else s)

/-- The column whose E port link ends at the partner's position: the nearest occupied one west of it. -/
def State.westOf (s : State) (p : Nat) : Nat :=
  let n := s.nv.nc
  let r := rowOf s.module
  (((List.range n).map fun i => (p + n - 1 - i) % n).find? fun c => decide (s.position (r * 64 + c) ≠ .empty)).getD ((p + n - 1) % n)

/-- A row link has been shown DOWN for 20 µs (R237). -/
def State.longDown (s : State) (pos : Nat) : Bool :=
  s.ring.links.any fun e =>
    decide (e.link = { row := true, ring := rowOf s.module, pos := pos }) &&
      match e.downAt with
      | some t => decide (20 * usec ≤ s.clk - t)
      | none => false

/-- Both sides of the partner's position are accounted for (R237). A query sent east reaches the partner's west side. -/
def State.accounted (s : State) : Bool :=
  let p := colOf s.partner
  (s.pair.qE || s.longDown (s.westOf p)) && (s.pair.qW || s.longDown p)

/-- The profile of the slowest partition hosted here (FAILOVER's second parameter). -/
def profileNum : Profile → Nat | .winter => 0 | .autumn => 1 | .summer => 2 | .spring => 3

def State.slowestProfile (s : State) : Nat :=
  let ks := (s.parts.map (·.1)).filterMap fun p => (s.slowest (s.classesOf p)).map fun k => (p, k)
  let best := ks.foldl (init := none) fun (m : Option (Nat × Nat)) q => match m with
    | none => some q
    | some j => if slower (s.cls_ q.2).period q.2 (s.cls_ j.2).period j.2 then some q else some j
  match best with
  | some (p, k) => profileNum (s.profileOf p k)
  | none => 0

/-- Hot class cycles whose own signatures are complete are settled by them; warm ones in progress have none, commit nothing and are overruns (R24, R238, R243). -/
def State.settleOwn (s : State) : State :=
  s.cycles.foldl (init := s) fun s c => c.own.foldl (init := s) fun s e => s.resolveTask c.part c.cls c.bnd e.task

/-- Take-over (R238, R242, R243, R406): next term, ACTIVE with SOLO, FAILOVER; an unsynchronised module has every partition in SAFE. -/
def State.takeOver (s : State) : State :=
  let fresh := decide (s.mod.st = .unsynced)
  let s := ((s.setState .active).nextTerm).disarm .takeover
  let s := { s with mod := { s.mod with solo := true },
                    pair := { s.pair with hand := none, rehand := none, withhold := false, adopt := [], syncedAt := none },
                    can := s.can.map fun (p : Nat × Can) => (p.1, { p.2 with takeover := p.2.seqCls.isSome }) }
  let s := s.record 0x0601 0 s.module s.pair.term (BitVec.ofNat 32 s.slowestProfile) 0 0
  let s := if fresh then s.allSafe 0x0601 else s
  s.settleOwn

/-- TAKEOVER_EVALUATION (R237 to R239): the standby takes over where the partner is proved silent, gives up 1 ms after the last heartbeat, or is told the partner lives; an ACTIVE module decides to go on SOLO. -/
def execTakeoverEvaluation (s : State) : PairAnswer :=
  .next (if !s.expired .takeover || !s.paired || s.stopping then s
    else if s.pair.misses < 3 then s.arm .takeover ((tdue s.timers .hbMiss).getD (s.clk + 10 * usec))
    else if s.pair.echoed then s.partnerAlive
    else if s.active then (s.disarm .takeover).goSolo
    else if s.accounted then s.takeOver
    else
      let next := (tdue s.timers .hbMiss).getD (s.clk + 10 * usec)
      if next ≤ (s.pair.lastHb).getD 0 + msec then s.arm .takeover next
      else ((s.disarm .takeover).record 0x0603 0 s.module 1 0 0 0).toUnsynced)

/-- JOINING_PARTNER_SILENT (R237, R254): after 2 s without a partner the joining module queries it, and becomes ACTIVE where 45 µs later it is proved silent. -/
def execJoiningPartnerSilent (s : State) : PairAnswer :=
  .next (if s.mod.st ≠ .joining || !s.expired .partnerSilent || s.stopping then s
    else if s.unpaired then (s.disarm .partnerSilent).joinActive
    else if s.pair.echoed then s.partnerAlive
    else if s.pair.firstMiss.isSome ∧ s.accounted then (s.disarm .partnerSilent).joinActive
    else
      let first := match s.pair.firstMiss with
        | some t => some t
        | none => some s.clk
      { s with pair := { s.pair with firstMiss := first } }.sendEcho.after .partnerSilent (45 * usec))

/-! ### SIG and adoption (R221, R227, R228, R232) -/

/-- Entry i of a SIG payload (R221). -/
def sigEntry (bs : List Byte) (clk i : Nat) : SigEntry :=
  { task := BitVec.ofNat 32 (field bs (16 + 16 * i) 4), status := BitVec.ofNat 8 (field bs (20 + 16 * i) 1),
    code := BitVec.ofNat 8 (field bs (21 + 16 * i) 1), sig := BitVec.ofNat 64 (field bs (24 + 16 * i) 8), at_ := clk }

/-- One entry of the partner: kept unless its lateness has been decided, then its task is resolved (R228, R492). -/
def State.sigEntryIn (s : State) (p k : Nat) (bnd : W64) (e : SigEntry) : State :=
  let c := s.cycle p k bnd
  if (c.partnerOf e.task).isSome || decide (e.task ∈ c.latePartner) then s
  else (s.setCycle { c with partner := c.partner ++ [e] }).resolveTask p k bnd e.task

/-- SIG (R221, R227, R228, R231, R233, R492). -/
def execSig (f : Frame) (s : State) : PairAnswer :=
  .next (
    let bs := f.payload
    let n := field bs 8 1
    let r := s.receive .pl f
    if !s.powered || !r.deliver || decide (f.ty ≠ 6) || decide (f.scope ≠ 0) || decide (f.srcMod ≠ s.partner) || decide (field bs 0 1 ≠ 0x20)
        || decide (n = 0) || decide (63 < n) || decide (bs.length < 16 + 16 * n) then r.s
    else
      let s := r.s.alive f
      let bnd := extNear s.now (BitVec.ofNat 32 (field bs 4 4))
      (List.range n).foldl (init := s) fun s i =>
        s.sigEntryIn (field bs 2 2 % 512) (field bs 1 1 % 8) bnd (sigEntry bs s.clk i))

/-- BUNDLE_REQ (R232): the provider answers with the bundle it holds. -/
def execBundleReq (task bnd : W32) (s : State) : PairAnswer :=
  .next (if !s.pairLink then s
    else match s.words.find? fun q => decide (q.1 = task) && decide (lo32 q.2.1 = bnd) with
      | some q => s.toPartner (.bundle task bnd q.2.2)
      | none => s)

/-- The adoption in progress for a task. -/
def State.adoption (s : State) (task : W32) : Option Adopt := s.pair.adopt.find? fun a => decide (a.task = task)

/-- An adoption is over. -/
def State.adopted (s : State) (a : Adopt) (ok : Bool) : State :=
  let s := s.disarm (.adoption a.task.toNat)
  let s := { s with pair := { s.pair with adopt := s.pair.adopt.filter fun b => decide (b ≠ a) } }
  s.setCycle ((s.cycle a.part a.cls a.bnd).settle a.task ok)

/-- An adoption has failed: the task is not committed here and the module gives way (R231, R232). -/
def State.adoptionFailed (s : State) (a : Adopt) : State := (s.adopted a false).giveWay

/-- BUNDLE (R232): words whose signature is the partner's are written into NEXT; other words fail the adoption. -/
def execBundle (task bnd : W32) (words : List BWord) (s : State) : PairAnswer :=
  .next (match s.adoption task with
    | none => s
    | some a =>
      if !s.pairLink || decide (lo32 a.bnd ≠ bnd) || s.overdue (.adoption task.toNat) then s
      else if signature words ≠ a.sig then s.adoptionFailed a
      else
        let s := s.intoNext a.cls (s.findTask task) words
        let s := (s.count (ctrEv 0x20 words.length 0)).count (ctrEv 0x21 1 0)
        let rest := s.words.filter fun q => !(decide (q.1 = task) && decide (q.2.1 = a.bnd))
        let had := s.inNext.any fun q => decide (q = (task, a.bnd))
        let s := { s with words := (task, a.bnd, words) :: rest, inNext := if had then s.inNext else (task, a.bnd) :: s.inNext }
        (s.adopted a true).replLanes task)

/-- ADOPTION_TIMEOUT (R232): 2 µs after the BUNDLE_REQ. -/
def execAdoptionTimeout (task : W32) (s : State) : PairAnswer :=
  .next (match s.adoption task with
    | some a => if s.expired (.adoption task.toNat) then s.adoptionFailed a else s
    | none => s)

/-! ### MIRROR (R225, R226) -/

/-- The mirrored words of a bank. -/
def State.mirrorInto (s : State) (bank : Nat) (m : MirrorMsg) : State :=
  m.words.foldl (fun (s : State) w => s.wrImg bank w.lii w.val) s

/-- Mirrored words go into NEXT, and the class takes them at its next boundary (R225). Those of the cycle before the present one are late: a warm class still takes them so, one that now runs hot starts from them (R44); older ones count no more. -/
def State.mirrorWords (s : State) (m : MirrorMsg) : State :=
  let c := s.cls_ m.cls
  let next (b : W64) : State :=
    let y := s.cycle m.part m.cls b
    let ts := (s.partTasks m.part m.cls).filter fun t => t.outs.any fun o => m.words.any fun w => decide (w.lii = o.lii)
    (s.mirrorInto (s.nextBank m.cls) m).setCycle { y with committed := true, settled := ts.map (fun t => (t.task, true)) ++ y.settled }
  match c.bnd with
  | none => s.mirrorInto (s.nextBank m.cls) m
  | some b =>
    if m.bnd = lo32 b then (if s.executes m.part m.cls b then s else next b)
    else if c.prevBnd.map lo32 = some m.bnd then (if s.hotIn m.part m.cls b then s.mirrorInto (s.curBank m.cls) m else next b)
    else s

/-- The input sets the ACTIVE module selected (R225). -/
def State.mirrorInputs (s : State) (m : MirrorMsg) : State :=
  m.inSeq.foldl (init := s) fun s (set, seq) =>
    let r := tget SetRx.reset s.setRx set.toNat
    match r.complete.find? fun i => decide (i.seq = seq) with
    | none => s
    | some i =>
      let fz := ((s.planOf m.cls).subs.filter fun u => decide (u.set = set) && decide (u.cls = m.cls)).foldl (init := r.frozen) fun t u =>
        match tfind t u.statusLii with
        | some (_, _, old) => tput t u.statusLii (i.seq, i.stamp, old)
        | none => t
      { s with setRx := tput s.setRx set.toNat { r with frozen := fz } }

/-- Publication SEQs, DM state and overrun counts of a mirrored cycle (R225). -/
def State.mirrorRest (s : State) (m : MirrorMsg) : State :=
  let s := { s with pubSeq := m.pubSeq.foldl (fun t q => tput t q.1.toNat q.2) s.pubSeq,
                    overrun := m.overruns.foldl (fun t q => if q.2 = 0 then terase t q.1.toNat else tput t q.1.toNat q.2) s.overrun }
  let s := m.dm.foldl (fun (s : State) d => s.wrMem (dmAddr d.1 d.2.1) 1 d.2.2.toNat) s
  match (s.cls_ m.cls).bnd with
  | none => s
  | some b => m.pubSeq.foldl (init := s) fun s q =>
      match (s.planOf m.cls).sets.find? fun x => decide (x.set = q.1) with
      | some sp => s.keepOwn q.1 q.2 (extNear b m.bnd) (decide (s.pstateOf m.part m.cls = .safe)) (sp.words.map fun w => s.rdImg (s.nextBank m.cls) w.2)
      | none => s

/-- MIRROR (R225, R255): a standby takes a committed cycle, or notes one that was not committed. -/
def execMirror (m : MirrorMsg) (s : State) : PairAnswer :=
  .next (if !s.pairLink || !m.complete || !(decide (s.mod.st = .synced) || decide (s.mod.st = .unsynced)) then s
    else
      let now := (s.cls_ m.cls).bnd.map lo32
      let keep := m :: s.pair.mirrorRx.filter fun x => !(decide (x.part = m.part) && decide (x.cls = m.cls) && decide (x.bnd = m.bnd))
      let s := if s.mod.st = .unsynced ∧ now.isSome ∧ now ≠ some m.bnd then s else { s with pair := { s.pair with mirrorRx := keep.take 4096 } }
      let s := if m.committed then ((s.mirrorWords m).mirrorInputs m).mirrorRest m else s
      if s.mod.st = .unsynced ∧ s.pair.sync.image ∧ !s.hotIn m.part m.cls (extNear s.now m.bnd) then
        { s with pair := { s.pair with sync := { s.pair.sync with clean := (m.part, m.cls) :: s.pair.sync.clean } } }
      else s)

/-- A class cycle has a MIRROR on this standby: it has been STANDBY SYNCED since before it, and the partition has run it warm (R226). -/
def State.mirrorOwed (s : State) (p k : Nat) (b : W64) : Bool :=
  decide (s.mod.st = .synced) && !s.hotIn p k b && decide (s.pstateOf p k ≠ .loaded) && !(s.partTasks p k).isEmpty
    && (match s.pair.syncedAt with | some t => decide (since s.now b ≤ (s.clk - t : Nat)) | none => false)
    && (match (s.part? p).bind fun x => tfind x.owedFrom k with | some f => reached f b | none => true)

/-- MIRROR_LATE (R226): the MIRROR of a class cycle is not complete by the end of the class's next cycle. -/
def execMirrorLate (p : Fin 512) (k : Fin 8) (s : State) : PairAnswer :=
  .next (
    let c := s.cls_ k
    match c.prevBnd with
    | none => s
    | some pb =>
      let b := pb - BitVec.ofNat 64 (c.period * usec)
      let held := s.pair.mirrorRx.any fun m => decide (m.part = p.val) && decide (m.cls = k.val) && decide (m.bnd = lo32 b)
      if s.mirrorOwed p k b && !held then
        (s.record 0x0604 p s.module (BitVec.ofNat 32 p) (BitVec.ofNat 32 k) 0 0).toUnsynced
      else s)

/-! ### Force changes (R54 to R57) -/

/-- A force set from an instant on; the value it replaces counts until then (R56, R342). -/
def State.putForce (s : State) (vid : W32) (val : W64) (part : Nat) (e : W64) : State :=
  let prev := s.forceOf vid s.now
  let f : Force := { vid := vid, val := val, part := part, e := e, prev := prev, live := true }
  { s with forces := if s.forces.any fun g => decide (g.vid = vid) then s.forces.map fun g => if g.vid = vid then f else g else s.forces ++ [f] }

/-- A force removed from an instant on (R56). -/
def State.dropForce (s : State) (vid : W32) (e : W64) : State :=
  let prev := s.forceOf vid s.now
  { s with forces := s.forces.map fun g => if g.vid = vid then { g with live := false, e := e, prev := prev } else g }

/-- FORCE_SET and FORCE_CLEAR records (R57, R420). -/
def State.recordForceSet (s : State) (vid : W32) (val : W64) (part : Nat) : State :=
  s.record 0x0208 part s.module vid (lo32 val) (hi32 val) (BitVec.ofNat 32 part)
def State.recordForceClear (s : State) (vid : W32) (part : Nat) : State :=
  s.record 0x0209 part s.module vid (BitVec.ofNat 32 part) 0 0

/-- Forces in place here (R57). -/
def State.liveForces (s : State) : List Force := s.forces.filter (·.live)

/-- A synchronised standby is told, or finds, that a force change passed it by (R56). -/
def State.forceMissed (s : State) : State := if s.mod.st = .synced then s.toUnsynced else s

/-- A force change is the one already applied here. -/
def State.sameForce (s : State) (vid : W32) (e : W64) (live : Bool) : Bool :=
  s.forces.any fun f => decide (f.vid = vid) && decide (f.e = e) && decide (f.live = live)

/-- An open force change concerns this VID and instant. -/
def ForceMsg.isFor (m : ForceMsg) (vid : W32) (e : W64) : Bool :=
  match m with
  | .set v _ _ x => decide (v = vid) && decide (x = e)
  | .clear v _ x => decide (v = vid) && decide (x = e)
  | _ => false

/-- The DETAIL of the answer: forces held after a set, 1 for a removal (R342). -/
def State.forceDetail (s : State) (m : ForceMsg) : Nat :=
  match m with
  | .set _ _ _ _ => s.liveForces.length
  | _ => 1

/-- FORCE (R56, R57): the standby applies a change that comes before its E and acknowledges it; the ACTIVE module answers once a STANDBY SYNCED partner has acknowledged it, else at E. -/
def execForce (m : ForceMsg) (s : State) : PairAnswer :=
  .next (if !s.pairLink then s
    else
      let standby := decide (s.mod.st = .synced) || decide (s.mod.st = .unsynced)
      match m with
      | .set vid val part e =>
        if !standby then s
        else if s.sameForce vid e true then s.toPartner (.force (.ack vid e))
        else if !reached s.now e then s.forceMissed
        else ((s.putForce vid val part e).recordForceSet vid val part).toPartner (.force (.ack vid e))
      | .clear vid part e =>
        if !standby then s
        else if s.sameForce vid e false then s.toPartner (.force (.ack vid e))
        else if !reached s.now e then s.forceMissed
        else ((s.dropForce vid e).recordForceClear vid part).toPartner (.force (.ack vid e))
      | .ack vid e =>
        let (hit, rest) := s.pair.forceChg.partition fun c => ForceMsg.isFor c.msg vid e
        if s.partnerSynced then
          hit.foldl (fun (s : State) c => s.answerTo c.req .ok (s.forceDetail c.msg) []) { s with pair := { s.pair with forceChg := rest } }
        else { s with pair := { s.pair with forceChg := hit.map (fun c => { c with acked := true }) ++ rest } }
      | .unsynced => if standby then s.forceMissed else s)

/-- FORCE_REPEAT (R56): open changes are sent again every 20 µs. -/
def execForceRepeat (s : State) : PairAnswer :=
  .next (if !s.expired .forceRepeat then s
    else if s.pair.forceChg.isEmpty then s.disarm .forceRepeat
    else ((s.pair.forceChg.filter fun c => !c.acked).foldl (fun (s : State) c => s.toPartner (.force c.msg)) s).again .forceRepeat (20 * usec))

/-- The effective instant of a change. -/
def ForceMsg.due (m : ForceMsg) (now : W64) : Bool :=
  match m with
  | .set _ _ _ e => reached e now
  | .clear _ _ e => reached e now
  | _ => false

/-- FORCE_EFFECTIVE (R56): at E a change is answered; where a synchronised partner has not acknowledged it, the ACTIVE module goes on SOLO and tells it. -/
def execForceEffective (s : State) : PairAnswer :=
  .next (
    let (hit, rest) := s.pair.forceChg.partition fun c => ForceMsg.due c.msg s.now
    if hit.isEmpty then s
    else
      let s := { s with pair := { s.pair with forceChg := rest } }
      let s := if s.active ∧ s.partnerSynced ∧ !s.mod.solo ∧ hit.any (fun c => !c.acked) then s.goSolo.toPartner (.force .unsynced) else s
      hit.foldl (fun (s : State) c => s.answerTo c.req .ok (s.forceDetail c.msg) []) s)

/-! ### Handovers (R245 to R248) -/

/-- A disagreement or an arbitration is open (R245). -/
def State.disputeOpen (s : State) : Bool :=
  !s.pair.adopt.isEmpty || s.cycles.any fun c =>
    decide ((s.cls_ c.cls).bnd = some c.bnd) && (c.withheld || (c.arbitration && !c.committed))

/-- Classes used on the pair, and the period of the slowest in ns. -/
def State.usedClasses (s : State) : List Nat := (List.range 8).filter fun k => !(s.tasksOf k).isEmpty
def State.slowestNs (s : State) : Nat := ((s.slowest s.usedClasses).map fun k => (s.cls_ k).period * usec).getD 0

/-- An epoch has passed GO with an apply instant within the next slowest-class period (R245, R247). -/
def State.epochSoon (s : State) : Bool :=
  match s.pl.prep.bind (·.go) with
  | some g => decide (since g s.now ≤ s.slowestNs) && !reached g s.now
  | none => false

/-- The last first boundary at or after a confirmation instant of the classes of warm partitions (R246). -/
def State.warmStart (s : State) (conf : W64) : Option W64 :=
  ((s.parts.map (·.1)).flatMap fun p => (s.classesOf p).filter fun k => !(s.profileOf p k).hot).foldl (init := none) fun m k =>
    let b := (s.cls_ k).nextBoundary conf
    match m with
    | none => some b
    | some a => if since a b < 0 then some b else some a

/-- A proposed H (R246 step 1); the confirmation is expected within 100 µs of the proposal (log 27). -/
def State.proposedH (s : State) : W64 :=
  let a := s.now + BitVec.ofNat 64 (10 * msec)
  let from_ := match s.warmStart (s.now + BitVec.ofNat 64 (200 * usec)) with
    | some w =>
      let b := w + BitVec.ofNat 64 s.slowestNs
      if since a b < 0 then b else a
    | none => a
  match s.slowest s.usedClasses with
  | some k => (s.cls_ k).nextBoundary from_
  | none => from_

/-- The incoming module proposes a handover (R246). -/
def State.propose (s : State) (switch : Bool) : State :=
  let h := s.proposedH
  { s with pair := { s.pair with hand := some { h := h, conf := 0, incoming := true, switch := switch, stage := 0 } } }.toPartner
    (.role (.propose h switch))

/-- An apply instant lies within one slowest-class period of an instant (R248). -/
def State.applyNear (s : State) (h : W64) : Bool :=
  match s.pl.prep.bind (·.go) with
  | some g => decide ((since g h).natAbs ≤ s.slowestNs)
  | none => false

/-- The ACTIVE module confirms a proposal (R245 to R248). -/
def State.confirms (s : State) (h : W64) (switch : Bool) : Bool :=
  let conf := s.now + BitVec.ofNat 64 (100 * usec)
  let late := match s.warmStart conf with
    | some w => decide (since (w + BitVec.ofNat 64 s.slowestNs) h ≤ 0)
    | none => true
  s.active && s.partnerSynced && !s.mod.solo && !s.disputeOpen && !s.epochSoon && !s.applyNear h && late && (switch || !s.nv.inhibit)
    && (match s.pair.hand with
        | some x => switch && x.switch && decide (x.stage = 0)
        | none => true)

/-- A GO has come for an apply instant near a confirmed H: the handover is cancelled, and the incoming module proposes again after the apply instant (R248). -/
def State.goNearHand (s : State) : State :=
  match s.pair.hand with
  | some x =>
    if x.stage = 1 ∧ s.applyNear x.h then
      let s := s.endHand.toPartner (.role .cancel)
      if x.incoming then { s with pair := { s.pair with rehand := some x.switch } } else s
    else s
  | none => s

/-- After the apply instant a handover that a GO cancelled is proposed again (R248). -/
def State.handAgain (s : State) : State :=
  match s.pair.rehand with
  | some sw =>
    let s := { s with pair := { s.pair with rehand := none } }
    if s.mod.st = .synced ∧ s.pair.hand.isNone then s.propose sw else s
  | none => s

/-- ROLE (R231, R246, R248). -/
def execRole (m : RoleMsg) (s : State) : PairAnswer :=
  .next (if !s.pairLink || s.stopping then s
    else match m with
      | .propose h switch =>
        if s.active then
          if s.confirms h switch then
            let conf := s.now + BitVec.ofNat 64 (100 * usec)
            { s with pair := { s.pair with hand := some { h := h, conf := conf, incoming := false, switch := switch, stage := 1 } } }.toPartner
              (.role (.confirm h s.now (s.pair.term + 1)))
          else s.endHand.toPartner (.role .refuse)
        else if s.mod.st = .synced ∧ switch ∧ s.pair.hand.isNone then s.propose true
        else s
      | .confirm h sent _ =>
        match s.pair.hand with
        | some x =>
          if x.incoming ∧ x.stage = 0 ∧ x.h = h then
            { s with pair := { s.pair with hand := some { x with conf := sent + BitVec.ofNat 64 (100 * usec), stage := 1 } } }
          else s
        | none => s
      | .refuse | .cancel => s.endHand
      | .giveWay => if s.mod.st = .synced then s.takeOver else s)

/-- TAKE_BACK_EVALUATION (R217, R245): once every second the preferred unit proposes a take-back where every condition holds. -/
def execTakeBackEvaluation (s : State) : PairAnswer :=
  .next (if s.mod.st ≠ .synced || !s.preferred || !s.due .takeBack || s.stopping then s
    else match s.pair.syncedAt with
      | none => s
      | some t =>
        if s.clk - t < s.nv.hold * sec then s
        else
          let s := s.again .takeBack sec
          if !s.nv.inhibit && !s.disputeOpen && !s.epochSoon && s.pair.hand.isNone then s.propose false else s)

/-- HANDOVER_INSTANT (R223, R246 step 3): at H the incoming module becomes ACTIVE and the other STANDBY SYNCED, both with the next term. -/
def execHandoverInstant (s : State) : PairAnswer :=
  .next (match s.pair.hand with
    | none => s
    | some x =>
      if x.stage ≠ 1 || !reached x.h s.now || s.stopping then s
      else
        let t := s.pair.term + 1
        let partnerSt : BitVec 4 := if x.incoming then 5 else 6
        let view := s.pair.view.map fun v => { v with st := partnerSt, term := t }
        let s := { s with pair := { s.pair with term := t, view := view, hand := some { x with stage := 2 } } }
        if x.incoming then
          let s := { s.setState .active with mod := { (s.setState .active).mod with solo := false } }
          (s.record 0x0609 0 s.module t (BitVec.ofNat 32 (bit x.switch)) 0 0).handDone
        else
          let s := s.setState .synced
          let s := { s with pair := { s.pair with syncedAt := some s.clk } }.handDone
          if s.nv.fallback.isSome then s.after .fallback 0 else s)

/-! ### Placer state, joining and synchronisation (R135, R255) -/

/-- PLACER (R135): the standby of the leader pair keeps the placer state of the epoch that is about to be sent. -/
def execPlacer (m : PlacerMsg) (s : State) : PairAnswer :=
  .next (if !s.pairLink || s.active then s
    else
      match s.pl.prep with
      | some e => if e.epoch = m.epoch then { s with pl := { s.pl with prep := some { e with dom := m.dom } } }
          else { s with pl := { s.pl with dom := m.dom } }
      | none => { s with pl := { s.pl with dom := m.dom } })

/-- A partition as a JOIN brings it. -/
def Part.joined (j : JoinPart) (order : Nat) : Part :=
  { cfg := j.cfg, order := order, state := if j.state = 1 then .running else if j.state = 2 then .safe else .loaded, limit := j.limit,
    mismatchSafe := j.mismatchSafe, faultSafe := j.faultSafe, pend := none, was := .loaded, entered := [], later := [], pendProfile := none, profEntered := [], owedFrom := [],
    change := .none, applyAt := 0, window := 0, reverting := false, stagedLen := 0,
    stagedCrc := 0, keepStaged := false }

/-- The progress a synchronising module shows (R251 SYNCPCT): 18 per cent for each part of the five that has come (log 66). -/
def SyncSt.pct (y : SyncSt) : Nat := 18 * (bit y.config + bit y.plan + bit y.packages + bit y.forces + bit y.image)

/-- Publication SEQs, overrun counts and the input sets frozen last as the partner has them (R45, R213, R224). -/
def State.joinSeqs (s : State) (seqs : List (W32 × W32)) (os : List (W32 × Nat)) (fz : List (W32 × Nat × W32 × W32 × Bool)) : State :=
  { s with
    pubSeq := seqs.foldl (fun t q => tput t q.1.toNat q.2) []
    overrun := os.foldl (fun t q => tput t q.1.toNat q.2) []
    setRx := fz.foldl (init := s.setRx) fun t f =>
      let r := tget SetRx.reset t f.1.toNat
      tput t f.1.toNat { r with frozen := tput r.frozen f.2.1 (f.2.2.1, f.2.2.2.1, f.2.2.2.2) } }

/-- JOIN (R39, R57, R255): one part of what a joining module needs. -/
def State.joinPart (s : State) (m : JoinMsg) : State :=
  let y := s.pair.sync
  match m with
  | .config epoch term parts classes keys =>
    let ps := (List.range parts.length).filterMap fun i => (parts[i]?).map fun j =>
      (j.cfg.part, Part.joined j i)
    let cs := classes.foldl (init := s.cls) fun t q =>
      tput t q.1 { tget Cls.reset t q.1 with period := q.2.1, phase := q.2.2 }
    { s with pl := { s.pl with epoch := epoch }, parts := ps.foldl (fun t q => tput t q.1 q.2) [], cls := cs, nv := { s.nv with keys := keys },
             pair := { s.pair with term := term, sync := { y with config := true } } }
  | .plan pl =>
    let s := s.linkAll pl
    { s with pl := { s.pl with plan := pl, old := emptyPlan }, nv := (s.nv.follow pl s.pl.dom).moveAll, guard := { s.guard with active := ruleTable (pl.rules ++ s.guard.configured) }, pair := { s.pair with sync := { y with plan := true } } }
  | .packages d =>
    { s with pl := { s.pl with dom := d }, nv := (s.nv.follow s.pl.plan d).moveAll, pair := { s.pair with sync := { y with packages := true } } }
  | .forces fs =>
    let fs := fs.map fun (v, x, p) => ({ vid := v, val := x, part := p, e := s.now, prev := none, live := true } : Force)
    { s with forces := fs, pair := { s.pair with sync := { y with forces := true } } }
  | .image ws seqs os fz =>
    let s := ws.foldl (fun (s : State) w => (s.wrImg 0 w.1 w.2).wrImg 1 w.1 w.2) s
    let s := s.joinSeqs seqs os fz
    { s with pair := { s.pair with sync := { y with image := true } } }
  | .cleanCycle p k => { s with pair := { s.pair with sync := { y with clean := (p, k) :: y.clean } } }
  | .bypass _ _ | .request => s

/-- Every class of every hosted partition that runs has had a clean cycle (R255). -/
def State.allClean (s : State) : Bool :=
  s.parts.all fun (p, x) => decide (x.state = .loaded) || (s.classesOf p).all fun k => decide ((p, k) ∈ s.pair.sync.clean)

/-- SYNC_COMPLETE (R245, R255, R282): every condition holds and the module is STANDBY SYNCED; the revert hold starts. -/
def execSyncComplete (s : State) : PairAnswer :=
  .next (
    let y := s.pair.sync
    let level := match s.pair.level with
      | some v => decide (v.toNat ≤ 1)
      | none => false
    if s.mod.st = .unsynced && !s.stopping && s.portUp .pl && level && y.config && y.plan && y.packages && y.forces && y.image && s.nv.moves.isEmpty
        && decide (s.timeErr ≤ 1000) && s.allClean && !s.modFault && s.partnerActive then
      let s := s.setState .synced
      { s with mod := { s.mod with syncPct := 100 },
               pair := { s.pair with syncedAt := some s.clk, sync := { y with restarts := 0 } } }.disarm .takeBack
    else s)

/-! ### The Health Report (R251, R252) -/

/-- Lanes retired. -/
def State.retired (s : State) : Nat := (s.lanes.filter fun p => p.2.retire).length

/-- FLAGS (R252). -/
def State.healthFlags (s : State) : W32 :=
  let psafe := s.parts.any fun p => decide (p.2.state = .safe)
  let bg := match s.mod.bgFailAt with
    | some t => decide (s.clk - t < 86400 * sec)
    | none => false
  let ringDown := !(s.portUp .n && s.portUp .e && s.portUp .s && s.portUp .w)
  BitVec.ofNat 32 (bit psafe * 2 ^ 16 + bit bg * 2 ^ 15 + bit s.trip.holds * 2 ^ 14 + bit s.mod.solo * 2 ^ 13 + bit s.preferred * 2 ^ 12
    + bit s.nv.inhibit * 2 ^ 11 + bit (decide (s.time.state = 1)) * 2 ^ 10 + bit (decide (s.time.state = 2)) * 2 ^ 9
    + bit ringDown * 2 ^ 8 + bit (!s.portUp .pl) * 2 ^ 7 + bit s.mod.temp * 2 ^ 6 + bit s.mod.supply * 2 ^ 5 + bit s.dramEcc * 2 ^ 4
    + bit s.imgEcc * 2 ^ 3 + bit (decide (0 < s.retired)) * 2 ^ 2 + bit s.mod.cmpFlag * 2 + bit (!s.liveForces.isEmpty))

/-- HOLD: seconds left of the revert hold (R251). -/
def State.holdLeft (s : State) : Nat :=
  match s.mod.st, s.pair.syncedAt with
  | .synced, some t => if s.preferred then min 0xFFFE (s.nv.hold - (s.clk - t) / sec) else 0xFFFF
  | _, _ => 0xFFFF

/-- The version of the slot that runs. -/
def State.fw (s : State) : W32 := if s.nv.runB then s.nv.slotB.version else s.nv.slotA.version

/-- Version bytes major, minor, patch, build. -/
def versionBytes (v : W32) : List Byte := (leBytes 4 v.toNat).reverse

/-- The Health Report (R251). -/
def State.healthReport (s : State) : List Byte :=
  let level := match s.pair.level with
    | some v => min 1 v.toNat
    | none => 1
  [0x01, BitVec.ofNat 8 level] ++ leBytes 2 0x9256 ++ leBytes 2 s.module ++ [BitVec.ofNat 8 s.mod.st.code, BitVec.ofNat 8 s.mod.syncPct]
    ++ leBytes 4 s.pl.epoch.toNat ++ leBytes 4 s.pair.term.toNat ++ leBytes 2 s.mod.hrSeq.toNat ++ leBytes 2 s.holdLeft
    ++ versionBytes s.fw ++ leBytes 8 Config.serial.toNat ++ leBytes 4 s.healthFlags.toNat ++ leBytes 2 s.retired
    ++ leBytes 2 s.mod.bgFail.toNat ++ leBytes 2 s.pwr.tdie.toNat ++ leBytes 2 s.pwr.tinlet.toNat ++ leBytes 2 s.pwr.vin.toNat
    ++ leBytes 2 s.inputPower.toNat ++ leBytes 4 s.mod.ce.toNat ++ leBytes 4 s.mod.overruns.toNat ++ leBytes 4 s.mod.disagree.toNat
    ++ leBytes 4 ((s.clk - s.mod.resetAt) / sec)

/-- HEALTH_REPORT_TIMER (R251, R320): every 100 ms to the partner and as a notice to mailbox 0. -/
def execHealthReportTimer (s : State) : PairAnswer :=
  .next (if !s.powered || !s.due .healthReport then s
    else
      let s := s.again .healthReport (100 * msec)
      let bs := s.healthReport
      let s := { s with mod := { s.mod with hrSeq := s.mod.hrSeq + 1 } }
      let s := if s.pairLink then s.transmit .pl (s.mkFrame 7 0 s.partner 0 s.now32 bs) none else s
      s.notify 0 0xF001 bs)

/-! ### Words of the ACTIVE module (R378, R403) -/

/-- The words of a latch are late: their boundary has passed and the next latch instant has not come. -/
def State.wordsLate (s : State) (k : Nat) (late : Option W64) : Bool :=
  late.isSome && decide (5 * usec < since ((s.cls_ k).nextBoundary s.now) s.now)

/-- TRIP_WORDS (R378, R391): kept for the next freeze of the class; late ones are recorded with their delay. -/
def execTripWords (k : Fin 8) (tripIn tripDiag : W64) (s : State) : PairAnswer :=
  .next (if !s.pairLink || !s.freezesPartner then s
    else
      let t := { s.trip with pPairRun := (tripIn >>> 32).setWidth 16 }
      if s.wordsLate k (tfind t.lateAt k) then
        let b := (tfind t.lateAt k).getD 0
        let t := { t with lateAt := terase t.lateAt k, tripIn := tput t.tripIn k tripIn, tripDiag := tput t.tripDiag k tripDiag }
        { s with trip := t }.record 0x0A04 t.safetyPart 0 (BitVec.ofNat 32 k) 0 0 (sat32 (since s.now b).toNat)
      else { s with trip := { t with rxIn := tput t.rxIn k (tripIn, tripDiag) } })

/-- CAN_WORDS (R403): as trip words, per channel. -/
def execCanWords (k : Fin 8) (channel : Fin 4) (objs : List (List W64)) (window : List W64) (s : State) : PairAnswer :=
  .next (if !s.pairLink || !s.freezesPartner then s
    else
      let c := s.canOf channel
      if s.wordsLate k (tfind c.lateAt k) then
        let b := (tfind c.lateAt k).getD 0
        (s.setCan channel { c with lateAt := terase c.lateAt k, latched := tput c.latched k (objs, window) }).record 0x0B01 0 channel
          (BitVec.ofNat 32 channel) (BitVec.ofNat 32 k) 0 (sat32 (since s.now b).toNat)
      else s.setCan channel { c with rx := tput c.rx k (objs, window) })

end Sys2Proof.Machine
end

