-- ==== Sys2Proof/Machine/Mailbox.lean ====
section
/-! DEFINITION. Mailboxes, doorbells and TLS connections (R317 to R328): how a request is taken and its first checks (R324 to R326, R285), how a response buffer is filled and released, how connections and sessions end, and the time limit of a command. -/
namespace Sys2Proof.Machine

/-! ### Taking a request (R321, R324 steps 1 to 3, R325, R326) -/

/-- The request a header and its payload spell (R321); LEN as the header states it. -/
structure Header where
  req : Request
  len : Nat
deriving DecidableEq, Repr

/-- Bytes of a request, from a source whose session is of `part`. -/
def headerOf (src : ReqSrc) (part : Nat) (bs : List Byte) : Header :=
  let len := field bs 4 4
  { len := len,
    req := { src := src, cmd := BitVec.ofNat 16 (field bs 0 2), seq := BitVec.ofNat 16 (field bs 2 2), tag := BitVec.ofNat 64 (field bs 8 8),
             part := part, login := false, noirq := decide (bitsAt (field bs 16 4) 0 1 = 1), payload := (bs.drop 32).take (min len 4064),
             running := false } }

/-- The partition of a request: that of its session, or the one an OPEN_SESSION comes for. -/
def State.partOf (s : State) (src : ReqSrc) (bs : List Byte) : Nat :=
  match s.session src (BitVec.ofNat 64 (field bs 8 8)) with
  | some x => x.part
  | none =>
    match src with
    | .mailbox n => n.val
    | _ => if s.mod.st = .recovery then 0 else field bs 34 2 % 512

/-- Checks 1 to 3 of R324; RECOVERY accepts its own commands with tag 0 (R285), BOOT answers NOT_NOW. -/
def State.firstChecks (s : State) (h : Header) : Option Status :=
  let c := h.req.cmd.toNat
  let rec_ := decide (s.mod.st = .recovery)
  firstFail
    [(decide (h.len ≤ 4064), .badLen), (decide (c ∈ if rec_ then recoveryCmds else cmdCodes), .badCmd),
     (if rec_ then decide (h.req.tag = 0) else decide (c = 0x0101) || (s.session h.req.src h.req.tag).isSome, .denied),
     (decide (s.mod.st ≠ .boot), .notNow)]

/-- A request arrives: a repeat of the last one is answered from the store, a failed check at once, any other joins the queue (R324 to R326). -/
def State.takeRequest (s : State) (src : ReqSrc) (bs : List Byte) : State :=
  let h := headerOf src (s.partOf src bs) bs
  let r := h.req
  let again := match tfind s.mb.last (srcIx src) with
    | some x => if x.key = r.tag ∧ x.cmd = r.cmd ∧ x.seq = r.seq then some x else none
    | none => none
  match again with
  | some x => s.putResponse src { x with rflags := x.rflags ||| 4, noirq := r.noirq }
  | none =>
    match s.firstChecks h with
    | some st => s.refuse r st
    | none =>
      let r := { r with login := ((s.session src r.tag).map fun x => Session.loggedIn x s.clk).getD false }
      let used := s.mb.sessions.map fun x => if x.tag = r.tag ∧ x.src = src then { x with last := s.clk } else x
      ({ s with mb := { s.mb with queue := s.mb.queue ++ [r], sessions := used } }.count (ctrEv 0x41 1 0)).after r.limit (cmdLimit r.cmd.toNat r.payload)

/-! ### The mailbox (R318 to R320) -/

/-- Bytes of a mailbox's request buffer. -/
def State.reqBytes (s : State) (n k : Nat) : List Byte := (List.range k).map fun i => tget 0 s.host.req (n * 4096 + i)

def State.bell (s : State) (n : Nat) : Doorbell := tget Doorbell.reset s.host.db n
def State.setBell (s : State) (n : Nat) (d : Doorbell) : State := { s with host := { s.host with db := tput s.host.db n d } }

/-- RECOVERY has mailbox 0 only (R284). -/
def State.mailboxThere (s : State) (n : Nat) : Bool := s.powered && (decide (s.mod.st ≠ .recovery) || decide (n = 0))

/-- The request buffer is submitted (R318). -/
def State.submit (s : State) (n : Fin 512) : State :=
  if !s.mailboxThere n then s
  else
    let d := s.bell n
    if d.out then s.hostErr 5
    else
      let bs := s.reqBytes n (32 + min (field (s.reqBytes n 8) 4 4) 4064)
      (s.setBell n { d with out := true, seq := BitVec.ofNat 16 (field bs 2 2) }).takeRequest (.mailbox n) bs

/-- The response buffer is freed (R318). -/
def State.releaseBuf (s : State) (n : Nat) : State :=
  if !s.mailboxThere n then s
  else
    let d := s.bell n
    if d.buf = 0 then s.hostErr 5
    else
      let s := s.setBell n { d with buf := 0, out := if d.buf = 1 then false else d.out }
      { s with host := { s.host with rsp := terase s.host.rsp n } }

/-- SUBMIT (R318, R324 to R326). -/
def execSubmit (n : Fin 512) (s : State) : Host.Outcome State Fault Refusal := .next (s.submit n)

/-- RELEASE (R318). -/
def execRelease (n : Fin 512) (s : State) : Host.Outcome State Fault Refusal := .next (s.releaseBuf n.val)

/-- The content is in place, then BUF, H_DONE and MBOX are set (R318, R319). -/
def State.fill (s : State) (n : Nat) (r : Response) (buf : BitVec 2) : State :=
  let s := { s with host := { s.host with rsp := tput s.host.rsp n r.bytes } }
  let s := s.setBell n { s.bell n with buf := buf }
  if r.noirq then s else s.mboxSet

/-- A notice as it is delivered: after a loss it carries LOST and the count (R320). -/
def Response.withLost (r : Response) (lost : Nat) : Response :=
  if lost = 0 then r else { r with rflags := r.rflags ||| 2, detail := sat32 lost }

/-- RESPONSE_FILL (R318 to R320): the response if it is ready, else the oldest notice. -/
def execResponseFill (n : Fin 512) (s : State) : Host.Outcome State Fault Refusal :=
  .next (if !s.powered || decide ((s.bell n.val).buf ≠ 0) then s
    else match tfind s.mb.ready n.val with
      | some r => { s with mb := { s.mb with ready := terase s.mb.ready n.val } }.fill n.val r 1
      | none =>
        match tget [] s.mb.notices n.val with
        | r :: rest =>
          let m := { s.mb with notices := tput s.mb.notices n.val rest, lost := terase s.mb.lost n.val }
          { s with mb := m }.fill n.val (r.withLost (tget 0 s.mb.lost n.val)) 2
        | [] => s)

/-! ### TLS connections (R285, R286, R327, R328) -/

/-- IP runs on a port: on SP-ETH1, and under PRP on both; in RECOVERY on SP-ETH1 (R286, R327, R413). -/
def State.ipOn (s : State) (port : Nat) : Bool :=
  let up := if port = 0 then s.stn.link1 else s.stn.link2
  let firmware := s.joined || decide (s.mod.st = .service)
  up && ((firmware && decide (s.stn.mode ≠ 0) && (decide (port = 0) || decide (s.stn.mode = 2))) || (decide (s.mod.st = .recovery) && decide (port = 0)))

/-- TLS_ACCEPT (R286, R327, R328): at most 16 connections, a client certificate that chains to an installed root. -/
def execTlsAccept (port : Fin 2) (chains : Bool) (cert : Nat) (s : State) : Host.Outcome State Fault Refusal :=
  .next (
    let free (c : Nat) : Bool := !(s.mb.tls.any fun t => decide (t.conn = c)) && !(s.mb.queue.any fun r => decide (srcIx r.src = 512 + c))
    if !s.ipOn port.val || !chains || decide (16 ≤ s.mb.tls.length) then s
    else match (List.range 16).find? free with
      | none => s
      | some c =>
        let t : TlsConn := { conn := c, cert := cert, busy := false }
        let m := { s.mb with tls := s.mb.tls ++ [t], last := terase s.mb.last (512 + c), auth := terase s.mb.auth (512 + c) }
        { s with mb := m }.after (.tlsSession c) (10 * sec))

/-- A connection closes, and with it its session (R323). -/
def State.closeConn (s : State) (c : Nat) : State :=
  let gone := s.mb.sessions.filter fun x => decide (srcIx x.src = 512 + c)
  let s := gone.foldl (fun (s : State) x => s.endSession x) s
  { s with mb := { s.mb with tls := s.mb.tls.filter fun t => decide (t.conn ≠ c) } }.disarm (.tlsSession c)

/-- TLS_REQUEST (R324 to R328): one request with its LEN bytes. -/
def execTlsRequest (c : Fin 16) (bytes : List Byte) (s : State) : Host.Outcome State Fault Refusal :=
  .next (
    let src : ReqSrc := .tls c
    let len := field bytes 4 4
    match s.mb.tls.find? fun t => decide (t.conn = c.val) with
    | none => s
    | some t =>
      if decide (bytes.length < 32) || (decide (len ≤ 4064) && decide (bytes.length < 32 + len)) then s
      else
        let r := (headerOf src 0 bytes).req
        if t.busy then
          s.send (.tls c.val (Response.bytes { cmd := r.cmd, seq := r.seq, status := 1, rflags := 0, detail := 0, time := s.now32, epoch := s.pl.epoch,
                                               payload := [], noirq := false, key := r.tag }))
        else
          let tls := s.mb.tls.map fun x => if x.conn = c.val then { x with busy := true } else x
          let s := { s with mb := { s.mb with tls := tls } }.takeRequest src bytes
          if 4064 < len then (s.closeConn c.val).send (.tlsClosed c.val) else s)

/-- TLS_CLOSE (R323). -/
def execTlsClose (c : Fin 16) (s : State) : Host.Outcome State Fault Refusal := .next (s.closeConn c.val)

/-- TLS_NO_SESSION_TIMEOUT (R328): 10 s after the handshake without a session. -/
def execTlsNoSessionTimeout (c : Fin 16) (s : State) : Host.Outcome State Fault Refusal :=
  .next (if !s.expired (.tlsSession c.val) then s
    else if s.mb.sessions.any fun x => decide (srcIx x.src = 512 + c.val) then s.disarm (.tlsSession c.val)
    else if s.mod.st = .recovery then s
    else (s.closeConn c.val).send (.tlsClosed c.val))

/-! ### Limits (R323, R326, R333, R334) -/

/-- SESSION_IDLE_EXPIRY (R323): no request for the idle limit. -/
def execSessionIdleExpiry (tag : W64) (s : State) : Host.Outcome State Fault Refusal :=
  .next (match s.mb.sessions.find? fun x => decide (x.tag = tag) with
    | some x => if x.idle * sec ≤ s.clk - x.last then (s.sessionClosed x 1).endSession x else s
    | none => s)

/-- COMMAND_TIMEOUT (R326, R331, R334): the limit is reached, no effect remains. -/
def execCommandTimeout (q : ReqSrc) (s : State) : Host.Outcome State Fault Refusal :=
  .next (match s.mb.queue.find? fun r => decide (r.src = q) && s.expired r.limit with
    | some r =>
      let k := r.key
      let s := (s.answer r .timeout 0 []).dropWork fun x => decide (x = k)
      { s with can := s.can.map fun (x : Nat × Can) => (x.1, match x.2.detect with
          | some d => if d.req = r.src ∧ d.cmdSeq = r.seq then { x.2 with detect := none } else x.2
          | none => x.2) }
    | none => s)

end Sys2Proof.Machine
end

