-- ==== Sys2Proof/Machine/Ring.lean ====
section
/-! DEFINITION. The rows of the ring: link states (R175 to R179), credits and pre-emption (R194, R196), publication sets received (R156, R209 to R212, R229), forwarded requests (R162, R330, R331), breaks and planned changes (R198 to R208). -/
namespace Sys2Proof.Machine

/-- A port whose link can work: the module runs, and a ring port's bypass is open (R204). -/
def State.portLive (s : State) (p : Port) : Bool :=
  s.powered && decide (s.mod.st ≠ .recovery) && (decide (p = .pl) || (if isRowPort p then !s.pins.bypEW else !s.pins.bypNS))

/-- SerDes lanes of a port (R175, R218). -/
def lanesOf (p : Port) : Nat := if p = .pl then 4 else 2

/-! ### IDENT and the link state (R176 to R179) -/

/-- Why an IDENT is not acceptable: 0 domain, 1 ring, 2 size, 3 gap (R178, R420); on the Pair Link it must come from the partner (R218). -/
def State.identFault (s : State) (p : Port) (i : Ident) : Option Nat :=
  let m := i.module.toNat
  let row := isRowPort p
  if i.domain ≠ s.nv.domainId then some 0
  else if p = .pl then (if i.nr ≠ s.nv.nr ∨ i.nc ≠ s.nv.nc then some 2 else if m ≠ s.partner then some 3 else none)
  else if i.ring ≠ row ∨ (if row then rowOf m ≠ rowOf s.module else colOf m ≠ colOf s.module) then some 1
  else if i.nr ≠ s.nv.nr ∨ i.nc ≠ s.nv.nc then some 2
  else
    let n := s.ringSize row
    let me := if row then colOf s.module else rowOf s.module
    let far := if row then colOf m else rowOf m
    let d := if p = .e ∨ p = .s then dist n me far else dist n far me
    if d = 0 ∨ 4 < d then some 3 else none

/-- LINK_REFUSED, once per minute and port (R178). -/
def State.linkRefused (s : State) (p : Port) (reason : Nat) (far : Nat) : State :=
  if s.oncePer 5 (Port.ix p) (60 * sec) then
    (s.record 0x0501 0 (Port.ix p) (BitVec.ofNat 32 reason) (BitVec.ofNat 32 far) 0 0).markOnce 5 (Port.ix p)
  else s

/-- IDENT (R178, R179, R218). -/
def execIdent (p : Port) (i : Ident) (s : State) : Host.Outcome State Fault Refusal :=
  .next (if !s.portLive p then s
    else
      let x := s.port p
      match s.identFault p i with
      | some r =>
        let s := s.linkRefused p r i.module.toNat
        if x.st = .up then s.linkDown p 1 else s.setPort p { x with identOkAt := none }
      | none =>
        if x.st = .up then
          if i.up then (s.setPort p { x with upSeen := true, far := some i.module.toNat }).after (.identUp (Port.ix p)) (20 * msec)
          else if x.upSeen then s.linkDown p 1
          else s
        else
          let t := match x.identOkAt with
            | some t => t
            | none => s.clk
          s.setPort p { x with st := .train, identOkAt := some t, far := some i.module.toNat })

/-- IDENT_SEND (R176): every 1 µs while not UP and every 1 ms while UP. -/
def execIdentSend (p : Port) (s : State) : Host.Outcome State Fault Refusal :=
  .next (if !s.portLive p || !s.due (.identSend (Port.ix p)) then s
    else
      let up := s.portUp p
      let i : Ident := { module := BitVec.ofNat 12 s.module, domain := s.nv.domainId, ring := isRowPort p, port := p, nr := s.nv.nr, nc := s.nv.nc, up := up }
      (s.send (.ident p i)).again (.identSend (Port.ix p)) (if up then msec else usec))

/-- The link that a module's opening bypass cuts (R206): at a neighbour of this module the link at the port towards it, else the one that leaves the nearest occupied position before it (log 75). -/
def State.cutLink (s : State) (row : Bool) (m : Nat) : LinkName :=
  let n := s.ringSize row
  let at_ (x : Nat) : Nat := if row then colOf x else rowOf x
  let ring := if row then rowOf m else colOf m
  if ring = (if row then rowOf s.module else colOf s.module) ∧ at_ m = (at_ s.module + 1) % n then s.linkAt (portTo row true)
  else if ring = (if row then rowOf s.module else colOf s.module) ∧ (at_ m + 1) % n = at_ s.module then s.linkAt (portTo row false)
  else
    let mod (i : Nat) : Nat := if row then ring * 64 + i else i * 64 + ring
    let prev := (((List.range n).map fun i => (at_ m + n - 1 - i) % n).find? fun i => decide (s.position (mod i) ≠ .empty)).getD ((at_ m + n - 1) % n)
    { row := row, ring := ring, pos := prev }

/-- RING_PLAN for some links of a ring, repeated as a RING_BREAK is (R206). -/
def State.ringPlan (s : State) (row : Bool) (ls : List LinkName) (t0 : W64) : State :=
  let s := ls.foldl (fun (s : State) l => s.setLink l fun e => { e with planT0 := some t0 }) s
  s.linkNotice (if row then 4 else 5) 0x04 ls t0

/-- RING_PLAN before a module's bypass opens: the link between its two neighbours ends (R206, R207). -/
def State.ringPlanOpen (s : State) (row : Bool) (m : Nat) (t0 : W64) : State := s.ringPlan row [s.cutLink row m] t0

/-- RING_PLAN before this module's own bypass closes: its two links end (R206, R208). -/
def State.ringPlanClose (s : State) (row : Bool) (t0 : W64) : State :=
  s.ringPlan row [s.linkAt (portTo row true), s.linkAt (portTo row false)].eraseDups t0

/-- A module leaving BOOT asks its partner for a RING_PLAN and opens the bypass at t0 + 20 µs (R207). -/
def State.askBypass (s : State) (row : Bool) : State :=
  (s.toPartner (.join (.bypass row (s.now + BitVec.ofNat 64 (200 * usec))))).after (.bypassOpen row) (220 * usec)

/-- JOIN (R39, R57, R207, R255): a joining module takes one part of what it needs; the partner of a module that leaves BOOT sends the RING_PLAN it asks for. -/
def execJoin (m : JoinMsg) (s : State) : Host.Outcome State Fault Refusal :=
  .next (if !s.pairLink then s
    else match m with
      | .bypass row t0 =>
        match s.mod.st with
        | .active | .synced | .unsynced => s.ringPlanOpen row s.partner t0
        | _ => s
      | .request => if s.active then s.sendJoin else s
      | m =>
        if s.mod.st = .joining ∨ s.mod.st = .unsynced then
          let s := s.joinPart m
          { s with mod := { s.mod with syncPct := s.pair.sync.pct } }
        else s)

/-- Once both row links are UP the column bypass is opened in the same way (R207 step 4). -/
def State.openColumn (s : State) : State :=
  if s.ring.openNext ∧ s.portUp .e ∧ s.portUp .w then
    { s with ring := { s.ring with openNext := false } }.askBypass false
  else s

/-- A ring link has come UP again: it and the links that ran within its span before work, and RING_MEND says so, repeated as a break is (R202); after this module's own bypass has opened, one notice for both new links once both are UP (R207). -/
def State.linkMended (s : State) (p : Port) (far : Nat) : State :=
  let row := isRowPort p
  let at_ (x : Nat) : Nat := if row then colOf x else rowOf x
  let l := s.linkAt p
  let s := s.mendLink l (at_ (if p = .e ∨ p = .s then far else s.module))
  if row ∈ s.ring.opened then
    if s.portUp (portTo row true) && s.portUp (portTo row false) then
      { s with ring := { s.ring with opened := s.ring.opened.filter fun x => decide (x ≠ row) } }.linkNotice (Port.ix p) 0x03
        [s.linkAt (portTo row true), s.linkAt (portTo row false)].eraseDups 0
    else s
  else s.linkNotice (Port.ix p) 0x03 [l] 0

/-- LINK_UP (R178, R202, R207): every lane holds block lock and is deskewed, and IDENT has been acceptable for 10 ms. -/
def execLinkUp (p : Port) (s : State) : Host.Outcome State Fault Refusal :=
  .next (
    let x := s.port p
    let all (ls : List Nat) : Bool := (List.range (lanesOf p)).all fun l => decide (l ∈ ls)
    let held := match x.identOkAt with
      | some t => decide (t + 10 * msec ≤ s.clk)
      | none => false
    if !s.portLive p || decide (x.st = .up) || !held || !all x.lock || !all x.aligned then s
    else
      let s := s.setPort p { x with st := .up, upSeen := false, credit := [], crcTimes := [] }
      let s := (s.record 0x0503 0 (Port.ix p) (BitVec.ofNat 32 (x.far.getD 0)) 0 0 0).after (.identUp (Port.ix p)) (20 * msec)
      if p = .pl then { s with pair := { s.pair with plDownAt := none }, mod := { s.mod with isolated := false } }
      else
        let s := if p = .e then { s with pair := { s.pair with eDownAt := none } }
          else if p = .w then { s with pair := { s.pair with wDownAt := none } } else s
        (s.linkMended p (x.far.getD s.module)).openColumn)

/-- BLOCK_LOCK (R178): a lane has found block lock. -/
def execBlockLock (p : Port) (lane : Fin 4) (s : State) : Host.Outcome State Fault Refusal :=
  .next (
    let x := s.port p
    if !s.portLive p || decide (lanesOf p ≤ lane.val) || decide (lane.val ∈ x.lock) then s
    else s.setPort p { x with lock := lane.val :: x.lock, st := if x.st = .down then .train else x.st })

/-- LOCK_LOSS (R179): a lane has lost block lock for 1 µs. -/
def execLockLoss (p : Port) (lane : Fin 4) (s : State) : Host.Outcome State Fault Refusal :=
  .next (
    let x := s.port p
    if decide (lane.val ∉ x.lock) then s
    else
      let s := s.linkDown p 0
      let x := s.port p
      s.setPort p { x with lock := x.lock.erase lane.val, aligned := x.aligned.erase lane.val, identOkAt := none })

/-- IDENT_UP_TIMEOUT (R179): 20 ms in UP without an IDENT with the UP flag. -/
def execIdentUpTimeout (p : Port) (s : State) : Host.Outcome State Fault Refusal :=
  .next (if s.portUp p ∧ s.expired (.identUp (Port.ix p)) then s.linkDown p 1 else s)

/-- ALIGN (R175, R176): a lane with block lock is deskewed. -/
def execAlign (p : Port) (lane : Fin 4) (s : State) : Host.Outcome State Fault Refusal :=
  .next (
    let x := s.port p
    if s.portLive p ∧ lane.val ∈ x.lock ∧ lane.val ∉ x.aligned then s.setPort p { x with aligned := lane.val :: x.aligned } else s)

/-- 16,384 blocks of 66 bits at 12 Gb/s, in ns (R175). -/
def alignNs : Nat := 90112

/-- ALIGN_SEND (R175): every 16,384 blocks per lane. -/
def execAlignSend (p : Port) (lane : Fin 4) (s : State) : Host.Outcome State Fault Refusal :=
  .next (if !s.portLive p || decide (lanesOf p ≤ lane.val) || !s.due (.alignSend (Port.ix p) lane.val) then s
    else (s.send (.control p 0x20 [BitVec.ofNat 8 lane.val])).again (.alignSend (Port.ix p) lane.val) alignNs)

/-! ### Credits and pre-emption -/

/-- CREDIT (R194): buffer returned in 64-byte units, at most the pool; frames that waited for it go. -/
def execCredit (p : Port) (vc pool : Fin 2) (count : Byte) (s : State) : Host.Outcome State Fault Refusal :=
  .next (if !s.portUp p then s
    else
      let x := s.port p
      let i := 2 * vc.val + pool.val
      let n := min PortSt.fullCredit (tget PortSt.fullCredit x.credit i + count.toNat)
      (s.setPort p { x with credit := tput x.credit i n }).drain p x.sending.length)

/-- PREEMPT (R196): the frame of a channel and pool that is arriving is suspended. -/
def execPreempt (p : Port) (vc : Fin 3) (pool : Fin 2) (s : State) : Host.Outcome State Fault Refusal :=
  .next (
    let x := s.port p
    if s.portUp p ∧ (vc.val, pool.val) ∉ x.susp then s.setPort p { x with susp := (vc.val, pool.val) :: x.susp } else s)

/-- RESUME (R196). -/
def execResume (p : Port) (vc : Fin 3) (pool : Fin 2) (s : State) : Host.Outcome State Fault Refusal :=
  .next (
    let x := s.port p
    if s.portUp p then s.setPort p { x with susp := x.susp.erase (vc.val, pool.val) } else s)

/-- The types of R176 a port takes; HEARTBEAT is one only on the Pair Link. -/
def knownBlock (p : Port) (ty : Byte) : Bool :=
  decide (ty ∈ [0x10#8, 0x20, 0x30, 0x40, 0x48, 0x50, 0x51, 0x60]) || (decide (ty = 0x70) && decide (p = .pl))

/-- CONTROL_BLOCK_UNKNOWN (R176): discarded and counted as a coding error. -/
def execControlBlockUnknown (p : Port) (ty : Byte) (s : State) : Host.Outcome State Fault Refusal :=
  .next (if s.portLive p ∧ !knownBlock p ty then s.portCnt p fun c => { c with malformed := c.malformed + 1 } else s)

/-! ### Publication sets (R156, R209 to R212, R229) -/

/-- The home that the plan in force at a stamp names for a set (R156). -/
def State.homeOfSet (s : State) (set : W32) (stamp : W64) : Option Nat :=
  (s.planAt stamp).bind fun h => (h.setHome.find? fun q => decide (q.1 = set)).map (·.2)

/-- A frame comes from that home: the adapter, or a module of the pair. -/
def State.fromHome (s : State) (home src : Nat) : Bool :=
  decide (src = home) || (decide (s.position home = .module) && decide (pairOf src = home))

/-- A set that some class of this module reads or a recovery shadow it keeps, by a plan that it still has (R156). -/
def State.wantsSet (s : State) (set : W32) : Bool :=
  s.pl.old.subs.any (fun u => decide (u.set = set))
    || s.plansKept.any fun h => h.subs.any (fun u => decide (u.set = set)) || h.shadowSets.any fun x => decide (x.1 = set)

/-- The words of a fragment put into an instance at their places (R210). -/
def Inst.addFrag (i : Inst) (bs : List Byte) : Inst :=
  let n := (bs.length - 16) / 8
  let first := field bs 12 4
  let frag := field bs 8 1
  if frag ∈ i.frags then i
  else { i with frags := frag :: i.frags,
                words := (List.range n).foldl (fun t j => tput t (first + j) (BitVec.ofNat 64 (field bs (16 + 8 * j) 8))) i.words }

/-- A fragment at a subscriber: assembled, completed, superseded (R211, R229). -/
def SetRx.fragment (r : SetRx) (src : Nat) (stamp : W32) (bs : List Byte) : SetRx × Option Inst :=
  let seq : W32 := BitVec.ofNat 32 (field bs 4 4)
  if r.complete.any fun i => decide (i.seq = seq) then (r, none)
  else
    let fresh : Inst := { seq := seq, stamp := stamp, src := src, nfrag := field bs 9 1, frags := [], words := [],
                          safe := bitsAt (field bs 10 1) 0 1 = 1 }
    let i := ((r.partial_.find? fun i => decide (i.seq = seq) && decide (i.stamp = stamp)).getD fresh).addFrag bs
    let others := r.partial_.filter fun j => !(decide (j.seq = seq) && decide (j.stamp = stamp))
    if i.frags.length = i.nfrag then
      ({ r with complete := newestTwo (i :: r.complete), partial_ := others.filter fun j => seqNewer j.seq seq }, some i)
    else ({ r with partial_ := newestTwo (i :: others) }, none)

/-- A complete recovery shadow is kept, its words in the order of the plan in force at its stamp (R150, R166, R212). -/
def State.keepShadow (s : State) (set : W32) (i : Inst) : State :=
  match (s.planAt (extNear s.now i.stamp)).bind fun h => h.shadowSets.find? fun x => decide (x.1 = set) with
  | none => s
  | some (_, vids) =>
    let ws := (List.range vids.length).filterMap fun n => (vids[n]?).map fun v => (v, tget 0 i.words n)
    { s with pl := { s.pl with shadow := (set, i.stamp, ws) :: s.pl.shadow.filter fun h => decide (h.1 ≠ set) } }

/-- WRONG_SOURCE, once per set and epoch (R156). -/
def State.wrongSource (s : State) (set : W32) (src : Nat) : State :=
  let s := { s with pl := { s.pl with wrongSource := s.pl.wrongSource + 1 } }
  let key := set.toNat * 2 ^ 32 + s.pl.epoch.toNat
  if s.oncePer 6 key (2 ^ 64) then
    (s.record 0x0408 0 s.module set (BitVec.ofNat 32 src) s.pl.epoch 0).markOnce 6 key
  else s

/-- Port numbers in G_FLT_INFO.SOURCE (R305). -/
def Port.source : Port → Nat
  | .n => 0 | .e => 1 | .s => 2 | .w => 3 | .pl => 4

/-- The ring engine's delivery of a fragment into the assembly buffers of each subscriber's partition: the first access that the Access Guard refuses, and the state after the checks (R288, R302). -/
def State.deliveries (s : State) (p : Port) (set : W32) (len : Nat) : Option Access × State :=
  let parts := (((s.pl.plan.subs ++ s.pl.old.subs).filter fun u => decide (u.set = set)).map (·.part)).eraseDups
  parts.foldl (init := (none, s)) fun (bad, s) q =>
    let a : Access := { part := q, master := .ring, kind := .w, source := Port.source p, addr := assemblyAddr q, len := len }
    let (ok, s) := s.guardCheck a
    (if ok then bad else bad.orElse fun _ => some a, s)

/-- PUB (R156, R187, R210, R211, R229, R302): a fragment of a publication set; a subscriber takes a copy of a good one that passes through it. -/
def execPub (p : Port) (f : Frame) (s : State) : Host.Outcome State Fault Refusal :=
  .next (
    let r := s.receive p f
    let passing := s.onRing p && f.formed && f.crcOk
    if !(r.deliver || passing) || decide (f.ty ≠ 1) || decide (f.payload.length < 16) then r.s
    else
      let s := r.s.alive f
      let set : W32 := BitVec.ofNat 32 (field f.payload 0 4)
      if !s.wantsSet set then s
      else if (s.homeOfSet set (extNear s.now f.stamp)).map (fun h => s.fromHome h f.srcMod) ≠ some true then s.wrongSource set f.srcMod
      else
        let (bad, s) := s.deliveries p set f.payload.length
        match bad with
        | some a => s.recordDenyOnce a set.toNat
        | none =>
          let (x, done) := (tget SetRx.reset s.setRx set.toNat).fragment f.srcMod f.stamp f.payload
          let s := { s with setRx := tput s.setRx set.toNat x }
          match done with
          | some i => s.keepShadow set i
          | none => s)

/-! ### Forwarded requests (R162, R330, R331) -/

/-- A STALE_FRAME drop (R162): counted; the recorder limits the records. -/
def State.staleFrame (s : State) (f : Frame) : State :=
  let s := { s with pl := { s.pl with stale := s.pl.stale + 1 } }
  s.record 0x0409 0 s.module (BitVec.ofNat 32 f.srcMod) f.epoch s.pl.epoch (BitVec.ofNat 32 s.pl.stale)

/-- A task or variable that this module hosts. -/
def State.hosts (s : State) (obj : W32) : Bool := (s.findTask obj).isSome || (s.homeEntry (s.resolve obj)).isSome

/-- The source of a forwarded request. -/
def ReqMsg.src (m : ReqMsg) : ReqSrc := .forwarded (Fin.ofNat 4096 m.origin) m.session m.seq

/-- A request of another module joins the queue; a repeat is answered from the store, or by an interim RSP (R331). -/
def State.acceptReq (s : State) (m : ReqMsg) : State :=
  let same (x : RspMsg) : Bool := decide (x.session = m.session) && decide (x.cmd = m.cmd) && decide (x.seq = m.seq)
  match s.mb.rsps.find? fun x => decide (x.1 = m.origin) && same x.2 with
  | some x => s.sendRsp m.origin x.2
  | none =>
    if s.mb.queue.any fun r => decide (r.src = ReqMsg.src m) && decide (r.cmd = m.cmd) then
      s.sendRsp m.origin { session := m.session, cmd := m.cmd, seq := m.seq, interim := true, status := 0, detail := 0, payload := [] }
    else
      let r : Request := { src := ReqMsg.src m, cmd := m.cmd, seq := m.seq, tag := m.session, part := m.part, login := m.login, noirq := false,
                           payload := m.payload, running := false }
      { s with mb := { s.mb with queue := s.mb.queue ++ [r] } }.after r.limit (cmdLimit m.cmd.toNat m.payload)

/-- Sends a request on to where its object has moved, once: FWD set, e unchanged, forwarded as any other frame (R162, R184, R193). -/
def State.forwardOn (s : State) (f : Frame) (m : ReqMsg) (pair : Nat) : State :=
  let g := (({ f with flags := f.flags ||| 0x02, dst := BitVec.ofNat 16 (pairDst pair), lenHops := f.lenHops + 0x200 } : Frame).onVc 0)
  if f.hops = 126 then s.hopLimit .e f else s.sendRouted g (some (.req m))

/-- R162: what becomes of a request that addresses a task or a variable. The epoch is looked at before the object (log 75). -/
def State.addressed (s : State) (f : Frame) (m : ReqMsg) (obj : W32) : State :=
  let d := (s.pl.epoch - f.epoch).toInt
  if d < 0 then
    { s with pl := { s.pl with held := s.pl.held ++ [(f, s.clk + msec, m)] } }.after .held msec
  else if 2 < d then
    let rsp : RspMsg := { session := m.session, cmd := m.cmd, seq := m.seq, interim := false, status := 0x000A, detail := 0, payload := [] }
    (s.staleFrame f).sendRsp m.origin rsp
  else if s.hosts obj then s.acceptReq m
  else match s.pl.fwd.find? fun q => decide (q.1 = obj) || decide (q.1 = s.resolve obj) with
    | some q => if f.fwd then s.staleFrame f else s.forwardOn f m q.2.1
    | none => s.staleFrame f

/-- A request that is delivered here (R162). -/
def State.takeReq (s : State) (f : Frame) (m : ReqMsg) : State :=
  match m.object with
  | some obj => s.addressed f m obj
  | none => s.acceptReq m

/-- A module that has not the epoch of the BEACON asks for its plan (R154): a REQ of session 0 and command 0, answered with the plan of that module and the placer state once that epoch is current here. -/
def State.planAsked (s : State) (m : ReqMsg) : State :=
  if (s.pl.epoch - BitVec.ofNat 32 (field m.payload 0 4)).toInt < 0 then s
  else s.sendRsp m.origin
    { session := 0, cmd := 0, seq := m.seq, interim := false, status := 0, detail := 0, payload := leBytes 4 s.pl.epoch.toNat
      plan := some (s.pl.epoch, (tfind s.pl.dom.mods m.origin).getD emptyPlan, s.pl.dom) }

/-- The plan that was asked for has arrived: it is linked and applied at the first boundary of the slowest class at least 1 ms later, or at once where it changes no class here (R154). -/
def State.planCame (s : State) (src : Nat) (e : W32) (p : ModPlan) (d : Domain) : State :=
  if !(s.pl.asked.any fun x => decide (0 ≤ (e - x).toInt)) then s
  else
    let p := { p with affected := affectedBy s.pl.plan p [] }
    let t := s.now + BitVec.ofNat 64 msec
    let g := match s.slowest ((s.pl.plan.tasks.map (·.cls)).eraseDups) with
      | some k => if p.affected.isEmpty then s.now else (s.cls_ k).nextBoundary t
      | none => if p.affected.isEmpty then s.now else t
    let s := (toLink s.pl.plan p).foldl (fun (s : State) t => s.linkTask t) s
    { s with pl := { s.pl with asked := none, prep := some { epoch := e, leader := src, loss := false, plan := p, dom := d, go := some g } } }

/-- REQ (R162, R190, R330, R331). -/
def execReq (p : Port) (f : Frame) (m : ReqMsg) (s : State) : Host.Outcome State Fault Refusal :=
  .next (
    let r := s.receiveAs p f (some (.req m))
    if !r.deliver || decide (f.ty ≠ 2) then r.s
    else
      let s := r.s.alive f
      if m.session = 0 ∧ m.cmd = 0 then s.planAsked m else s.takeReq f m)

/-- RSP (R331): the final answer goes to the host; an interim one keeps the request open. -/
def execRsp (p : Port) (f : Frame) (m : RspMsg) (s : State) : Host.Outcome State Fault Refusal :=
  .next (
    let r := s.receiveAs p f (some (.rsp m))
    if !r.deliver || decide (f.ty ≠ 3) then r.s
    else
      let s := r.s.alive f
      if m.session = 0 ∧ m.cmd = 0 then (match m.plan with | some (e, p, d) => s.planCame f.srcMod e p d | none => s)
      else match s.mb.fwd.find? fun x => decide (x.1.tag = m.session) && decide (x.1.seq = m.seq) && decide (x.1.cmd = m.cmd) with
      | none => s
      | some (q, _) =>
        if m.interim then s.after (.reqTimeout m.session.toNat m.seq.toNat) sec
        else if q.cmd = 0x0704 ∧ m.status = 0 then s.gatherVars q (pairDst (pairOf f.srcMod)) m.payload
        else s.answerCode q m.status m.detail.toNat m.payload)

/-- The forwarded request of a session and SEQ. -/
def State.forwarded (s : State) (session : W64) (seq : W16) : Option (Request × Nat) :=
  s.mb.fwd.find? fun x => decide (x.1.tag = session) && decide (x.1.seq = seq)

/-- REQ_RETRY (R331): every 10 ms until an RSP arrives. -/
def execReqRetry (session : W64) (seq : W16) (s : State) : Host.Outcome State Fault Refusal :=
  .next (match s.forwarded session seq with
    | some (r, dst) =>
      let t : Timer := .reqRetry session.toNat seq.toNat
      if s.expired t then (s.sendReq dst (s.reqMsg r none)).again t (10 * msec) else s
    | none => s)

/-- REQ_TIMEOUT (R331): 1 s without an RSP: TIMEOUT with DETAIL 1, the effect unknown. -/
def execReqTimeout (session : W64) (seq : W16) (s : State) : Host.Outcome State Fault Refusal :=
  .next (match s.forwarded session seq with
    | some (r, _) => if s.expired (.reqTimeout session.toNat seq.toNat) then s.answer r .timeout 1 [] else s
    | none => s)

/-! ### Breaks, mends and planned changes (R198 to R208) -/

/-- RING_BREAK (R198, R199, R203): the ring-state table follows the first notice. -/
def execRingBreak (p : Port) (f : Frame) (link : LinkName) (s : State) : Host.Outcome State Fault Refusal :=
  .next (
    let r := s.receiveAs p f (some (.notice 0x02 [link] 0))
    if !r.deliver || decide (f.ty ≠ 7) then r.s else (r.s.alive f).breakLink link)

/-- RING_BREAK_REPEAT (R199, R202, R206): a notice goes out again 5 µs and 10 µs after the first. -/
def execRingBreakRepeat (p : Port) (s : State) : Host.Outcome State Fault Refusal :=
  .next ((if p = .pl then [4, 5] else [Port.ix p]).foldl (init := s) fun s key =>
    if !s.expired (.breakRepeat key) then s
    else match tfind s.ring.repeats key with
      | none => s.disarm (.breakRepeat key)
      | some (n, ls, kind) =>
        let t0 := (ls.findSome? fun l => (s.ring.links.find? fun e => decide (e.link = l)).bind (·.planT0)).getD 0
        let s := s.sendNotice kind ls (if kind = 0x04 then t0 else 0)
        if n ≤ 1 then { s with ring := { s.ring with repeats := terase s.ring.repeats key } }.disarm (.breakRepeat key)
        else { s with ring := { s.ring with repeats := tput s.ring.repeats key (n - 1, ls, kind) } }.again (.breakRepeat key) (5 * usec))

/-- RING_MEND (R202, R203): members return to the shortest path. A link ends at the sender or begins at it. -/
def execRingMend (p : Port) (f : Frame) (link : LinkName) (s : State) : Host.Outcome State Fault Refusal :=
  .next (
    let r := s.receiveAs p f (some (.notice 0x03 [link] 0))
    if !r.deliver || decide (f.ty ≠ 7) then r.s
    else (r.s.alive f).mendLink link (if link.row then colOf f.srcMod else rowOf f.srcMod))

/-- RING_PLAN (R206): from t0 on the named links count as DOWN. -/
def execRingPlan (p : Port) (f : Frame) (links : List LinkName) (t0 : W64) (s : State) : Host.Outcome State Fault Refusal :=
  .next (
    let r := s.receiveAs p f (some (.notice 0x04 links t0))
    if !r.deliver || decide (f.ty ≠ 7) then r.s
    else links.foldl (fun (s : State) l => s.setLink l fun e => { e with planT0 := some t0 }) (r.s.alive f))

/-- Frames of this module that still wait at an output are steered again (R206). -/
def State.resteer (s : State) (p : Port) : State :=
  let x := s.port p
  let (mine, rest) := x.txq.partition fun t => decide (t.f.scope ≤ 1) && !t.f.dirset && t.org.isNone && decide (t.f.srcMod = s.module)
  mine.foldl (fun (s : State) t => s.sendRouted { t.f with flags := t.f.flags &&& 0xF7 } t.body) (s.setPort p { x with txq := rest })

/-- RING_PLAN_T0 (R206): nothing more is sent towards a named link. -/
def execRingPlanT0 (s : State) : Host.Outcome State Fault Refusal :=
  .next ([Port.n, .e, .s, .w].foldl (init := s) fun s p => if s.plannedOut p then s.resteer p else s)

/-- A bypass opens: its two ports may train, and RING_MEND is owed for its ring (R204, R207). -/
def State.openBypass (s : State) (row : Bool) : State :=
  { s with pins := if row then { s.pins with bypEW := false } else { s.pins with bypNS := false },
           ring := { s.ring with opened := row :: s.ring.opened.filter fun x => decide (x ≠ row) } }

/-- BYPASS_OPEN (R207): at t0 + 20 µs. -/
def execBypassOpen (row : Bool) (s : State) : Host.Outcome State Fault Refusal :=
  .next (if s.expired (.bypassOpen row) ∧ (s.joined ∨ s.mod.st = .service) then (s.openBypass row).disarm (.bypassOpen row) else s)

/-- The four ring ports are cut off: their links are DOWN, their counters stay (R204, R208). -/
def State.closeBypass (s : State) : State :=
  let s := { s with pins := { s.pins with bypEW := true, bypNS := true }, ring := { s.ring with opened := [] } }
  [Port.n, .e, .s, .w].foldl (init := s) fun s p => s.setPort p { PortSt.reset with cnt := (s.port p).cnt }

end Sys2Proof.Machine
end

