-- ==== Sys2Proof/Machine/TimeUnit.lean ====
section
/-! DEFINITION. The Time Unit and the servo: the shadow registers (R350, R351), steps and their class grids (R363 to R365), the sources and their grades (R354 to R357), ring time and the domain time master (R358 to R361), HOLDOVER (R366, R367), PPS (R356, R368), TIME_ANCHOR (R353) and the registers of R369. -/
namespace Sys2Proof.Machine

abbrev TimeAnswer := Host.Outcome State Fault Refusal

/-! ### Corrected time by its registers (R349 to R351) -/

/-- ±100 ppm in units of 2^-40 (R351). -/
def rateMax : Int := 109951162

/-- T_SH_RATE saturates (R351). -/
def satRate (v : W32) : W32 := BitVec.ofInt 32 (max (-rateMax) (min rateMax v.toInt))

/-- The T_CNT at which T reaches an instant S still to come: the first c with T(c) ≥ S. -/
def Time.cntAt (t : Time) (s : W64) : W64 :=
  let near := (List.range 6).foldl (fun (c : W64) _ => c + (s - t.correct c)) t.cnt
  if since (t.correct near) s < 0 then near + 1
  else if 0 ≤ since (t.correct (near - 1)) s then near - 1
  else near

/-- The shadows for a change at T_APPLY: T continues there, plus a step (R350, R364). -/
def Time.load (t : Time) (apply : W64) (rate : W32) (step : W64) : Time :=
  { t with shOffset := t.correct apply + step - apply, shRate := satRate rate, applyAt := apply, applyArm := true }

/-- The accepted or announced step is set up for the T_CNT at which T reaches S (R364). -/
def Time.loadStep (t : Time) : Time :=
  match t.step with
  | some (s, st) => { t.load (t.cntAt s) t.rate st with stepLoaded := true }
  | none => t

/-- A step of this module's time is accepted for S (R344, R364). -/
def State.setStep (s : State) (at_ step : W64) : State := { s with time := { s.time with step := some (at_, step) }.loadStep }

/-! ### States of the time (R366) -/

def State.setTimeState (s : State) (st : BitVec 2) : State :=
  if s.time.state = st then s
  else
    let old := s.time.state
    { s with time := { s.time with state := st, hold := 0 } }.record 0x0803 0 0 (old.setWidth 32) (st.setWidth 32) 0 0

/-! ### Sources and grades (R355 to R357) -/

/-- A measurement of a source counts for 3 s (R355, R366). -/
def usable (clk : Nat) (at_ : Option Nat) : Bool :=
  match at_ with
  | some t => decide (clk - t < 3 * sec)
  | none => false

def State.ptp (s : State) (p : Nat) : PtpPort := tget PtpPort.reset s.time.ptp p
def State.setPtp (s : State) (p : Nat) (x : PtpPort) : State := { s with time := { s.time with ptp := tput s.time.ptp p x } }

/-- Own sources in use: (grade, SRC) (R357). -/
def State.ownSources (s : State) : List (Nat × Nat) :=
  let ptp := match s.time.ptpPort with
    | some p =>
      let x := s.ptp p
      match x.master with
      | some (_, d) =>
        if !usable s.clk x.lastSync then []
        else if d.clockClass = 6 then [(1, p + 1)]
        else if 7 ≤ d.clockClass ∧ d.clockClass ≤ 187 then [(3, p + 1)]
        else []
      | none => []
    | none => []
  if s.time.ppsinEn && usable s.clk s.time.ppsAt then ptp ++ [(2, 3)] else ptp

/-- The best own source: lowest grade, then the order of TIME_SET. -/
def State.ownSource (s : State) : Option (Nat × Nat) :=
  let rank (x : Nat × Nat) : Nat := x.1 * 256 + (s.time.srcPrio.takeWhile fun y => decide (y ≠ x.2)).length
  s.ownSources.foldl (fun m x => match m with | some y => if rank x < rank y then some x else some y | none => some x) none

/-- The source that the servo follows: the ring where another module is the domain time master, else its own best (R361). -/
def State.timeSource (s : State) : Nat :=
  let own := (s.ownSource.map (·.2)).getD 0
  match s.time.masterMod with
  | some m => if m = s.module then own else 4
  | none => own

/-- The grade of R357. -/
def State.gradeNow (s : State) : Nat :=
  match s.ownSource with
  | some (g, _) => g
  | none =>
    let follows := (decide (s.time.src = 4) && decide (s.time.state = 0)) || decide (s.time.state = 1)
    if follows && decide (s.timeErr ≤ 1000) then 4 else 5

def State.regrade (s : State) : State :=
  { s with time := { s.time with grade := BitVec.ofNat 4 s.gradeNow, master := decide (s.time.masterMod = some s.module) } }

/-! ### The servo (R350, R362, R363, R366) -/

/-- The rate and the instant that the servo chooses are free values, within R351 and within 2^20 clocks (log 10). -/
def State.slew (s : State) : State :=
  if s.time.stepLoaded then s
  else
    let (r, s) := s.draw
    let (d, s) := s.draw
    { s with time := s.time.load (s.time.cnt + 1 + (d.setWidth 20).setWidth 64) (r.setWidth 32) 0 }

/-- The estimated error after a measurement is a free value (log 10). -/
def State.estimate (s : State) : State :=
  let (e, s) := s.draw
  { s with time := { s.time with errEst := e.setWidth 32 } }

/-- The offset is what an announced step explains (R363). -/
def Time.explained (t : Time) (o : Int) : Bool :=
  match t.step with
  | some (_, st) => decide ((o - st.toInt).natAbs < t.stepThr.toNat)
  | none => false

/-- One offset measurement, source minus own time (R362, R363, R366): the first sets the time, a small one is slewed, a large one that no announcement explains is refused. -/
def State.measure (s : State) (src : Nat) (o : Int) : State :=
  let s := { s with time := { s.time with lastMeas := s.clk, src := BitVec.ofNat 4 src } }
  let s :=
    if !s.time.everSet then
      let t := { s.time.load s.time.cnt s.time.rate (BitVec.ofInt 64 o) with everSet := true }
      ({ s with time := t }.estimate).setTimeState 0
    else if o.natAbs < s.time.stepThr.toNat then
      let s := { s with time := { s.time with stepRefused := false, refused := 0 } }
      (s.slew.estimate).setTimeState 0
    else if s.time.explained o then s
    else
      let x := BitVec.ofInt 64 o
      let was := s.time.stepRefused
      let s := { s with time := { s.time with stepRefused := true, refused := x } }.slew
      if was then s else s.record 0x0801 0 0 (lo32 x) (hi32 x) 0 0
  s.regrade

/-! ### Shadows and steps at work (R350, R364, R365, R368) -/

/-- Nanoseconds of a whole second. -/
def secondOf (t : W64) : Nat := t.toNat / sec

/-- PPS_OUT goes high for 200 µs of T_CNT for a second (R368). -/
def State.pulse (s : State) (n : Nat) : State :=
  { s with pins := { s.pins with ppsOut := true }, time := { s.time with ppsSec := some n } }.after .ppsEnd (200 * usec)

/-- Every class in a cycle runs to its boundary under the old time; the next cycle follows the new time (R365). -/
def State.newGrid (s : State) (step : W64) : State :=
  let g := s.cls.filterMap fun (x : Nat × Cls) => x.2.bnd.map fun b => (x.1, b + BitVec.ofNat 64 (x.2.period * usec) + step)
  { s with time := { s.time with grid := g } }

/-- The step has been made at S (R363 to R366, R368). -/
def State.stepDone (s : State) (at_ step : W64) : State :=
  let last := s.time.ppsSec
  let n := secondOf at_
  let owed := s.time.ppsoutEn && (match last with | some m => decide (m < n) | none => true)
  let s := if owed then s.pulse n else s
  let top := max ((s.time.ppsSec).getD n) (max n (secondOf (at_ + step)))
  let s := { s with time := { s.time with step := none, stepLoaded := false, stepRefused := false, refused := 0, ppsSec := some top } }
  let s := s.newGrid step
  let s := s.record 0x0802 0 0 (lo32 step) (hi32 step) (lo32 at_) (hi32 at_)
  (s.setTimeState 0).regrade

/-- TIME_SHADOW_APPLY (R350, R364 to R366): in the first clock in which T_CNT ≥ T_APPLY all three registers are loaded. -/
def execTimeShadowApply (s : State) : TimeAnswer :=
  .next (
    let t := s.time
    if !t.applyArm || decide (t.cnt.toNat < t.applyAt.toNat) then s
    else
      let s := { s with time := { t with offset := t.shOffset, rate := t.shRate, anchor := t.applyAt, applyArm := false } }
      match t.step with
      | some (at_, st) => if t.stepLoaded then s.stepDone at_ st else { s with time := s.time.loadStep }
      | none => s)

/-- The firmware is up: the module has left BOOT other than to RECOVERY. -/
def State.firmware (s : State) : Bool := s.joined || decide (s.mod.st = .service)

/-- TIME_ANCHOR (R353): every 2 s of corrected time. -/
def execTimeAnchor (s : State) : TimeAnswer :=
  .next (
    let due := match s.time.anchored with
      | some t => decide (2 * sec ≤ (since s.now t).natAbs)
      | none => true
    if !s.firmware || !due then s
    else
      let t := s.now
      ({ s with time := { s.time with anchored := some t } }).record 0x0001 0 0 (lo32 t) (hi32 t) 0 0)

/-! ### PTP on the station ports (R354, R355) -/

/-- The dataset comparison of IEEE 1588-2019 (R355): a is better than b. -/
def PtpData.key (d : Sys2Proof.PtpData) : List Nat := [d.priority1, d.clockClass, d.accuracy, d.variance, d.priority2, d.identity]

def lexLess : List Nat → List Nat → Bool
  | a :: r, b :: q => if a < b then true else if b < a then false else lexLess r q
  | _, _ => false

def ptpBetter (a b : Sys2Proof.PtpData) : Bool :=
  if a.identity = b.identity then decide (a.steps < b.steps) else lexLess (PtpData.key a) (PtpData.key b)

/-- The link of a station port is up. -/
def State.ethUp (s : State) (p : Nat) : Bool := if p = 0 then s.stn.link1 else s.stn.link2

/-- A PTP message that this port takes: firmware up, link up, its domain number (R354). -/
def State.ptpTakes (s : State) (p : Nat) (m : PtpMsg) : Bool := s.firmware && s.ethUp p && decide (m.domain = s.time.ptpDomain)

/-- A master that has sent no Announce for three intervals is no longer one (the profile's announce receipt timeout; log 10). -/
def PtpPort.current (x : PtpPort) (clk : Nat) : Option (Nat × Sys2Proof.PtpData) :=
  if clk - x.annAt < 3 * sec then x.master else none

/-- PTP_ANNOUNCE (R355): the port's own best-master comparison, then the comparison of the two ports. -/
def execPtpAnnounce (port : Fin 2) (m : PtpMsg) (d : PtpData) (s : State) : TimeAnswer :=
  .next (
    let p := port.val
    if !s.ptpTakes p m then s
    else
      let x := s.ptp p
      let take := match x.current s.clk with
        | some (id, old) => decide (id = m.identity) || ptpBetter d old
        | none => true
      let s := if take then s.setPtp p { x with master := some (m.identity, d), annAt := s.clk } else s
      let own (q : Nat) : Option PtpData := ((s.ptp q).current s.clk).map (·.2)
      match s.time.ptpPort with
      | none =>
        let first := match own 0, own 1 with
          | some a, some b => if ptpBetter b a then 1 else 0
          | some _, none => 0
          | _, _ => p
        ({ s with time := { s.time with ptpPort := some first, ptpBetter := 0 } }).regrade
      | some q =>
        if p = q then s.regrade
        else
          let better := match own p, own q with
            | some a, some b => ptpBetter a b || (decide (p = 0) && !ptpBetter b a)
            | some _, none => true
            | none, _ => false
          ({ s with time := { s.time with ptpBetter := if better then s.time.ptpBetter + 1 else 0 } }).regrade)

/-- PTP_PORT_SWITCH (R355): the alternative has been better for 3 Announce intervals, or the selected port has had no Sync for 3 s. -/
def execPtpPortSwitch (s : State) : TimeAnswer :=
  .next (match s.time.ptpPort with
    | none => s
    | some q =>
      let lost := !usable s.clk (s.ptp q).lastSync && ((s.ptp (1 - q)).current s.clk).isSome
      if s.time.ptpBetter < 3 ∧ !lost then s
      else ({ s with time := { s.time with ptpPort := some (1 - q), ptpBetter := 0 } }).regrade)

/-- PTP_SYNC (R354, R355, R362): the offset of the selected port's master. -/
def execPtpSync (port : Fin 2) (m : PtpMsg) (s : State) : TimeAnswer :=
  .next (
    let p := port.val
    let x := s.ptp p
    if !s.ptpTakes p m || (x.master.map (·.1)) ≠ some m.identity then s
    else
      let s := s.setPtp p { x with lastSync := some s.clk }
      let s := if s.time.ptpPort.isNone then { s with time := { s.time with ptpPort := some p } } else s
      if s.time.ptpPort = some p ∧ s.timeSource = p + 1 then
        s.measure (p + 1) (since (m.ts + BitVec.ofNat 64 x.delay) m.rx)
      else s)

/-- PTP_PDELAY_REQ (R354): answered at once. -/
def execPtpPdelayReq (port : Fin 2) (m : PtpMsg) (s : State) : TimeAnswer :=
  .next (if s.ptpTakes port.val m then s.send (.ptpPdelayResp port.val m.rx s.now) else s)

/-- PTP_PDELAY_REQ_SEND (R354): once a second. -/
def execPtpPdelayReqSend (port : Fin 2) (s : State) : TimeAnswer :=
  .next (
    let p := port.val
    if !s.firmware || !s.ethUp p || !s.due (.ptpPdelay p) then s
    else ((s.setPtp p { s.ptp p with reqAt := some s.now }).send (.ptpPdelayReq p)).again (.ptpPdelay p) sec)

/-- PTP_PDELAY_RESP (R354): the link delay of the port. -/
def execPtpPdelayResp (port : Fin 2) (m : PtpMsg) (turnaround : Nat) (s : State) : TimeAnswer :=
  .next (
    let p := port.val
    let x := s.ptp p
    if !s.ptpTakes p m then s
    else match x.reqAt with
      | some t1 => s.setPtp p { x with delay := ((since m.rx t1).toNat - turnaround) / 2, reqAt := none }
      | none => s)

/-! ### PPS_IN and PPS_OUT (R356, R368) -/

/-- PPS_IN_EDGE (R356, R362): captured, and where time of day is known to 0.25 s assigned to the nearest whole second. -/
def execPpsInEdge (s : State) : TimeAnswer :=
  .next (if !s.firmware || !s.time.ppsinEn then s
    else
      let t := s.now
      let s := { s with time := { s.time with ppsin := t } }
      if !s.time.everSet || decide (s.time.state = 2) || decide (250000000 < s.timeErr) then s
      else
        let s := { s with time := { s.time with ppsAt := some s.clk } }
        let near := BitVec.ofNat 64 ((t.toNat + 500000000) / sec * sec)
        if s.timeSource = 3 then s.measure 3 (since near t) else s.regrade)

/-- PPS_OUT_PULSE (R368): T crosses a whole second that has not been signalled. -/
def execPpsOutPulse (s : State) : TimeAnswer :=
  .next (
    let t := s.now
    let n := secondOf t
    let new := match s.time.ppsSec with
      | some m => decide (m < n)
      | none => true
    if s.powered && s.time.ppsoutEn && new && decide (t.toNat % sec ≤ 1) then s.pulse n else s)

/-- PPS_OUT_PULSE_END (R368). -/
def execPpsOutPulseEnd (s : State) : TimeAnswer :=
  .next (if s.expired .ppsEnd then { s.disarm .ppsEnd with pins := { s.pins with ppsOut := false } } else s)

/-! ### Ring time (R358 to R361) -/

/-- A TIME payload (R358). -/
def State.timePayload (s : State) (kind seq : Nat) (ts corr : W64) : List Byte :=
  let sync := decide (kind = 1)
  let (at_, st) := if sync then (s.time.step).getD (0, 0) else (0, 0)
  [BitVec.ofNat 8 kind, s.time.grade.setWidth 8] ++ leBytes 2 ((s.time.masterMod).getD s.module) ++ leBytes 2 seq ++ [0, 0]
    ++ leBytes 8 ts.toNat ++ leBytes 8 corr.toNat ++ leBytes 4 (sat32 s.timeErr).toNat ++ leBytes 4 0 ++ leBytes 8 at_.toNat ++ leBytes 8 st.toNat

/-- A TIME frame for the neighbour on a port (R359). -/
def State.sendNear (s : State) (p : Port) (payload : List Byte) : State :=
  match (s.port p).far with
  | some m => s.transmit p (s.mkFrame 4 0 m 0 s.now32 payload) none
  | none => s

/-- A frame between neighbours: counted and checked as any other, never forwarded (R183, R186, R359). -/
def State.receiveNear (s : State) (p : Port) (f : Frame) : Recv :=
  if !s.onRing p then ⟨false, s⟩
  else if !f.formed then ⟨false, s.portCnt p fun c => { c with malformed := c.malformed + 1 }⟩
  else if f.stomped then ⟨false, s.portCnt p fun c => { c with stomped := c.stomped + 1 }⟩
  else if !f.crcOk then ⟨false, s.crcError p⟩
  else ⟨true, (s.portCnt p fun c => { c with rxd := c.rxd + 1 }).count (ctrEv 0x31 1 (Port.ix p))⟩

def State.link (s : State) (p : Port) : LinkDelay := tget LinkDelay.reset s.time.links (Port.ix p)
def State.setLinkDelay (s : State) (p : Port) (x : LinkDelay) : State :=
  { s with time := { s.time with links := tput s.time.links (Port.ix p) x } }

/-- PDELAY_REQ_SEND (R359): once a second on every UP ring port. -/
def execPdelayReqSend (p : Port) (s : State) : TimeAnswer :=
  .next (if !s.firmware || decide (p = .pl) || !s.portUp p || !s.due (.pdelaySend (Port.ix p)) then s
    else
      let s := s.again (.pdelaySend (Port.ix p)) sec
      let s := s.setLinkDelay p { s.link p with reqAt := some s.now }
      let s := s.sendNear p (s.timePayload 2 s.time.pdSeq.toNat 0 0)
      { s with time := { s.time with pdSeq := s.time.pdSeq + 1 } })

/-- PDELAY_REQ (R359): answered at once on the same link. -/
def execPdelayReq (p : Port) (f : Frame) (s : State) : TimeAnswer :=
  .next (
    let r := s.receiveNear p f
    if !r.deliver || decide (f.ty ≠ 4) || decide (field f.payload 0 1 ≠ 2) then r.s
    else (r.s.alive f).sendNear p (r.s.timePayload 3 (field f.payload 4 2) r.s.now r.s.now))

/-- PDELAY_RESP (R359): the link delay, averaged over the last 8 exchanges. -/
def execPdelayResp (p : Port) (f : Frame) (s : State) : TimeAnswer :=
  .next (
    let r := s.receiveNear p f
    if !r.deliver || decide (f.ty ≠ 4) || decide (field f.payload 0 1 ≠ 3) then r.s
    else
      let s := r.s.alive f
      let x := s.link p
      match x.reqAt with
      | none => s
      | some t1 =>
        let t2 := BitVec.ofNat 64 (field f.payload 8 8)
        let t3 := BitVec.ofNat 64 (field f.payload 16 8)
        let one := ((since s.now t1 - since t3 t2) / 2).toNat
        let xs := (one :: x.samples).take 8
        s.setLinkDelay p { delay := xs.foldl (· + ·) 0 / xs.length, samples := xs, reqAt := none })

/-- SYNC_SEND (R360, R364): the domain time master, every 10 ms. -/
def execSyncSend (s : State) : TimeAnswer :=
  .next (if !s.firmware || decide (s.time.masterMod ≠ some s.module) || !s.due .syncSend then s
    else
      let s := (s.again .syncSend (10 * msec)).broadcast 4 (s.timePayload 1 s.time.syncSeq.toNat s.now 0)
      { s with time := { s.time with syncSeq := s.time.syncSeq + 1 } })

/-- A SYNC as it is sent on: CORR carries the delay of the arrival link and the residence time, which is a free value (R360; log 10). -/
def syncOn (f : Frame) (delay : Nat) (residence : W64) : Frame :=
  let corr := BitVec.ofNat 64 (field f.payload 16 8) + BitVec.ofNat 64 (delay * 2 ^ 16) + residence
  let g := { f with payload := f.payload.take 16 ++ leBytes 8 corr.toNat ++ f.payload.drop 24 }
  { g with crc := if f.crcOk then g.goodCrc else ~~~g.goodCrc }

/-- SYNC (R360 to R363): the master's time at arrival is TS + CORR + the delay of the arrival link. -/
def execSync (p : Port) (f : Frame) (s : State) : TimeAnswer :=
  .next (
    let t := s.now
    let d := (s.link p).delay
    let (res, s) := s.draw
    let r := s.receive p (if f.formed ∧ f.crcOk then syncOn f d res else f)
    if !r.deliver || decide (f.ty ≠ 4) || decide (field f.payload 0 1 ≠ 1) || !s.firmware then r.s
    else
      let s := r.s.alive f
      let s := if s.time.masterMod.isNone then { s with time := { s.time with masterMod := some f.srcMod } } else s
      if s.time.masterMod ≠ some f.srcMod ∨ f.srcMod = s.module then s
      else
        let s := { s with time := { s.time with masterGrade := field f.payload 1 1} }.after .masterSync (50 * msec)
        let at_ := BitVec.ofNat 64 (field f.payload 32 8)
        let st := BitVec.ofNat 64 (field f.payload 40 8)
        let s := if at_ ≠ 0 ∧ s.time.step.isNone ∧ s.time.everSet ∧ !reached at_ t then s.setStep at_ st else s
        let corr := (BitVec.ofNat 64 (field f.payload 16 8)).toInt / 65536
        let src := BitVec.ofNat 64 (field f.payload 8 8) + BitVec.ofInt 64 corr + BitVec.ofNat 64 d
        if s.timeSource = 4 then s.measure 4 (since src t) else s)

/-- (grade, error, module) is better (R361). -/
def betterMaster (a b : Nat × Nat × Nat) : Bool := lexLess [a.1, a.2.1, a.2.2] [b.1, b.2.1, b.2.2]

/-- From a master that is another module a SYNC is due within 50 ms (R361). -/
def State.awaitSync (s : State) : State := if s.time.masterMod = some s.module then s.disarm .masterSync else s.after .masterSync (50 * msec)

/-- A module announces its grade: three lower ones in succession make it the master; without a master the better of it and this module is (R361). -/
def State.candidate (s : State) (m grade err : Nat) : State :=
  let n := (tfind s.time.heard m).elim 0 (·.2.2.2)
  match s.time.masterMod with
  | none =>
    let own := (s.time.grade.toNat, s.timeErr, s.module)
    let who := if betterMaster (grade, err, m) own then (grade, err, m) else own
    ({ s with time := { s.time with masterMod := some who.2.2, masterGrade := who.1,
                                    heard := tput s.time.heard m (grade, err, s.clk, 0) } }).awaitSync
  | some x =>
    if x = m then { s with time := { s.time with masterGrade := grade, heard := tput s.time.heard m (grade, err, s.clk, 0) } }
    else
      let k := if grade < s.time.masterGrade then n + 1 else 0
      if k < 3 then { s with time := { s.time with heard := tput s.time.heard m (grade, err, s.clk, k) } }
      else
        let all := tput s.time.heard m (grade, err, s.clk, k)
        ({ s with time := { s.time with masterMod := some m, masterGrade := grade,
                                        heard := all.map fun (q : Nat × Nat × Nat × Nat × Nat) => (q.1, (q.2.1, q.2.2.1, q.2.2.2.1, 0)) } }).awaitSync

/-- ANNOUNCE_SEND (R361): every 1 s; the module's own grade competes as any other's. -/
def execAnnounceSend (s : State) : TimeAnswer :=
  .next (if !s.firmware || !s.due .announceSend then s
    else
      let s := (s.again .announceSend sec).regrade
      let s := (s.candidate s.module s.time.grade.toNat s.timeErr).regrade
      let s := s.broadcast 4 (s.timePayload 4 s.time.annSeq.toNat 0 0)
      { s with time := { s.time with annSeq := s.time.annSeq + 1 } })

/-- ANNOUNCE (R361). -/
def execAnnounce (p : Port) (f : Frame) (s : State) : TimeAnswer :=
  .next (
    let r := s.receive p f
    if !r.deliver || decide (f.ty ≠ 4) || decide (field f.payload 0 1 ≠ 4) || !s.firmware then r.s
    else ((r.s.alive f).candidate f.srcMod (field f.payload 1 1) (field f.payload 24 4)).regrade)

/-- MASTER_SYNC_TIMEOUT (R361): 50 ms without SYNC; the best module heard in the last 3 s, or this one, takes the role. -/
def execMasterSyncTimeout (s : State) : TimeAnswer :=
  .next (match s.time.masterMod with
    | none => s
    | some m =>
      if m = s.module ∨ !s.expired .masterSync then s
      else
        let heard := terase s.time.heard m
        let cands := (heard.filter fun q => decide (s.clk - q.2.2.2.1 < 3 * sec)).map fun q => (q.2.1, q.2.2.1, q.1)
        let own := (s.gradeNow, s.timeErr, s.module)
        let best := cands.foldl (fun b c => if betterMaster c b then c else b) own
        ({ s with time := { s.time with masterMod := some best.2.2, masterGrade := best.1, heard := heard } }).awaitSync.regrade)

/-! ### HOLDOVER (R366, R367) -/

/-- HOLDOVER_ENTRY (R366): no usable measurement for 3 s. -/
def execHoldoverEntry (s : State) : TimeAnswer :=
  .next (if s.time.state ≠ 0 ∨ s.clk - s.time.lastMeas < 3 * sec then s
    else
      let e := s.timeErr
      let s := s.setTimeState 1
      ({ s with time := { s.time with src := 0, holdE0 := e, holdTemp := s.pwr.tdie, holdAt := s.clk } }).regrade)

/-- HOLDOVER_EXPIRY (R366): 1,000 s, or an estimated error above 1 µs. -/
def execHoldoverExpiry (s : State) : TimeAnswer :=
  .next (if s.time.state ≠ 1 ∨ (s.clk - s.time.holdAt < 1000 * sec ∧ s.timeErr ≤ 1000) then s
    else
      let e := sat32 s.timeErr
      (({ s with time := { s.time with errEst := e } }).setTimeState 2).regrade)

/-! ### The registers (R351, R369) -/

/-- T_HOLD: seconds in HOLDOVER, 0 in any other state. -/
def State.holdSec (s : State) : Nat := if s.time.state = 1 then s.time.hold.toNat + (s.clk - s.time.holdAt) / sec else 0

/-- A Time Unit register; `none` at an offset without one (R369). -/
def State.timeReg (s : State) (off : Nat) : Option W32 :=
  let t := s.time
  match off with
  | 0x000 => some (BitVec.ofNat 32 (bit t.ppsoutEn * 4 + bit t.ppsinEn * 2 + bit t.applyArm))
  | 0x004 => some (BitVec.ofNat 32 (t.grade.toNat * 2 ^ 8 + t.src.toNat * 2 ^ 4 + bit t.master * 8 + bit t.stepRefused * 4 + t.state.toNat))
  | 0x008 => some (lo32 t.cnt)
  | 0x00C => some (hi32 t.cnt)
  | 0x010 => some (lo32 s.now)
  | 0x014 => some (hi32 s.now)
  | 0x018 => some (lo32 t.offset)
  | 0x01C => some (hi32 t.offset)
  | 0x020 => some t.rate
  | 0x024 => some (lo32 t.anchor)
  | 0x028 => some (hi32 t.anchor)
  | 0x02C => some (lo32 t.shOffset)
  | 0x030 => some (hi32 t.shOffset)
  | 0x034 => some t.shRate
  | 0x038 => some (lo32 t.applyAt)
  | 0x03C => some (hi32 t.applyAt)
  | 0x040 => some t.stepThr
  | 0x044 => some (lo32 t.refused)
  | 0x048 => some (hi32 t.refused)
  | 0x04C => some (sat32 s.timeErr)
  | 0x050 => some (lo32 t.ppsin)
  | 0x054 => some (hi32 t.ppsin)
  | 0x058 => some (sat32 s.holdSec)
  | _ => none

/-- T_STEP_THR is clamped into 100 to 10,000,000 ns (R362, R369). -/
def clampThr (n : Nat) : W32 := BitVec.ofNat 32 (max 100 (min 10000000 n))

def withLo (x : W64) (v : W32) : W64 := mk64 v (hi32 x)
def withHi (x : W64) (v : W32) : W64 := mk64 (lo32 x) v

/-- A write by a service core; a field keeps its value where the encoding is reserved (R5, R351, R357, R369). -/
def State.writeTime (s : State) (off : Nat) (v : W32) : State :=
  let t := s.time
  let put (t : Time) : State := { s with time := t }
  match off with
  | 0x000 => put { t with ppsoutEn := v.getLsbD 2, ppsinEn := v.getLsbD 1, applyArm := v.getLsbD 0 }
  | 0x004 =>
    let g := bitsAt v.toNat 8 4
    put { t with grade := if 1 ≤ g ∧ g ≤ 5 then BitVec.ofNat 4 g else t.grade,
                 src := if bitsAt v.toNat 4 4 ≤ 4 then (v >>> 4).setWidth 4 else t.src, master := v.getLsbD 3, stepRefused := v.getLsbD 2,
                 state := if bitsAt v.toNat 0 2 ≠ 3 then v.setWidth 2 else t.state }
  | 0x02C => put { t with shOffset := withLo t.shOffset v }
  | 0x030 => put { t with shOffset := withHi t.shOffset v }
  | 0x034 => put { t with shRate := satRate v }
  | 0x038 => put { t with applyAt := withLo t.applyAt v }
  | 0x03C => put { t with applyAt := withHi t.applyAt v }
  | 0x040 => put { t with stepThr := clampThr v.toNat }
  | 0x044 => put { t with refused := withLo t.refused v }
  | 0x048 => put { t with refused := withHi t.refused v }
  | 0x04C => put { t with errEst := v, holdE0 := (v.toNat : Int) - (s.holdGrowth : Int) }
  | 0x058 => put { t with hold := v, holdAt := s.clk }
  | _ => s

end Sys2Proof.Machine
end

