-- ==== Sys2Proof/Machine/HostPort.lean ====
section
/-! DEFINITION. The Host Port: its quad-SPI transactions (R307 to R311), the window and its registers (R313, R314, R429, R442), the latches of 64-bit pairs (R312) and the interrupt registers (R315 to R317). -/
namespace Sys2Proof.Machine

/-! ### Registers of the window (R313, R314) -/

/-- H_STAT (R314). -/
def State.hStat (s : State) : W32 :=
  BitVec.ofNat 32 (s.mod.st.code * 2 ^ 28 + bit (!s.liveForces.isEmpty) * 2 ^ 27 + bit s.preferred * 2 ^ 26 + bit s.mod.solo * 2 ^ 25
    + bit s.trip.holds * 2 ^ 24 + s.time.state.toNat * 2 ^ 22 + s.module)

/-- H_IRQ_STAT (R314). -/
def HostIf.irqStat (h : HostIf) : W32 := BitVec.ofNat 32 (bit h.stState * 8 + bit h.stBoot * 4 + bit (decide (h.err ≠ 0)) * 2 + bit h.stMbox)

/-- H_DB[n] (R318). -/
def State.doorbell (s : State) (n : Nat) : W32 :=
  let d := s.bell n
  BitVec.ofNat 32 (d.seq.toNat * 2 ^ 16 + (tget [] s.mb.notices n).length * 2 ^ 8 + d.buf.toNat * 2 + bit d.out)

/-- H_DONEk (R314). -/
def State.done (s : State) (k : Nat) : W32 :=
  (List.range 32).foldl (init := 0) fun w j => if (s.bell (32 * k + j)).buf ≠ 0 then w ||| BitVec.twoPow 32 j else w

/-- Word at an offset of a response buffer; zeros while BUF is 0 (R319). -/
def State.rspWord (s : State) (n off : Nat) : W32 := BitVec.ofNat 32 (field (tget [] s.host.rsp n) off 4)

/-- Word at an offset of a request buffer. -/
def State.reqWord (s : State) (n off : Nat) : W32 := BitVec.ofNat 32 (leNat ((List.range 4).map fun i => tget 0 s.host.req (n * 4096 + off + i)))

/-- The identity and host control registers (R314). -/
def State.hostCtl (s : State) (a : Nat) : Option W32 :=
  match a with
  | 0x000 => some Config.hid
  | 0x004 => some (BitVec.ofNat 32 (Config.issue.toNat * 2 ^ 24 + s.fw.toNat / 256))
  | 0x008 => some (lo32 Config.serial)
  | 0x00C => some (hi32 Config.serial)
  | 0x100 => some (BitVec.ofNat 32 (bit s.host.doze * 2 + bit s.host.irqEn))
  | 0x104 => some s.hStat
  | 0x108 => some (s.host.err.setWidth 32)
  | 0x10C => some s.host.irqStat
  | 0x110 => some (s.host.mask.setWidth 32)
  | 0x114 => some (s.host.modTime.setWidth 32)
  | _ => if 0x140 ≤ a ∧ a < 0x180 then some (s.done ((a - 0x140) / 4)) else none

/-- What RECOVERY leaves of the window (R284). -/
def inRecovery (a : Nat) : Bool :=
  decide (a < 0x180) || decide (a / 4 = 0x400) || (decide (0x100000 ≤ a) && decide (a < 0x102000))

/-- The live value of the word at a 4-aligned address of the window; `none` where it is unmapped (R309, R313). -/
def State.windowWord (s : State) (a : Nat) : Option W32 :=
  if a < 0x1000 then s.hostCtl a
  else if a < 0x1800 then some (s.doorbell ((a - 0x1000) / 4))
  else if 0x100000 ≤ a ∧ a < 0x500000 then
    let n := (a - 0x100000) / 0x2000
    let off := (a - 0x100000) % 0x2000
    some (if off < 0x1000 then s.reqWord n off else s.rspWord n (off - 0x1000))
  else if 0x600000 ≤ a ∧ a < 0x700000 then (s.view ((a - 0x600000) / 0x800)).reg ((a - 0x600000) % 0x800)
  else if 0x700000 ≤ a ∧ a < 0x740000 then s.ctr.blockReg ((a - 0x700000) / 0x200) ((a - 0x700000) % 0x200)
  else if 0x740000 ≤ a ∧ a < 0x780000 then s.ctr.reg (a - 0x740000)
  else if 0x780000 ≤ a ∧ a < 0x800000 then s.timeReg (a - 0x780000)
  else none

/-- The word the host sees: in RECOVERY most areas of the host window read 0 (R284). -/
def State.hostWord (s : State) (a : Nat) : Option W32 := (s.windowWord a).map fun v => if s.mod.st = .recovery ∧ !inRecovery a then 0 else v

/-- The word a requester sees: only the host window is limited in RECOVERY (R284). -/
def State.wordFor (s : State) (a : Nat) (q : Requester) : Option W32 :=
  match q with
  | .host | .tls => s.hostWord a
  | .lane | .service => s.windowWord a

/-! ### 64-bit pairs (R312) -/

/-- LO offsets of the Time Unit (R369). -/
def timeLos : List Nat := [0x008, 0x010, 0x018, 0x024, 0x02C, 0x038, 0x044, 0x050]

/-- The word at a window address is the LO word of a 64-bit quantity (R312, R369, R439, R441). -/
def hostLo (a : Nat) : Bool :=
  decide (a = 0x8) || (decide (0x780000 ≤ a) && decide (a - 0x780000 ∈ timeLos)) || decide (a ∈ [0x740008, 0x740010])
    || (decide (0x740500 ≤ a) && decide (a < 0x740600) && decide (a % 8 = 0))
    || (decide (0x700000 ≤ a) && decide (a < 0x740000) && decide (a % 0x200 < 0x100) && decide (a % 8 = 0))

def requesterNum : Requester → Nat
  | .lane => 0 | .service => 1 | .host => 2 | .tls => 3

/-- A read of a LO word latches the matching HI word for its requester (R312). -/
def State.latchHi (s : State) (a : Nat) (q : Requester) : State :=
  if hostLo a then { s with host := { s.host with shadow := tput s.host.shadow (4 * a + requesterNum q) ((s.wordFor (a + 4) q).getD 0) } } else s

/-- HOST_LO_READ (R312, R369). -/
def execHostLoRead (addr : BitVec 24) (q : Requester) (s : State) : Host.Outcome State Fault Refusal :=
  .next (if s.powered then s.latchHi addr.toNat q else s)

/-- The word a requester reads, and the state after the latch has been set or used (R312). -/
def State.readWord (s : State) (a : Nat) (q : Requester) : Option W32 × State :=
  match s.wordFor a q with
  | none => (none, s)
  | some v =>
    if 4 ≤ a ∧ hostLo (a - 4) then
      let key := 4 * (a - 4) + requesterNum q
      match tfind s.host.shadow key with
      | some x => (some x, { s with host := { s.host with shadow := terase s.host.shadow key } })
      | none => (some v, s)
    else (some v, s.latchHi a q)

/-! ### Transactions (R307 to R311) -/

/-- Bytes of a 4 KiB block from an address on (R308). -/
def blockRoom (a : Nat) : Nat := 4096 - a % 4096

/-- n whole words from an address on; an unmapped one reads 0 and sets UNMAP (R309). -/
def readWords : Nat → Nat → State → List Byte × State
  | 0, _, s => ([], s)
  | n + 1, a, s =>
    let (v, s) := s.readWord a .host
    let s := if v.isNone then s.hostErr 3 else s
    let (bs, s) := readWords n (a + 4) s
    (leBytes 4 (v.getD 0).toNat ++ bs, s)

/-- A transaction is taken: the module has power; with HRDY low it is ignored and sets BUSY (R310, R329). -/
def State.transaction (s : State) (k : State → State) : State :=
  let s := { s with pins := { s.pins with hio := [] } }
  if !s.powered then s else if !s.pins.hrdy then s.hostErr 1 else k (s.count (ctrEv 0x40 1 0))

/-- READ and QREAD: what the module drives on HIO (R307, R308, R309, R311, R312). -/
def State.hostRead (s : State) (a len : Nat) : State :=
  let room := blockRoom a
  let s := if room < len then s.hostErr 4 else s
  if a % 4 ≠ 0 then
    let s := s.hostErr 0
    { s with pins := { s.pins with hio := List.replicate len 0 } }
  else
    let n := min len room
    let (bs, t) := readWords (n / 4) a s
    let (tail, t) :=
      if n % 4 = 0 then ([], t)
      else
        let v := (t.readWord (a + n / 4 * 4) .host).1
        let t := if v.isNone then t.hostErr 3 else t
        ((leBytes 4 (v.getD 0).toNat).take (n % 4), t.hostErr 0)
    { t with pins := { t.pins with hio := bs ++ tail ++ List.replicate (len - n) 0 } }

/-- READ (R307 to R312). -/
def execRead (addr : BitVec 24) (len : Nat) (s : State) : Host.Outcome State Fault Refusal :=
  .next (s.transaction fun s => s.hostRead addr.toNat len)

/-- QREAD (R307 to R312). -/
def execQread (addr : BitVec 24) (len : Nat) (s : State) : Host.Outcome State Fault Refusal :=
  .next (s.transaction fun s => s.hostRead addr.toNat len)

/-- H_CTL: DOZE and IRQ_EN (R314, R317). -/
def State.writeHCtl (s : State) (v : W32) : State :=
  ({ s with host := { s.host with doze := v.getLsbD 1, irqEn := v.getLsbD 0 } }).irqEval

/-- A 1 written to MBOX clears it and DOZE, and ends the moderation of what had not been signalled (R316, R317). -/
def State.clearMbox (s : State) : State :=
  { s with host := { s.host with stMbox := false, unsig := none, dozeHold := false, doze := false } }.disarm .irqMod

/-- The host control registers take a write (R314). -/
def State.writeHostCtl (s : State) (a : Nat) (v : W32) : State :=
  match a with
  | 0x100 => s.writeHCtl v
  | 0x108 => ({ s with host := { s.host with err := s.host.err &&& ~~~(v.setWidth 6) } }).irqEval
  | 0x10C =>
    let s := { s with host := { s.host with stState := s.host.stState && !v.getLsbD 3, stBoot := s.host.stBoot && !v.getLsbD 2 } }
    (if v.getLsbD 0 then s.clearMbox else s).irqEval
  | 0x110 => ({ s with host := { s.host with mask := v.setWidth 4 } }).irqEval
  | 0x114 =>
    let s := { s with host := { s.host with modTime := v.setWidth 10 } }
    (match s.host.unsig with | some t => s.arm .irqMod (t + s.host.modNs) | none => s).irqEval
  | _ => s

/-- A doorbell takes a write: RELEASE first, then SUBMIT (R318). -/
def State.writeBell (s : State) (n : Nat) (v : W32) : State :=
  let s := if v.getLsbD 4 then s.releaseBuf n else s
  if v.getLsbD 3 then s.submit (Fin.ofNat 512 n) else s

/-- Four bytes of a request buffer. -/
def State.writeReq (s : State) (n off : Nat) (v : W32) : State :=
  let put (t : Table Byte) (i : Nat) : Table Byte :=
    let b : Byte := (v >>> (8 * i)).setWidth 8
    if b = 0 then terase t (n * 4096 + off + i) else tput t (n * 4096 + off + i) b
  { s with host := { s.host with req := (List.range 4).foldl put s.host.req } }

/-- A counter block takes a write: C_UNLOCK only (R442). -/
def State.writeCounters (s : State) (n off : Nat) (v : W32) : State :=
  match off with
  | 0x100 => { s with ctr := { s.ctr with unlockLo := tput s.ctr.unlockLo n v } }
  | 0x104 => s.bindCounters n v
  | _ => s

/-- A word of the window takes a write; an unmapped one discards it and sets UNMAP (R309, R313). -/
def State.writeWord (s : State) (a : Nat) (v : W32) : State :=
  if (s.hostWord a).isNone then s.hostErr 3
  else if s.mod.st = .recovery ∧ !inRecovery a then s
  else if a < 0x1000 then s.writeHostCtl a v
  else if a < 0x1800 then s.writeBell ((a - 0x1000) / 4) v
  else if a < 0x500000 then
    let off := (a - 0x100000) % 0x2000
    if off < 0x1000 then s.writeReq ((a - 0x100000) / 0x2000) off v else s
  else if a < 0x700000 then s.writeView ((a - 0x600000) / 0x800) ((a - 0x600000) % 0x800) v
  else if a < 0x740000 then s.writeCounters ((a - 0x700000) / 0x200) ((a - 0x700000) % 0x200) v
  else s

/-- n words in ascending address order (R309). -/
def writeWords : Nat → Nat → List Byte → State → State
  | 0, _, _, s => s
  | n + 1, a, bs, s => writeWords n (a + 4) (bs.drop 4) (s.writeWord a (BitVec.ofNat 32 (field bs 0 4)))

/-- WRITE and QWRITE, applied when HCS_N has risen (R308, R309, R311). -/
def State.hostWrite (s : State) (a : Nat) (data : List Byte) : State :=
  let room := blockRoom a
  let s := if room < data.length then s.hostErr 4 else s
  if a % 4 ≠ 0 ∨ data.length % 4 ≠ 0 then s.hostErr 0
  else writeWords (min data.length room / 4) a data s

/-- WRITE (R307 to R311). -/
def execWrite (addr : BitVec 24) (data : List Byte) (s : State) : Host.Outcome State Fault Refusal :=
  .next (s.transaction fun s => s.hostWrite addr.toNat data)

/-- QWRITE (R307 to R311). -/
def execQwrite (addr : BitVec 24) (data : List Byte) (s : State) : Host.Outcome State Fault Refusal :=
  .next (s.transaction fun s => s.hostWrite addr.toNat data)

/-- HOST_UNKNOWN_COMMAND (R307): any command byte but the four; ignored, H_ERR.CMD is set. -/
def execHostUnknownCommand (cmd : Byte) (s : State) : Host.Outcome State Fault Refusal :=
  .next (if cmd ∈ [0x0B#8, 0x02, 0xEB, 0x32] then s else s.transaction fun s => s.hostErr 2)

/-! ### The interrupt (R316, R317) -/

/-- H_CTL_DOZE_WRITE (R317): the host is about to sleep. -/
def execHCtlDozeWrite (s : State) : Host.Outcome State Fault Refusal :=
  .next (if s.powered && s.pins.hrdy then ({ s with host := { s.host with doze := true } }).irqEval else s)

/-- IRQ_MODERATION_EXPIRY (R316): the first MBOX set not yet signalled has waited the moderation time. -/
def execIrqModerationExpiry (s : State) : Host.Outcome State Fault Refusal :=
  .next (if s.expired .irqMod then (s.disarm .irqMod).irqEval else s)

end Sys2Proof.Machine
end

