-- ==== Sys2Proof/Machine/Placer.lean ====
section
/-! DEFINITION. The placer (R140 to R150, R159 to R161, R165, R168 to R171): a deterministic function from the placer state and the work asked for to a new placer state with each module's plan. -/
namespace Sys2Proof.Machine

/-! ### The constraints of R147 for a whole plan -/

/-- Pair and lane of a task in a plan: those of its version, or where the plan does not have that yet, of the other one. -/
def oldPlace (old : Domain) (t : TaskPlan) : Option (Nat × Nat) :=
  let find (f : TaskPlan → Bool) : Option (Nat × Nat) := old.mods.findSome? fun (m, pl) =>
    if m % 2 = 0 then ((pl.tasks ++ pl.staged).find? f).map fun u => (m, u.lane) else none
  (find (sameVersion t)).orElse fun _ => find fun u => decide (u.task = t.task)

/-- What a plan has placed. -/
def putsOf (d : Domain) : List Put :=
  d.mods.flatMap fun (m, pl) =>
    if m % 2 = 0 then pl.tasks.map (fun t => { t := t, live := true, pair := m, lane := t.lane })
      ++ pl.staged.map fun t => { t := t, live := false, pair := m, lane := t.lane }
    else []

/-- Spare capacity held on a pair, in parts per million of a lane (R147): a partition's is sized for the loss of any one of its hosting pairs, so it counts once (R150). -/
def spareUse (d : Domain) (q : Nat) : Nat :=
  (((d.spare.filter fun x => decide (x.pair = q)).map fun x => (x.part, x.lane)).eraseDups.flatMap fun x =>
    x.2.map fun (k, us) => us * 1000000 / max (domPeriod d k) 1).sum

def State.laneCount (s : State) (q : Nat) : Nat :=
  ((List.range 256).filter fun l => decide (l ∉ s.badLanes q) && decide (l ∉ s.badLanes (q + 1))).length

/-- Variables and replica entries of a partition on a pair (R37). -/
def imageUse (ps : List Put) (q p : Nat) : Nat :=
  let ts := (ps.filter fun x => decide (x.pair = q) && decide (taskPart x.t.task = p)).map (·.t)
  (ts.flatMap fun t => t.outs.map (·.decl)).eraseDups.length
    + (ts.flatMap fun t => (t.ins.filter fun i => !i.same).map fun i => (t.cls, i.vid)).eraseDups.length

/-- A partition's placed use stays within its reservations on a pair (R37, R147). -/
def reserved (d : Domain) (ps : List Put) (q : Nat) (x : PartPlan) : Bool :=
  let p := x.cfg.part
  let ts := (ps.filter fun y => decide (y.pair = q) && y.live && decide (taskPart y.t.task = p)).map (·.t)
  ((ts.map (·.cls)).eraseDups.all fun k => decide (laneNs d ts k ≤ tget 0 x.cfg.reserve.lane k * 1000))
    && (ts.isEmpty || decide (imageUse ps q p ≤ x.cfg.reserve.image))

/-- A partition's sets, recovery shadows among them, stay within its ring reservation on every link that carries them (R37, R150). -/
def State.ringReserved (s : State) (fs : List SetForm) (x : PartPlan) : Bool :=
  (List.range 8).all fun k =>
    let ls := (fs.filter fun f => decide (f.part = x.cfg.part) && decide (f.cls = k) && !f.io).flatMap fun f =>
      (s.setLinks f.home (subModules f.dests)).map fun l => (l.1, l.2 * setBytes f.words.length)
    (ls.map (·.1)).eraseDups.all fun l => decide (((ls.filter fun y => decide (y.1 = l)).map (·.2)).sum ≤ tget 0 x.cfg.reserve.ring k)

/-- Lane time of a partition on a pair in parts per million of a lane: what it has reserved for the classes it uses there, or what it takes where that is more; of two versions the larger (R37, R261). One that an overload has lowered or stopped gives up the rest (R168). -/
def chargeOn (d : Domain) (ps : List Put) (q : Nat) (x : PartPlan) : Nat :=
  let here := ps.filter fun y => decide (y.pair = q) && decide (taskPart y.t.task = x.cfg.part)
  let of (live : Bool) : List TaskPlan := (here.filter fun y => y.live = live).map (·.t)
  ((here.map (·.t.cls)).eraseDups.map fun k =>
    let use := max (laneNs d (of true) k) (laneNs d (of false) k)
    let ns := if x.stopped then 0 else if x.lowered.isSome then use else max use (tget 0 x.cfg.reserve.lane k * 1000)
    ns * 1000 / max (domPeriod d k) 1).sum

/-- The pair a task is pinned to: by a pin declaration, or because a transmit object of a CAN channel sends its outputs; of other pairs' objects the placer has no input (R33, R147, R407; log 77). -/
def State.pinOf (s : State) (t : TaskPlan) : Option Nat :=
  t.pinPair.orElse fun _ =>
    if s.can.any fun c => c.2.tx.any fun o => o.cfg.vids.any fun v => t.outs.any fun u => decide (u.decl = v) || decide (u.vid = v) then some (pairOf s.module) else none

/-- Image words on a pair: variables homed, replicas and status words (R147). -/
def State.entriesOn (s : State) (ps : List Put) (fs : List SetForm) (q : Nat) : Nat :=
  ((ps.filter fun p => decide (p.pair = q)).flatMap fun p => p.t.outs.map (·.decl)).eraseDups.length + ((List.range 8).map (s.freezeOn ps fs q)).sum

/-- Every constraint of R147 on every pair; `beyond` names partitions whose own reservations may be exceeded (R42, R168 step 1). -/
def State.planHolds (s : State) (d : Domain) (ps : List Put) (beyond : List Nat) : Bool :=
  let fs := s.setsOf d ps
  ((ps.map (·.pair) ++ d.spare.map (·.pair)).eraseDups.all fun q =>
      let x := s.termsOf ps fs q (pathNs (s.longestRoute fs q))
      (((ps.filter fun p => decide (p.pair = q)).map (·.lane)).eraseDups.all (laneHolds d x ps q))
        && ((List.range 8).all fun k => decide (s.freezeOn ps fs q k ≤ 32768)) && decide (s.entriesOn ps fs q ≤ 0xFFFFF) && pairLinkOk d ps q
        && decide ((d.parts.map (chargeOn d ps q)).sum + spareUse d q ≤ s.laneCount q * 1000000)
        && d.parts.all fun y => decide (y.cfg.part ∈ beyond) || reserved d ps q y)
    && loadsOk (s.linkLoads d ps fs) && (d.parts.all fun y => decide (y.cfg.part ∈ beyond) || s.ringReserved fs y)
    && (ps.all fun p => p.live → ((s.pinOf p.t).getD p.pair = p.pair))

/-! ### Choosing a place (R148, R149) -/

/-- Pairs the placer may use: in the domain, heard from or carrying work, and not lost (R140, R164). -/
def State.availPairs (s : State) (d : Domain) (lost : List Nat) : List Nat :=
  s.pairs.filter fun q => decide (q ∉ lost) && decide (q ∉ s.pl.gone) &&
    (decide (q = pairOf s.module) || (tfind d.mods q).isSome || (tfind s.pl.health q).isSome || (tfind s.pl.health (q + 1)).isSome)

/-- Bytes per second of one variable of a class. -/
def rate (d : Domain) (k : Nat) : Nat := 8000000 / max (domPeriod d k) 1

/-- The first key of R149: bytes per second × hops over the unit's frozen inputs and the subscribers of its outputs; `ps` holds the places of this plan, and of the plan before for tasks that have none yet. -/
def State.ringLoad (s : State) (d : Domain) (ps : List Put) (unit : List TaskPlan) (q : Nat) : Nat :=
  (unit.map fun t =>
    ((t.ins.filter fun i => !i.same).map fun i => match s.sourceOf ps i.vid with
      | some (.task p) => rate d p.t.cls * s.hopsTo p.pair q
      | some (.adapter set _) => rate d t.cls * s.hopsTo (set.toNat / 2 ^ 20) q
      | some (.io h) => if pairOf h = q then 0 else rate d t.cls * s.hopsTo h q
      | none => 0).sum
    + (t.outs.map fun o => ((readersOf ps q o.decl).map fun r => rate d t.cls * s.hopsTo q r).sum).sum).sum

/-- The second key: the highest lane utilisation of the pair. -/
def topUse (d : Domain) (ps : List Put) (q : Nat) : Nat := ((List.range 256).map (laneUse d ps q)).foldl max 0

/-- Puts the tasks of a unit on a pair, each on the preferred lane if it holds there, else on the lowest that holds (R149). -/
def State.putUnit (s : State) (d : Domain) (ps : List Put) (unit : List TaskPlan) (live : Bool) (q : Nat) (prefer : TaskPlan → Option Nat) :
    Option (List Put) :=
  unit.foldl (init := some ps) fun acc t => acc.bind fun ps =>
    let fs := s.setsOf d ps
    let x := s.termsOf ps fs q (pathNs (s.longestRoute fs q))
    let add (l : Nat) : List Put := ps ++ [{ t := t, live := live, pair := q, lane := l }]
    (((prefer t).toList ++ List.range 256).find? fun l => s.laneUsable t q l && laneHolds d x (add l) q l).map add

/-- R160: the final delta of a unit fits after its commit on the old host. -/
def State.mayMigrate (s : State) (old : Domain) (unit : List TaskPlan) : Bool :=
  let ps := putsOf old
  let fs := s.setsOf old ps
  let dm (t : TaskPlan) : Nat := if t.coded || t.bitLogic then 0 else t.dm
  let bytes := 20 + (unit.map fun t => 12 * t.outs.length + dm t).sum
  unit.all fun t => match oldPlace old t with
    | none => true
    | some (q, l) =>
      let ts := (ps.filter fun p => decide (p.pair = q) && decide (p.lane = l) && p.live).map (·.t)
      match completionNs old (s.termsOf ps fs q (pathNs (s.longestRoute fs q))) ts t.cls 0 with
      | some r => decide ((bytes * 1000 + 2908) / 2909 + 16000 + r ≤ domPeriod old t.cls * 1000)
      | none => false

/-- One placing run: the placer state as overloads change it, what has been placed, partitions that may exceed their own reservations, and whether a unit found no place. -/
structure Run where
  d : Domain
  ps : List Put
  beyond : List Nat
  failed : Bool

/-- How a run places: the plan before it, the pairs it may use, partitions without the keep rule, the partition the work names, whether overloads are resolved, the lost pairs. -/
structure Mode where
  old : Domain
  avail : List Nat
  moving : List Nat
  named : Option Nat
  overload : Bool
  lost : List Nat
  epoch : W32

/-- The place a unit has now, if all of it is on one available pair (R149). -/
def currentHost (m : Mode) (unit : List TaskPlan) : Option Nat :=
  match unit.filterMap fun t => (oldPlace m.old t).map (·.1) with
  | [] => none
  | q :: r => if r.all (fun x => decide (x = q)) && decide (q ∈ m.avail) then some q else none

def oldLane (m : Mode) (q : Nat) (t : TaskPlan) : Option Nat :=
  (oldPlace m.old t).bind fun (p, l) => if p = q then some l else none

/-- What is placed, and where tasks that have no place yet stood before. -/
def Run.known (r : Run) (m : Mode) : List Put :=
  r.ps ++ (putsOf m.old).filter fun p => decide (p.pair ∈ m.avail) && !r.ps.any fun x => decide (x.t.task = p.t.task)

/-- Pairs a unit may stand on: its pin; for the version not in force, where its tasks or its partition are (R147, R260). -/
def State.candidates (s : State) (m : Mode) (r : Run) (unit : List TaskPlan) (live : Bool) : List Nat :=
  let pins := unit.filterMap s.pinOf
  let same := (r.ps.filter fun p => unit.any fun t => decide (t.task = p.t.task)).map (·.pair)
  let part := (r.ps.filter fun p => unit.any fun t => decide (taskPart t.task = taskPart p.t.task)).map (·.pair)
  let base := if live then m.avail else if !same.isEmpty then same.take 1 else if !part.isEmpty then part.take 1 else m.avail
  base.filter fun q => pins.all fun p => decide (p = q)

/-- Candidates that a unit can reach: one whose final delta would come too late stays where it is (R160). -/
def State.reachable (s : State) (m : Mode) (r : Run) (unit : List TaskPlan) (live : Bool) : List Nat :=
  match currentHost m unit with
  | some q => if s.mayMigrate m.old unit then s.candidates m r unit live else (s.candidates m r unit live).filter fun x => decide (x = q)
  | none => s.candidates m r unit live

/-- Best candidate of R149 among those on which the unit holds. -/
def State.bestPlace (s : State) (m : Mode) (r : Run) (unit : List TaskPlan) (live : Bool) (qs : List Nat) (prefer : Nat → TaskPlan → Option Nat) :
    Option (List Put) :=
  let found := qs.filterMap fun q => (s.putUnit r.d r.ps unit live q (prefer q)).bind fun ps =>
    if s.planHolds r.d ps r.beyond then some ((s.ringLoad r.d (r.known m) unit q, topUse r.d ps q, q), ps) else none
  let less (a b : Nat × Nat × Nat) : Bool :=
    decide (a.1 < b.1) || (decide (a.1 = b.1) && (decide (a.2.1 < b.2.1) || (decide (a.2.1 = b.2.1) && decide (a.2.2 < b.2.2))))
  (found.foldl (init := none) fun (m : Option ((Nat × Nat × Nat) × List Put)) x => match m with
    | none => some x
    | some y => if less x.1 y.1 then some x else some y).map (·.2)

/-- A unit stays on its current host, each task on its lane where that still holds (R149, the keep rule). -/
def State.keepUnit (s : State) (m : Mode) (live : Bool) (r : Run) (unit : List TaskPlan) : Option Run :=
  let part := lowestTask unit / 2 ^ 23
  let keep := (currentHost m unit).filter fun q => decide (q ∈ s.candidates m r unit live) && decide (part ∉ m.moving)
  keep.bind fun q => (s.bestPlace m r unit live [q] (oldLane m)).map fun ps => { r with ps := ps }

/-- A unit goes to the best feasible pair that a migration may reach, each task to the lowest lane that holds (R149, R160). -/
def State.placeUnit (s : State) (m : Mode) (r : Run) (unit : List TaskPlan) (live : Bool) : Option Run :=
  (s.bestPlace m r unit live (s.reachable m r unit live) fun _ _ => none).map fun ps => { r with ps := ps }

/-! ### Overloads (R165, R168 to R170) -/

/-- A victim of one step: what is given up, by whom. -/
structure Victim where
  step : Nat
  part : Nat
  resource : Nat
  amount : Nat
  after : Domain

/-- Lane-µs per cycle of a partition's tasks on a pair. -/
def laneUsOn (d : Domain) (ps : List Put) (q p : Nat) (f : TaskPlan → Nat) : Nat :=
  (((ps.filter fun x => decide (x.pair = q) && x.live && decide (taskPart x.t.task = p) && chargedOf d x.t).map fun x => f x.t).sum + 999) / 1000

/-- The lowering of R168 step 3 that R40 allows. -/
def loweringOf (x : PartPlan) : Option Profile :=
  match x.cfg.profile, x.cfg.crit with
  | .winter, .c | .winter, .s | .winter, .a => some .summer
  | .autumn, .s | .autumn, .a => some .spring
  | _, _ => none

/-- Partitions that rank below one, lowest first. -/
def below (d : Domain) (x : PartPlan) : List PartPlan :=
  sortBy (fun a b => ranksAbove b a) (d.parts.filter fun y => ranksAbove x y && decide (y.cfg.part ≠ x.cfg.part))

/-- The victims that a unit of a partition could take on a pair, in the order of R168. -/
def victims (d : Domain) (ps : List Put) (x : PartPlan) (q : Nat) : List (Domain → Victim) :=
  let low := below d x
  let runs (y : PartPlan) : Bool := ps.any fun p => decide (p.pair = q) && p.live && decide (taskPart p.t.task = y.cfg.part)
  (low.filter fun y => d.spare.any fun z => decide (z.part = y.cfg.part) && decide (z.pair = q)).map (fun y d =>
      { step := 2, part := y.cfg.part, resource := 3,
        amount := ((d.spare.filter fun z => decide (z.part = y.cfg.part) && decide (z.pair = q)).flatMap fun z => z.lane.map (·.2)).sum,
        after := { d with spare := d.spare.filter fun z => !(decide (z.part = y.cfg.part) && decide (z.pair = q)) } })
    ++ (low.filter fun y => runs y && y.cfg.degradeOk && (loweringOf y).isSome).map (fun y d =>
      { step := 3, part := y.cfg.part, resource := 4, amount := laneUsOn d ps q y.cfg.part fun t => if t.coded || t.bitLogic then t.wcetC + 100 else 0,
        after := domSetPart d { y with cfg := { y.cfg with profile := (loweringOf y).getD y.cfg.profile }, lowered := some (y.lowered.getD y.cfg.profile) } })
    ++ (low.filter runs).map (fun y d =>
      { step := 4, part := y.cfg.part, resource := 5, amount := laneUsOn d ps q y.cfg.part fun t => t.wcetP + 100,
        after := domSetPart { d with safes := (y.cfg.part, 0x0405) :: d.safes } { ((domPart d y.cfg.part).getD y) with stopped := true } })

/-- A broken guarantee of this epoch (R170). -/
def note (d : Domain) (e : W32) (step victim beneficiary resource amount : Nat) : Domain :=
  let b : Broken := { restored := false, step := step, victim := victim, beneficiary := beneficiary, resource := resource, amount := amount, since := e }
  { d with broken := d.broken ++ [b], news := d.news ++ [b] }

/-- The spare that a partition itself holds on a pair is there for its units (R165). -/
def useSpare (d : Domain) (e : W32) (x : PartPlan) (q : Nat) : Domain :=
  let mine := d.spare.filter fun z => decide (z.part = x.cfg.part) && decide (z.pair = q)
  if mine.isEmpty then d
  else note { d with spare := d.spare.filter fun z => !(decide (z.part = x.cfg.part) && decide (z.pair = q)) } e 2 x.cfg.part x.cfg.part 3
    (((mine.take 1).flatMap fun z => z.lane.map (·.2)).sum)

/-- The pairs that hold a partition's spare for the lost hosts of a unit. -/
def recoveryOf (m : Mode) (unit : List TaskPlan) : List Nat :=
  let hosts := (unit.filterMap fun t => (oldPlace m.old t).map (·.1)).filter fun q => decide (q ∈ m.lost)
  ((m.old.spare.filter fun z => decide (z.part = lowestTask unit / 2 ^ 23) && decide (z.host ∈ hosts) && decide (z.pair ∈ m.avail)).map (·.pair)).eraseDups

/-- The pair chosen for a unit that fits nowhere: the recovery pair of its lost host, or the first by the keys of R149. -/
def State.chosenPair (s : State) (m : Mode) (r : Run) (unit : List TaskPlan) (live : Bool) : Option Nat :=
  let qs := s.reachable m r unit live
  match (recoveryOf m unit).find? fun q => decide (q ∈ qs) with
  | some q => some q
  | none =>
    qs.foldl (init := none) fun best q => match best with
      | none => some q
      | some b => if s.ringLoad r.d (r.known m) unit q < s.ringLoad r.d (r.known m) unit b then some q else some b

/-- A partition whose own unit fits nowhere enters SAFE, and that guarantee is broken too (R60, R168 to R170). -/
def giveUp (m : Mode) (r : Run) (unit : List TaskPlan) : Run :=
  let part := lowestTask unit / 2 ^ 23
  match domPart r.d part with
  | some x =>
    if x.stopped then r
    else
      let us := ((unit.map (·.wcetP)).sum + 999) / 1000
      { r with d := note (domSetPart { r.d with safes := (part, 0x0405) :: r.d.safes } { x with stopped := true }) m.epoch 4 part part 5 us }
  | none => r

/-- R168: capacity is freed on the chosen pair step by step until the unit fits; where it never does, its partition enters SAFE (R60, R169). -/
def State.overloadUnit (s : State) (m : Mode) (r : Run) (unit : List TaskPlan) (live : Bool) : Run :=
  let part := lowestTask unit / 2 ^ 23
  match domPart r.d part, s.chosenPair m r unit live with
  | some x, some q =>
    let d0 := useSpare r.d m.epoch x q
    let try_ (d : Domain) : Option Run :=
      let r := { r with d := d, beyond := part :: r.beyond }
      (s.bestPlace m r unit live [q] (oldLane m)).map fun ps => { r with ps := ps }
    let step (acc : Domain × Option Run) (v : Domain → Victim) : Domain × Option Run :=
      match acc.2 with
      | some _ => acc
      | none =>
        let w := v acc.1
        let d := note w.after m.epoch w.step w.part part w.resource w.amount
        (d, try_ d)
    match ((victims r.d r.ps x q).foldl step (d0, try_ d0)).2 with
    | some r => r
    | none => giveUp m r unit
  | _, _ => giveUp m r unit

/-- A unit that has no place yet. One of a lost pair with a pin is not moved and its partition enters SAFE; any other goes to the spare of its partition first (R165). A unit that had none before and that the work does not name waits (R171). -/
def State.runUnit (s : State) (m : Mode) (live : Bool) (r : Run) (unit : List TaskPlan) : Run :=
  let part := lowestTask unit / 2 ^ 23
  let wasLost := unit.any fun t => ((oldPlace m.old t).map fun q => decide (q.1 ∈ m.lost)).getD false
  if wasLost && unit.any fun t => (s.pinOf t).isSome then
    { r with d := { r.d with safes := (part, 0x0403) :: r.d.safes } }
  else
    let first := (recoveryOf m unit).findSome? fun q => (domPart r.d part).bind fun x =>
      let r := { r with d := useSpare r.d m.epoch x q, beyond := part :: r.beyond }
      (s.bestPlace m r unit live [q] fun _ _ => none).map fun ps => { r with ps := ps }
    match first.orElse fun _ => s.placeUnit m r unit live with
    | some r => r
    | none =>
      let had := unit.any fun t => (oldPlace m.old t).isSome
      if m.overload && had then s.overloadUnit m r unit live
      else if had || decide (m.named = some part) then { r with failed := true }
      else r

/-- Units that can stay do so, in the order of R148; then the others are placed, one at a time, in that order (R148, R149). -/
def State.runUnits (s : State) (m : Mode) (live : Bool) (r : Run) (units : List (List TaskPlan)) : Run :=
  let (r, rest) := units.foldl (init := ((r, []) : Run × List (List TaskPlan))) fun (r, rest) u =>
    match s.keepUnit m live r u with
    | some r => (r, rest)
    | none => (r, rest ++ [u])
  rest.foldl (s.runUnit m live) r

/-! ### Recovery pairs and restoration (R150, R171) -/

/-- Pairs that host a partition. -/
def hostsOf (ps : List Put) (p : Nat) : List Nat := ((ps.filter fun x => decide (taskPart x.t.task = p)).map (·.pair)).eraseDups

/-- A broken guarantee is restored: its entry ends, and this epoch says so (R171). -/
def restored (d : Domain) (p resource : Nat) : Domain :=
  match d.broken.find? fun b => decide (b.victim = p) && decide (b.resource = resource) with
  | some b => { d with broken := d.broken.filter (fun b => !(decide (b.victim = p) && decide (b.resource = resource))),
                       news := d.news ++ [{ b with restored := true, step := 0, beneficiary := 0 }] }
  | none => d

def isBroken (d : Domain) (p resource : Nat) : Bool := d.broken.any fun b => decide (b.victim = p) && decide (b.resource = resource)

/-- Broken by this very epoch. -/
def brokenNow (d : Domain) (p resource : Nat) : Bool := d.news.any fun b => !b.restored && decide (b.victim = p) && decide (b.resource = resource)

/-- Designates the recovery pair of each hosting pair of one partition; the pair it has is kept while it holds (R150). Spare that finds no pair breaks the guarantee (R170, R171) or, for work that resolves no overload, refuses the plan (R147); a guarantee broken by this epoch is restored by a later one. -/
def State.designate (s : State) (m : Mode) (r : Run) (x : PartPlan) : Run :=
  let p := x.cfg.part
  let lane := x.cfg.reserve.spare
  let hosts := hostsOf r.ps p
  let r := { r with d := { r.d with spare := r.d.spare.filter fun z => decide (z.part ≠ p) || decide (z.host ∈ hosts) } }
  if (lane.all fun q => decide (q.2 = 0)) || brokenNow r.d p 3 then r
  else
    let (d, ok) := hosts.foldl (init := (r.d, true)) fun (d, ok) h =>
      let held := d.spare.find? fun z => decide (z.part = p) && decide (z.host = h)
      let d' := { d with spare := d.spare.filter fun z => !(decide (z.part = p) && decide (z.host = h)) }
      let with_ (q : Nat) : Domain := { d' with spare := { part := p, host := h, pair := q, lane := lane } :: d'.spare }
      let good (q : Nat) : Bool := decide (q ≠ h) && decide (q ∈ m.avail) && (!x.cfg.recSepRow || decide (rowOf q ≠ rowOf h))
        && s.planHolds (with_ q) r.ps r.beyond
      match ((held.map (·.pair)).toList ++ m.avail).find? good with
      | some q => (with_ q, ok)
      | none => (d', false)
    if ok then { r with d := restored d p 3 }
    else if isBroken d p 3 then { r with d := d }
    else if m.overload then { r with d := note d m.epoch 2 p p 3 ((lane.map (·.2)).sum) }
    else { r with d := d, failed := true }

/-- Raises a lowered profile again where R42 lets it and it fits (R171). -/
def State.raise (s : State) (r : Run) (x : PartPlan) : Run :=
  match domPart r.d x.cfg.part with
  | none => r
  | some y =>
    let p := y.cfg.part
    let free := !y.stopped && decide (y.change ≠ .unconfirmed)
      && ((s.part? p).map fun z => decide (z.state ≠ .safe) && z.pendProfile.isNone).getD true
    match y.lowered with
    | none => r
    | some q =>
      let d := domSetPart r.d { y with cfg := { y.cfg with profile := q }, lowered := none }
      if !free || brokenNow r.d p 4 || !s.planHolds d r.ps (p :: r.beyond) then r else { r with d := restored d p 4, beyond := p :: r.beyond }

/-! ### Current VIDs (R143) -/

def currentOf (aka : List (W32 × W32)) (v : W32) : W32 := ((aka.find? fun a => decide (a.1 = v)).map (·.2)).getD v

/-- The lowest index at a home that stands in no VID taken. -/
def freshVid (taken : List W32) (home : Nat) : Nat → Nat → W32
  | 0, i => setId home i
  | n + 1, i => if setId home i ∈ taken then freshVid taken home n (i + 1) else setId home i

/-- Homes one declared VID on a pair, under the number of its even-column module: the declared VID where that names it, the current one where it does, else a fresh one that is nobody's declared VID (R142, R143). -/
def homeVid (declared : List W32) (al : List (W32 × W32)) (v : W32) (q : Nat) : List (W32 × W32) :=
  let old := currentOf al v
  let taken := declared ++ al.map (·.1) ++ al.map (·.2)
  let new := if v.toNat / 2 ^ 20 = q then v else if old.toNat / 2 ^ 20 = q then old else freshVid taken q (taken.length + 1) 0
  if old = new then al
  else
    let al := ((al.filter fun a => decide (a.1 ≠ v)).map fun a => if a.2 = old then (a.1, new) else a)
    al ++ (if new ≠ v then [(v, new)] else []) ++ (if old ≠ v then [(old, new)] else [])

/-- The aliases of some declared VIDs end with their partition (R143). -/
def dropAliases (al : List (W32 × W32)) (vs : List W32) : List (W32 × W32) :=
  al.filter fun a => !vs.any fun v => decide (a.1 = v) || decide (a.2 = currentOf al v)

/-- All aliases after a placement; VIDs declared by tasks without a place are taken too (R143). -/
def homeAll (d : Domain) (ps : List Put) : List (W32 × W32) :=
  let outs (gs : List Package) : List W32 := gs.flatMap fun g => g.task.outs.map (·.decl)
  let declared := (outs d.packages ++ d.parts.flatMap fun x => outs x.other).eraseDups
  declared.foldl (init := d.aka) fun al v =>
    match (ps.find? fun p => p.live && p.t.outs.any fun o => decide (o.decl = v)).orElse fun _ => ps.find? fun p => p.t.outs.any fun o => decide (o.decl = v) with
    | some p => homeVid declared al v p.pair
    | none => al

end Sys2Proof.Machine
end

