-- ==== Sys2Proof/Machine/PlanBuild.lean ====
section
/-! DEFINITION. The plan of one module from a placement: LIIs in blocks of 512 (R144, R146, R295), windows in IM and DM, replicas, status words, sets and subscriptions, Access Guard rules (R294), migrations, and what the epoch affects (R153). -/
namespace Sys2Proof.Machine

/-! ### Image entries -/

/-- Completion of a class on a pair in ns: the latest of its lanes (R13, R64). -/
def State.completionOn (s : State) (d : Domain) (ps : List Put) (fs : List SetForm) (q k : Nat) : Nat :=
  let x := s.termsOf ps fs q (pathNs (s.longestRoute fs q))
  (((ps.filter fun p => decide (p.pair = q) && decide (p.t.cls = k)).map (·.lane)).eraseDups.map fun l =>
    (completionNs d x ((ps.filter fun p => decide (p.pair = q) && decide (p.lane = l) && p.live).map (·.t)) k 0).getD (domPeriod d k * 1000)).foldl max 0

/-- The delivery allowance of a subscription in µs (R13): the worst path of an adapter's set; the start and path of a set of trip or CAN words; the completion of a producer's class; and for a set of the pair itself one period, after which its values stand in CURRENT. -/
def State.allowanceOf (s : State) (d : Domain) (ps : List Put) (fs : List SetForm) (q : Nat) (f : Feed) : Nat :=
  match f.cls with
  | none => pathNs (s.hopsTo f.home q) / 1000
  | some k =>
    if f.own then domPeriod d k
    else
      let h := pairOf f.home
      let ns := if f.io then startNs d (s.termsOf ps fs h 0) k + (setBytes f.words.length * 1000 + 2908) / 2909 + pathNs (s.longestRoute fs f.home)
        else s.completionOn d ps fs h k
      (ns + 999) / 1000

/-- Tag and initial value of a declared variable. -/
def declOf (ps : List Put) (vid : W32) : Tag × W64 :=
  match (ps.flatMap fun p => p.t.outs).find? fun o => decide (o.decl = vid) with
  | some o => (o.tag, o.init)
  | none => (((ps.flatMap fun p => p.t.ins).find? fun i => decide (i.vid = vid)).elim .bits (·.tag), 0)

/-- The entries that variables homed on a pair need (R142, R260, R265). -/
def homeWants (d : Domain) (ps : List Put) (q : Nat) : List LiiEntry :=
  let here := ps.filter fun p => decide (p.pair = q)
  let live := (here.filter (·.live)).flatMap fun p => p.t.outs.map fun o =>
    ({ lii := 0, vid := currentOf d.aka o.decl, declared := o.decl, tag := o.tag, cls := p.t.cls, part := taskPart p.t.task, writer := p.t.task,
       init := o.init, replica := false } : LiiEntry)
  let other := (here.filter fun p => !p.live).flatMap fun p => p.t.outs.filterMap fun o =>
    if live.any fun e => decide (e.declared = o.decl) then none
    else
      let w : W32 := if ((domPart d (taskPart p.t.task)).map (·.change)) = some .unconfirmed then 0 else notYet
      some ({ lii := 0, vid := currentOf d.aka o.decl, declared := o.decl, tag := o.tag, cls := p.t.cls, part := taskPart p.t.task, writer := w,
              init := o.init, replica := false } : LiiEntry)
  live ++ other

def replicaEntry (d : Domain) (ps : List Put) (p k : Nat) (vid : W32) : LiiEntry :=
  { lii := 0, vid := currentOf d.aka vid, declared := vid, tag := (declOf ps vid).1, cls := k, part := p, writer := 0, init := (declOf ps vid).2,
    replica := true }

/-- Replicas of a pair, and the entries from which it publishes its trip and CAN words (R142, R144). -/
def State.replicaWants (s : State) (d : Domain) (ps : List Put) (fs : List SetForm) (q : Nat) : List LiiEntry :=
  (List.range 8).flatMap fun k => (s.replicasOf ps fs q k).map fun x => replicaEntry d ps x.1 k x.2

/-- Status words are shared by the tasks of a partition's class that declare one maximum age (R45, R144). -/
def statusEntry (p k : Nat) (set : W32) (age : Nat) : LiiEntry :=
  { lii := 0, vid := noVid, declared := set, tag := .bits, cls := k, part := p, writer := 0, init := BitVec.ofNat 64 age, replica := true }

def State.statusWants (s : State) (ps : List Put) (fs : List SetForm) (q : Nat) : List LiiEntry :=
  (List.range 8).flatMap fun k => (s.statusesOf ps fs q k).map fun x => statusEntry x.1 k x.2.1 x.2.2

/-! ### LIIs and blocks (R144, R146, R295) -/

/-- Two entries are the same one in two plans. -/
def sameEntry (a b : LiiEntry) : Bool :=
  decide (a.declared = b.declared) && decide (a.part = b.part) && decide (a.replica = b.replica) && decide (decide (a.vid = noVid) = decide (b.vid = noVid))
    && (!a.replica || (decide (a.cls = b.cls) && (decide (a.vid ≠ noVid) || decide (a.init = b.init))))

/-- A partition may use a block: its own, or with `fresh` one that nobody has, or that was released two epochs ago. -/
def blockFor (bs : List Block) (e p : Nat) (fresh : Bool) (n : Nat) : Bool :=
  match bs.find? fun b => decide (b.num = n) with
  | none => fresh
  | some b => match b.released with
    | none => decide (b.part = p)
    | some r => fresh && decide (r + 2 ≤ e)

/-- The lowest base for n consecutive LIIs of a partition that no entry uses; 0xFFFFF is never given. -/
def findBase (bs : List Block) (used : List Nat) (e p n limit : Nat) : Option Nat :=
  let ok (fresh : Bool) (b : Nat) : Bool := (List.range n).all fun i =>
    decide (b + i < 0xFFFFF) && decide (b + i ∉ used) && blockFor bs e p fresh ((b + i) / 512)
  match (List.range limit).find? (ok false) with
  | some b => some b
  | none => (List.range limit).find? (ok true)

/-- Entries given LIIs so far, and the blocks. -/
structure Alloc where
  out : List LiiEntry
  used : List Nat
  blocks : List Block

def Alloc.own (a : Alloc) (p l : Nat) : Alloc :=
  let n := l / 512
  if a.blocks.any fun b => decide (b.num = n) && b.released.isNone then a
  else { a with blocks := { num := n, part := p, released := none } :: a.blocks.filter fun b => decide (b.num ≠ n) }

/-- Gives the members of a group the LIIs at their places in n consecutive ones. -/
def Alloc.group (a : Alloc) (e limit n : Nat) (g : List (Nat × LiiEntry)) : Option Alloc :=
  match g with
  | [] => some a
  | x :: _ => (findBase a.blocks a.used e x.2.part n limit).map fun b =>
    g.foldl (init := { a with used := ((List.range n).map fun i => b + i) ++ a.used }) fun a y =>
      Alloc.own { a with out := { y.2 with lii := b + y.1 } :: a.out } y.2.part (b + y.1)

/-- The entry of the old plan that a new one continues (R144): the same one, or the status word of a set whose home has moved, if nothing else continues that. -/
def keptEntry (old ws : List LiiEntry) (w : LiiEntry) : Option LiiEntry :=
  (old.find? (sameEntry w)).orElse fun _ =>
    if w.vid = noVid then
      old.find? fun e => decide (e.vid = noVid) && decide (e.part = w.part) && decide (e.cls = w.cls) && decide (e.init = w.init)
        && decide (e.declared.setWidth 20 = w.declared.setWidth 20) && !ws.any (sameEntry e)
        && decide ((ws.filter fun x => decide (x.vid = noVid) && decide (x.part = w.part) && decide (x.cls = w.cls) && decide (x.init = w.init)
            && decide (x.declared.setWidth 20 = w.declared.setWidth 20)).length = 1)
    else none

/-- Members of a declared array that stand in the image in one role, each with its place in the array. -/
def arrayGroup (ws : List LiiEntry) (p : Nat) (vs : List W32) (r : Bool) (k : Nat) : List (Nat × LiiEntry) :=
  (List.range vs.length).filterMap fun i => (vs[i]?).bind fun v => (ws.find? fun w =>
    decide (w.declared = v) && decide (w.part = p) && decide (w.replica = r) && decide (w.vid ≠ noVid) && (!r || decide (w.cls = k))).map fun w => (i, w)

/-- Allots all entries: those of the old plan keep their LII; declared arrays take consecutive LIIs, below 0x8000 where an imm16 field reaches them, and an array whose members do not stand so yet is placed anew (R146). -/
def allot (old : List LiiEntry) (blocks : List Block) (e : Nat) (arrays : List (Nat × List W32 × Bool)) (ws : List LiiEntry) : Option Alloc :=
  let keep (w : LiiEntry) : Option Nat := (keptEntry old ws w).map (·.lii)
  let groups : List (Nat × Nat × List (Nat × LiiEntry)) := (arrays.flatMap fun (p, vs, low) =>
    ((arrayGroup ws p vs false 0) :: (List.range 8).map (arrayGroup ws p vs true)).map fun g => (if low then 0x8000 else 0xFFFFF, vs.length, g)).filter
      fun g => !g.2.2.isEmpty
  let stands (g : Nat × Nat × List (Nat × LiiEntry)) : Bool := match g.2.2 with
    | [] => true
    | x :: _ => match keep x.2 with
      | none => false
      | some l => decide (x.1 ≤ l) && g.2.2.all fun y => decide (keep y.2 = some (l - x.1 + y.1)) && decide (l - x.1 + y.1 < g.1)
  let anew := groups.filter fun g => !stands g
  let inAnew (w : LiiEntry) : Bool := anew.any fun g => g.2.2.any fun y => decide (y.2 = w)
  let kept := ws.filterMap fun w => if inAnew w then none else (keep w).map fun l => { w with lii := l }
  let start : Alloc := { out := kept, used := (old.map (·.lii)) ++ kept.map (·.lii), blocks := blocks }
  let single := (ws.filter fun w => !inAnew w && (keep w).isNone).map fun w => (0xFFFFF, 1, [(0, w)])
  (anew ++ single).foldl (init := some start) fun acc g => acc.bind fun a =>
    a.group e g.1 g.2.1 (g.2.2.filter fun y => !a.out.any (sameEntry y.2))

/-- Blocks after an epoch: those no entry uses any more are released by it; a released one is forgotten two epochs later (R295). -/
def settleBlocks (a : Alloc) (e : Nat) : List Block :=
  a.blocks.filterMap fun b =>
    let live := a.out.any fun x => decide (x.lii / 512 = b.num)
    match b.released with
    | none => if live then some b else some { b with released := some e }
    | some r => if r + 2 ≤ e then none else some b

/-! ### Access Guard rules of the placer (R294) -/

/-- ATTR of a rule (R290). -/
def ruleAttr (part perms master : Nat) : W32 := BitVec.ofNat 32 (2 ^ 31 + part * 2 ^ 17 + perms + master)
def placerRule (part perms master first last : Nat) : Rule :=
  { attr := ruleAttr part perms master, base := BitVec.ofNat 32 first, limit := BitVec.ofNat 32 last, origin := 0x80000000 }

/-- Runs of consecutive numbers. -/
def runsOf (xs : List Nat) : List (Nat × Nat) :=
  ((sortBy (fun a b => decide (a < b)) xs).foldl (init := ([] : List (Nat × Nat))) fun rs x => match rs with
    | (a, b) :: r => if x = b + 1 then (a, x) :: r else (x, x) :: (a, b) :: r
    | [] => [(x, x)]).reverse

/-- Rules over the image blocks that are in use or released by this epoch, and over the partitions' areas in DRAM; service cores read for a partition's commands and publications (R335, R414; log 13), FORCE_OK adds the host data moves (R294, R295, R333). -/
def placerRules (d : Domain) (bs : List Block) (e : Nat) : List Rule :=
  let held := bs.filter fun b => b.released.isNone || decide (b.released = some e)
  let image := ((held.map (·.part)).eraseDups).flatMap fun p =>
    let force := ((domPart d p).map (·.cfg.forceOk)).getD false
    let master := if force then 0xF else 0xE
    (runsOf ((held.filter fun b => decide (b.part = p)).map (·.num))).flatMap fun (a, z) =>
      [placerRule p 0xD00 master (0x4000000 + a) (0x4000000 + z), placerRule p 0xD00 master (0x4000800 + a) (0x4000800 + z)]
  let dram := d.parts.flatMap fun x =>
    let p := x.cfg.part
    [placerRule p 0xE00 0x5 (stagingAddr p / 4096) (stagingAddr p / 4096 + 4095), placerRule p 0xC00 0x2 (assemblyAddr p / 4096) (assemblyAddr p / 4096 + 7)]
  image ++ dram

/-! ### Windows in IM and DM (R92) -/

def winBlocks (n : Nat) : Nat := max 1 ((n + 255) / 256)
def winReg (base n : Nat) : W32 := BitVec.ofNat 32 (base + (base + n - 1) * 2 ^ 16)
def winSpan (w : W32) : Nat × Nat := (bitsAt w.toNat 0 9, bitsAt w.toNat 16 9 + 1)

/-- The lowest run of n blocks of 256 bytes below the firmware's reserve that overlaps none of the used ones. -/
def fitWin (used : List (Nat × Nat)) (n : Nat) : Option Nat :=
  (List.range 496).find? fun b => decide (b + n ≤ 496) && used.all fun u => decide (b + n ≤ u.1) || decide (u.2 ≤ b)

/-- Windows of one task, from its declared use of IM and DM, which the two variants of a native task with a coded variant share out; the old ones where it stays, a shared DM window where a native task without a coded variant keeps its DM layout (R33, R92, R146, R265). -/
def windows (old : ModPlan) (acc : List TaskPlan) (t : TaskPlan) (lane : Nat) : Option TaskPlan :=
  let both := (old.tasks ++ old.staged ++ acc).filter fun u => decide (u.lane = lane)
  match (old.tasks ++ old.staged).find? fun u => decide (u.lane = lane) && sameVersion u t with
  | some u => some { t with lane := lane, xwinP := u.xwinP, xwinC := u.xwinC, dwinP := u.dwinP, dwinC := u.dwinC }
  | none =>
    let xs := both.flatMap fun u => [winSpan u.xwinP, winSpan u.xwinC]
    let ds := both.flatMap fun u => [winSpan u.dwinP, winSpan u.dwinC]
    let two := t.coded && !t.bitLogic
    let split (n a b : Nat) : Nat × Nat := if two then (winBlocks (min a n), winBlocks (max (n - a) b)) else (winBlocks n, winBlocks n)
    let (np, nc) := split t.im t.codeP.length t.codeC.length
    let (mp, mc) := split t.dm t.dmP.length t.dmC.length
    let shared := both.find? fun u => decide (u.task = t.task) && decide (u.dmDigest = t.dmDigest) && !t.coded && !t.bitLogic && !u.coded
    (fitWin xs np).bind fun xp =>
      let xc := if two then fitWin ((xp, xp + np) :: xs) nc else some xp
      xc.bind fun xc =>
        let dp := match shared with
          | some u => some (winSpan u.dwinP).1
          | none => fitWin ds mp
        dp.bind fun dp =>
          let dc := if two then fitWin ((dp, dp + mp) :: ds) mc else some dp
          dc.map fun dc =>
            { t with lane := lane, xwinP := winReg xp np, xwinC := if two then winReg xc nc else winReg xp np, dwinP := winReg dp mp,
                     dwinC := if two then winReg dc mc else winReg dp mp }

/-! ### A module's plan -/

def liiOf (es : List LiiEntry) (p : LiiEntry → Bool) : Nat := ((es.find? p).map (·.lii)).getD 0xFFFFF

/-- A task with the LIIs of this module in its declarations and relocations (R146). -/
def State.bindTask (s : State) (d : Domain) (ps : List Put) (fs : List SetForm) (q : Nat) (es : List LiiEntry) (t : TaskPlan) : TaskPlan :=
  let home (v : W32) : Nat := liiOf es fun e => decide (e.declared = v) && !e.replica
  let repl (v : W32) : Nat := liiOf es fun e => decide (e.declared = v) && e.replica && decide (e.vid ≠ noVid) && decide (e.cls = t.cls) && decide (e.part = taskPart t.task)
  let read (v : W32) : Nat := if s.needsReplica ps q t v then repl v else home v
  let writer (v : W32) : W32 := match s.sourceOf ps v with | some (.task p) => p.t.task | _ => 0
  let status (i : Nat) : Nat :=
    match (t.subs[i]?).bind fun u => (s.feedOf fs q (taskPart t.task) t.cls u.1).map fun f => (f.set, u.2) with
    | some (set, age) =>
        liiOf es fun e => decide (e.vid = noVid) && decide (e.declared = set) && decide (e.init = BitVec.ofNat 64 age) && decide (e.cls = t.cls) && decide (e.part = taskPart t.task)
    | none => 0xFFFFF
  { t with
    outs := t.outs.map fun o => { o with lii := home o.decl, vid := currentOf d.aka o.decl }
    ins := t.ins.map fun i => { i with lii := if i.same then home i.vid else read i.vid, producer := writer i.vid }
    pins := t.pins.map fun x => (x.1, currentOf d.aka x.2)
    relocs := t.relocs.map fun r => { r with lii := match r.of with
      | .var v => if t.outs.any fun o => decide (o.decl = v) then home v
          else if t.ins.any fun i => i.same && decide (i.vid = v) then home v else read v
      | .status n => status n } }

/-- Subscriptions of a pair: one per set, class, partition and maximum age (R13, R144); the values of a set of the pair itself are in CURRENT, and only its status word is fed. -/
def State.subPlans (s : State) (d : Domain) (ps : List Put) (fs : List SetForm) (q : Nat) (es : List LiiEntry) : List SubPlan :=
  (((ps.filter fun p => decide (p.pair = q)).flatMap fun p => (s.subsOfTask fs q p.t).map fun x =>
      (taskPart p.t.task, p.t.cls, x)).eraseDups).map fun (p, k, f, age) =>
    { set := f.set, part := p, cls := k
      statusLii := liiOf es fun e => decide (e.vid = noVid) && decide (e.declared = f.set) && decide (e.init = BitVec.ofNat 64 age) && decide (e.cls = k) && decide (e.part = p)
      maxAge := age, allowance := s.allowanceOf d ps fs q f, home := f.home, producerCls := f.cls
      words := f.words.map fun v => if f.own then 0xFFFFF else liiOf es fun e => decide (e.declared = v) && e.replica && decide (e.vid ≠ noVid) && decide (e.cls = k) && decide (e.part = p)
      inits := f.words.map fun v => (declOf ps v).2 }

/-- Copies of a pair's freeze: other local classes' variables, and its own trip and CAN words (R13, R377, R405). -/
def State.copyPlans (s : State) (ps : List Put) (q : Nat) (es : List LiiEntry) : List CopyPlan :=
  (es.filter fun e => e.replica && decide (e.vid ≠ noVid)).filterMap fun e =>
    match s.sourceOf ps e.declared with
    | some (.task p) =>
      if p.pair = q then
        some { src := .local (liiOf es fun h => decide (h.declared = e.declared) && !h.replica) p.t.cls, cls := e.cls, lii := e.lii, vid := e.vid }
      else none
    | some (.io h) =>
      if pairOf h = q then
        let i := e.declared.toNat % 2 ^ 20
        some { src := if i = 0xFFFFF then .tripIn else if i = 0xFFFFE then .tripDiag else .io, cls := e.cls, lii := e.lii, vid := e.vid }
      else none
    | _ => none

/-- Sets of a module, its spans from its own position (R187, R209). -/
def State.setPlans (s : State) (fs : List SetForm) (m : Nat) (es : List LiiEntry) : List SetPlan :=
  (fs.filter fun f => decide (pairOf f.home = pairOf m)).map fun f =>
    { set := f.id, part := f.part, cls := f.cls, shadow := f.shadow, io := f.io
      words := f.words.map fun v => (v, liiOf es fun e => decide (e.declared = v) && decide (e.replica = f.io) && decide (e.vid ≠ noVid) && (!f.io || (decide (e.cls = f.cls) && decide (e.part = f.part))))
      spans := (s.spanEnds m (subModules f.dests)).map fun x => BitVec.ofNat 16 x }

/-- The tasks that a recovery pair would receive, as if they stood there: those of the pairs whose spare it holds (R150). -/
def rescuePuts (d : Domain) (ps : List Put) (q : Nat) : List Put :=
  (ps.filter fun p => d.spare.any fun z => decide (z.pair = q) && decide (z.part = taskPart p.t.task) && decide (z.host = p.pair)).map fun p =>
    { p with pair := q, live := false }

/-- The entries that those tasks are linked to (R146, R150). -/
def State.rescueWants (s : State) (d : Domain) (fs : List SetForm) (ps : List Put) (q : Nat) (rescued : List Put) : List LiiEntry :=
  let homes := rescued.flatMap fun p => p.t.outs.map fun o =>
    ({ lii := 0, vid := currentOf d.aka o.decl, declared := o.decl, tag := o.tag, cls := p.t.cls, part := taskPart p.t.task, writer := notYet,
       init := o.init, replica := false } : LiiEntry)
  let reads := rescued.flatMap fun p => (p.t.ins.filter fun i => !i.same && s.needsReplica ps q p.t i.vid).map fun i =>
    replicaEntry d ps (taskPart p.t.task) p.t.cls i.vid
  let status := rescued.flatMap fun p => (s.subsOfTask fs q p.t).map fun x => statusEntry (taskPart p.t.task) p.t.cls x.1.set x.2
  (homes ++ reads ++ status).eraseDups

/-- The plan of one module. -/
def State.buildMod (s : State) (m : Mode) (d : Domain) (ps : List Put) (fs : List SetForm) (mod : Nat) : Option ModPlan :=
  let q := pairOf mod
  let old := (tfind m.old.mods mod).getD emptyPlan
  let e := m.epoch.toNat
  let here := ps.filter fun p => decide (p.pair = q)
  let wants := homeWants d ps q ++ s.replicaWants d ps fs q ++ s.statusWants ps fs q
  let rescued := (rescuePuts d ps q).filter fun p => !here.any fun x => decide (x.t.task = p.t.task) && decide (x.t.version = p.t.version)
  let spare := (s.rescueWants d fs (ps ++ rescued) q rescued).filter fun w => !wants.any (sameEntry w)
  let low (t : TaskPlan) (vs : List W32) : Bool := t.relocs.any fun r => decide (r.kind = 2) && vs.any fun v => decide (r.of = .var v)
  let arrays := ((here ++ rescued).flatMap fun p => p.t.arrays.map fun vs => (taskPart p.t.task, vs, low p.t vs)).eraseDups
  (allot (old.lii ++ old.rescueLii) old.blocks e arrays (wants ++ spare)).bind fun a =>
    let (extra, es) := a.out.partition fun x => spare.any (sameEntry x)
    let ts := here.foldl (init := some (([], []) : List TaskPlan × List TaskPlan)) fun acc p => acc.bind fun (ls, os) =>
      (windows old (ls ++ os) (s.bindTask d ps fs q es p.t) p.lane).map fun t => if p.live then (ls ++ [t], os) else (ls, os ++ [t])
    ts.bind fun (live, staged) =>
      let bs := settleBlocks a e
      let rules := placerRules d bs e
      if 4096 < rules.length + (if mod = s.module then s.guard.configured.length else 0) then none
      else
        let was (t : TaskPlan) : Option Nat := (m.old.mods.findSome? fun (x, pl) =>
          if x % 2 = 0 && pl.tasks.any fun u => decide (u.task = t.task) then some x else none)
        let now (t : TaskPlan) : Option Nat := (ps.find? fun p => p.live && decide (p.t.task = t.task)).map (·.pair)
        let gone := (if mod % 2 = 0 then old.tasks else ((tfind m.old.mods q).getD old).tasks).filter fun t => decide ((now t).isSome) && decide (now t ≠ some q)
        some
          { tasks := live, staged := staged, sets := s.setPlans fs mod es, subs := s.subPlans d ps fs q es, copies := s.copyPlans ps q es, lii := es,
            blocks := bs, rules := rules, affected := [],
            setHome := (fs.map fun f => (f.id, f.home)) ++ s.nv.adapters.map (fun a => (a.1, a.1.toNat / 2 ^ 20)),
            migrIn := live.filterMap fun t => match was t with
              | some x => if x ≠ q ∧ x ∉ m.lost then some (t.task, x) else none
              | none => none
            migrOut := gone.map fun t => (t.task, (now t).getD q)
            replaced := (live.filter fun t => (was t).any fun x => decide (x ∈ m.lost)).map (·.task)
            moved := gone.flatMap fun t => (t.task, (now t).getD q, t.task) :: t.outs.map fun o => (o.vid, (now t).getD q, currentOf d.aka o.decl)
            shadowSets := (fs.filter fun f => f.shadow && decide (q ∈ f.dests)).map fun f => (f.id, f.words)
            rescue := rescued.map fun p => s.bindTask d (ps ++ rescued) fs q (es ++ extra) p.t
            rescueLii := extra }

end Sys2Proof.Machine
end

