-- ==== Sys2Proof/Machine/EpochPlan.lean ====
section
/-! DEFINITION. From work to a new placer state: what each kind of work changes, admission (R38), the checks of R33 to R35, R73, R74 and R259 on packages, and the plan of every module. -/
namespace Sys2Proof.Machine

/-! ### Packages (R33 to R35, R73, R74, R259, R296, R379) -/

/-- A package's declarations are complete and in range (R33, R73, R74). -/
def packageOk (d : Domain) (g : Package) : Bool :=
  let t := g.task
  let period := domPeriod d t.cls
  g.wellFormed && decide (t.cls < 8) && decide (1 ≤ t.wcetP)
    && (if t.bitLogic then decide (t.wcetC = t.wcetP) && decide (t.codeC = []) else decide (decide (t.wcetC = 0) = !t.coded) && decide (decide (t.codeC = []) = !t.coded))
    && decide (t.im ≤ laneMem) && decide (t.dm ≤ laneMem) && decide (1 ≤ t.bundle) && decide (t.bundle ≤ 128)
    && t.subs.all (fun u => decide (1 ≤ u.2) && decide (u.2 ≤ 0xFFFFFFFF))
    && decide (t.inputDl < t.endDl) && decide (t.endDl ≤ period) && decide (bitsAt t.task.toNat 16 7 = 0)
    && (!t.bitLogic || (t.outs.all (fun o => decide (o.tag = .bits)) && t.ins.all fun i => decide (i.tag = .bits)))
    && t.pins.all fun x => decide (x.1 < 16)

/-- Tasks left when tasks without a producer among the rest are taken away again and again: a cycle of same-class dependencies remains (R35). -/
def stripTasks : Nat → List TaskPlan → List TaskPlan
  | 0, ts => ts
  | n + 1, ts => stripTasks n (ts.filter fun t => ts.any fun u => sameDep t u)

/-- A trip word, or a word of a CAN receive object of this module's channels; of other modules' CAN configuration the placer has no input (R140; log 77). -/
def State.ioSourceOk (s : State) (vid : W32) : Bool :=
  let h := vid.toNat / 2 ^ 20
  decide (0xFFFFE ≤ vid.toNat % 2 ^ 20) || decide (pairOf h ≠ pairOf s.module)
    || s.can.any fun c => c.2.objs.any fun o => decide (vid ∈ o.cfg.vids)

/-- An input of a task stands on a source, and a same-class one on a task of its class and partition (R35, R296). -/
def State.inputOk (s : State) (ts : List TaskPlan) (t : TaskPlan) (i : InVar) : Bool :=
  match ts.find? fun u => u.outs.any fun o => decide (o.decl = i.vid) with
  | some u => !i.same || (decide (u.cls = t.cls) && decide (taskPart u.task = taskPart t.task))
  | none => !i.same && match s.sourceOf [] i.vid with
      | some (.io _) => s.ioSourceOk i.vid
      | some _ => true
      | none => false

/-- The first failing item of a load (R259, CHANGE_REJECTED): 1 package, 2 writer, 3 tag, 4 removed VID, with its task or VID. Versions that other partitions have staged count as writers too, so no switch brings in a second one (R34). -/
def State.loadFault (s : State) (d : Domain) (p : Nat) (pkgs : List Package) : Option (Nat × W32) :=
  let new := pkgs.map (·.task)
  let others := (d.packages.filter fun g => decide (taskPart g.task.task ≠ p)).map (·.task)
  let old := (d.packages.filter fun g => decide (taskPart g.task.task = p)).map (·.task)
  let waiting := (d.parts.filter fun x => decide (x.cfg.part ≠ p)).flatMap fun x => x.other.map (·.task)
  let all := others ++ new
  let coded := (domProfile d p).coded
  let badPkg := pkgs.find? fun g => !packageOk d g || decide (taskPart g.task.task ≠ p) || decide (1 < (new.filter fun t => decide (t.task = g.task.task)).length)
    || (coded && !g.task.coded && !g.task.bitLogic)
  let writers (v : W32) : Nat := (((all ++ waiting).filter fun t => t.outs.any fun o => decide (o.decl = v)).map (·.task)).eraseDups.length
  let claims (m : Nat) : Nat := (all.filter fun t => t.pins.any fun x => decide (x.1 = m) && t.pinPair.isSome).length
  let twice := new.findSome? fun t => ((t.outs.find? fun o => decide (1 < writers o.decl)).map (·.decl)).orElse fun _ =>
    if t.pins.any fun x => all.any fun u => decide (u.task ≠ t.task) && decide (u.pinPair = t.pinPair) && u.pins.any (fun y => decide (y.1 = x.1)) && decide (1 < claims x.1)
    then some t.task else none
  let removed := (old.flatMap fun t => t.outs.map (·.decl)).filter fun v => !new.any fun t => t.outs.any fun o => decide (o.decl = v)
  let gone := removed.find? fun v => all.any fun t => t.ins.any fun i => decide (i.vid = v)
  let noSource := new.find? fun t => !t.ins.all (s.inputOk all t)
  let cyc := (stripTasks new.length new).head?
  let tagOf (ts : List TaskPlan) (v : W32) : Option Tag := ((ts.flatMap (·.outs)).find? fun o => decide (o.decl = v)).map (·.tag)
  let tag := (new.flatMap (·.outs)).find? fun o => match tagOf old o.decl with
    | some g => decide (g ≠ o.tag) && others.any fun t => t.ins.any fun i => decide (i.vid = o.decl)
    | none => false
  match badPkg with
  | some g => some (1, g.task.task)
  | none =>
    match twice with
    | some v => some (2, v)
    | none =>
      match gone with
      | some v => some (4, v)
      | none =>
        match noSource.orElse fun _ => cyc with
        | some t => some (1, t.task)
        | none => tag.map fun o => (3, o.decl)

/-! ### Admission (R37, R38) -/

/-- A reservation per class cycle in parts per million of a lane. -/
def resvPpm (d : Domain) (t : Table Nat) : Nat := (t.map fun (k, us) => us * 1000000 / max (domPeriod d k) 1).sum
/-- A ring reservation as bytes per period (R37). -/
def resvRing (d : Domain) (x : PartPlan) : List (Nat × Nat) := x.cfg.reserve.ring.map fun y => (y.2, max (domPeriod d y.1) 1)

/-- The partitions that have a pair's modules, and those whose spare it holds, by their reservations. -/
structure Claims where
  runs : List PartPlan
  spares : List PartPlan

/-- Those reservations fit on each module of the pair and on the links that leave it (R37, R38; log 17). -/
def State.claimsFit (s : State) (d : Domain) (q : Nat) (c : Claims) : Bool :=
  decide ((c.runs.map fun x => resvPpm d x.cfg.reserve.lane).sum + (c.spares.map fun x => resvPpm d x.cfg.reserve.spare).sum ≤ s.laneCount q * 1000000)
    && decide ((c.runs.map fun x => x.cfg.reserve.image).sum ≤ 0xFFFFF) && rateOk (c.runs.flatMap (resvRing d)) 20363

/-- Reserves room for a partition that has no tasks yet: the first pair on which its reservations fit, and another one for its spare. -/
def State.claimRoom (s : State) (d : Domain) (avail : List Nat) (cs : Table Claims) (x : PartPlan) : Option (Table Claims) :=
  let none_ : Claims := { runs := [], spares := [] }
  let fits (cs : Table Claims) (q : Nat) (f : Claims → Claims) : Bool := s.claimsFit d q (f (tget none_ cs q))
  let add (cs : Table Claims) (q : Nat) (f : Claims → Claims) : Table Claims := tput cs q (f (tget none_ cs q))
  let run (c : Claims) : Claims := { c with runs := x :: c.runs }
  let spare (c : Claims) : Claims := { c with spares := x :: c.spares }
  avail.findSome? fun q =>
    if !fits cs q run then none
    else
      let cs := add cs q run
      if x.cfg.reserve.spare.all fun y => decide (y.2 = 0) then some cs
      else (avail.find? fun p => decide (p ≠ q) && (!x.cfg.recSepRow || decide (rowOf p ≠ rowOf q)) && fits cs p spare).map fun p => add cs p spare

/-- The reservations of all partitions fit beside one another: on every pair that hosts or recovers them, on every link that carries their sets, and for one that has no tasks yet on some pair, in commissioning order (R37, R38; log 17). -/
def State.admits (s : State) (d : Domain) (avail : List Nat) : Bool :=
  let ps := putsOf d
  let fs := s.setsOf d ps
  let hosted := d.parts.filter fun x => !(hostsOf ps x.cfg.part).isEmpty
  let cs : Table Claims := avail.map fun q =>
    (q, { runs := hosted.filter fun x => decide (q ∈ hostsOf ps x.cfg.part)
          spares := hosted.filter fun x => d.spare.any fun z => decide (z.part = x.cfg.part) && decide (z.pair = q) })
  let loads := hosted.flatMap fun x =>
    let ls := ((fs.filter fun f => decide (f.part = x.cfg.part) && !f.io).flatMap fun f => (s.setLinks f.home (subModules f.dests)).map fun l => (l.1, f.cls)).eraseDups
    ls.map fun l => (l.1, tget 0 x.cfg.reserve.ring l.2, max (domPeriod d l.2) 1)
  let new := sortBy (fun a b => decide (a.order < b.order)) (d.parts.filter fun x => (hostsOf ps x.cfg.part).isEmpty)
  (cs.all fun c => s.claimsFit d c.1 c.2) && loadsOk loads
    && (new.foldl (init := some cs) fun acc x => acc.bind fun cs => s.claimRoom d avail cs x).isSome

/-- Profiles a criticality class may use (R40). -/
def permits (crit : Crit) (q : Profile) : Bool :=
  match crit, q with
  | .p, .winter => true
  | .p, _ => false
  | .c, .spring => false
  | _, _ => true

/-- A lowering: it takes away the coded pass or the hot standby and adds nothing (R41). -/
def isLowering (a b : Profile) : Bool :=
  decide (a ≠ b) && (!b.coded || a.coded) && (!b.hot || a.hot)

/-! ### What each kind of work changes -/

/-- A package with the number of the load that brought it in (R141). -/
def Package.stamp (n : Nat) (g : Package) : Package := { g with task := { g.task with version := n } }

/-- The version in force and the other one of a partition change places. -/
def swapVersions (d : Domain) (x : PartPlan) (ch : Change) (window cause : Nat) (reverted keep : Bool) : Domain :=
  let mine := d.packages.filter fun g => decide (Package.of g = x.cfg.part)
  let rest := d.packages.filter fun g => decide (Package.of g ≠ x.cfg.part)
  domSetPart { d with packages := rest ++ x.other } { x with change := ch, window := window, cause := cause, reverted := reverted, other := if keep then mine else [] }

/-- The placer state with the work's own change made; `none` where the partition it names is not there. Packages that a load brings in carry the epoch that stages them. -/
def editDomain (d : Domain) (w : Work) (e : W32) : Option Domain :=
  let withPart (p : Nat) (f : PartPlan → Domain) : Option Domain := (domPart d p).map f
  match w with
  | .rebalance _ | .wrap | .mend | .guard => some d
  | .loss qs => some { d with mods := d.mods.filter fun m => decide (pairOf m.1 ∉ qs) }
  | .stage p pkgs => withPart p fun x =>
      domSetPart d { x with change := .staged, cause := 0, reverted := false, other := pkgs.map (Package.stamp e.toNat) }
  | .switch p _ win idle => withPart p fun x => if idle then swapVersions d x .none win 0 false false else swapVersions d x .unconfirmed win 0 false true
  | .confirm p => withPart p fun x => domSetPart d { x with change := .none, cause := 0, reverted := false, other := [] }
  | .revert p c => withPart p fun x => swapVersions d x .none x.window c true false
  | .discard p => withPart p fun x => domSetPart d { x with change := .none, cause := 0, reverted := false, other := [] }
  | .profile p q => withPart p fun x => domSetPart d { x with cfg := { x.cfg with profile := q }, lowered := none }
  | .create c => some { d with parts := d.parts ++ [{ cfg := c, order := (d.parts.map (·.order)).foldl max 0 + 1, lowered := none, change := .none, window := 0,
                                                      cause := 0, reverted := false, other := [], stopped := false }] }
  | .remove p => some { d with parts := d.parts.filter fun x => decide (x.cfg.part ≠ p), packages := d.packages.filter fun g => decide (Package.of g ≠ p),
                               spare := d.spare.filter fun z => decide (z.part ≠ p), broken := d.broken.filter fun b => decide (b.victim ≠ p),
                               aka := dropAliases d.aka ((d.packages.filter fun g => decide (Package.of g = p)).flatMap fun g => g.task.outs.map (·.decl)) }
  | .flags p a dg f r => withPart p fun x => domSetPart d { x with cfg := { x.cfg with autostart := a, degradeOk := dg, forceOk := f, recSepRow := r } }
  | .reservation p r => withPart p fun x => domSetPart d { x with cfg := { x.cfg with reserve := r } }
  | .classSet k pe ph => some { d with classes := tput d.classes k (pe, ph) }
  | .restart p => withPart p fun x => restored (domSetPart d { x with stopped := false }) p 5

/-- Work that the leader takes up by itself resolves overloads, and a lowering is never refused; any other request that does not fit is (R38, R42, R168). -/
def Work.overload (d : Domain) : Work → Bool
  | .loss _ | .wrap | .mend | .rebalance _ | .revert _ _ => true
  | .profile p q => isLowering (domProfile d p) q
  | _ => false

def Work.lost : Work → List Nat
  | .loss qs => qs
  | _ => []

def Work.isLoss (w : Work) : Bool := !(Work.lost w).isEmpty

def Work.moving : Work → List Nat
  | .rebalance ps => ps
  | _ => []

/-- Work that asks for new room beside the reservations of others (R38). -/
def Work.claims : Work → Bool
  | .create _ | .reservation _ _ | .classSet _ _ _ => true
  | _ => false

/-- A load (R257). -/
def Work.loads : Work → Bool
  | .stage _ _ => true
  | _ => false

/-- The partition that the work is about. -/
def Work.names : Work → Option Nat
  | .stage p _ | .switch p _ _ _ | .confirm p | .revert p _ | .discard p | .profile p _ | .flags p _ _ _ _ | .reservation p _ | .restart p => some p
  | _ => none

/-- The partition whose version or profile the work changes. -/
def Work.changes : Work → Option Nat
  | .switch p _ _ _ | .revert p _ | .profile p _ | .confirm p => some p
  | _ => none

/-- The partition whose own reservations a profile raising may exceed (R42). -/
def Work.stands : Work → Option Nat
  | .profile p _ => some p
  | _ => none

/-- Units of the two versions, in the order of R148. -/
def liveTasks (d : Domain) : List TaskPlan := d.packages.map (·.task)
def otherTasks (d : Domain) : List TaskPlan := d.parts.flatMap fun x => x.other.map (·.task)

/-- All modules that a plan may concern: both modules of each available pair, and unpaired modules (R10). -/
def State.planModules (s : State) (avail : List Nat) : List Nat :=
  avail.flatMap (fun q => [q, q + 1]) ++ s.modules.filter fun m => decide (pairOf m ∉ s.pairs)

/-- No RUNNING partition uses a class (R30). -/
def State.classFree (s : State) (k : Nat) : Bool :=
  !s.pl.dom.packages.any fun g => decide (g.task.cls = k) && decide ((s.part? (Package.of g)).map (·.state) = some .running)

/-- No RUNNING partition uses a class whose entry the work changes (R30). -/
def State.classWork (s : State) (w : Work) : Bool :=
  match w with
  | .classSet k _ _ => s.classFree k
  | _ => true

/-- The placer (R141): the new placer state of an epoch, or why there is none. -/
def State.computePlan (s : State) (w : Work) (e : W32) : Status ⊕ Domain :=
  let old := s.pl.dom
  match editDomain { old with news := [], safes := [] } w e with
  | none => .inl .checkFail
  | some d =>
    let avail := s.availPairs d (Work.lost w)
    if !s.classWork w then .inl .notNow
    else if Work.claims w && !s.admits d avail then .inl .noRoom
    else
      let m : Mode := { old := old, avail := avail, moving := Work.moving w, named := Work.names w, overload := Work.overload old w, lost := Work.lost w ++ s.pl.gone,
                        epoch := e }
      let start : Run := { d := d, ps := [], beyond := (Work.stands w).toList, failed := false }
      let r := s.runUnits m true start (sortBy (unitBefore d) (unitsOf (liveTasks d)))
      let r := s.runUnits m false r (sortBy (unitBefore d) (unitsOf (otherTasks d)))
      let r := (sortBy ranksAbove r.d.parts).foldl (s.designate m) r
      let r := (sortBy ranksAbove r.d.parts).foldl s.raise r
      if r.failed || !s.planHolds r.d r.ps r.beyond then .inl .noRoom
      else
        let d := { r.d with aka := homeAll r.d r.ps }
        let fs := s.setsOf d r.ps
        let changed := ((Work.changes w).toList ++ (d.news.filter fun b => decide (b.resource = 4)).map (·.victim))
        let mods := (s.planModules avail).foldl (init := (some [] : Option (Table ModPlan))) fun acc x => acc.bind fun t =>
          (s.buildMod m d r.ps fs x).map fun p =>
            tput t x { p with affected := affectedBy ((tfind old.mods x).getD emptyPlan) p changed }
        match mods with
        | some ms => if Work.loads w && !ms.all fun x => storeFits x.2 d then .inl .noRoom else .inr { d with mods := ms }
        | none => .inl .noRoom

/-- A module's plan without what only the epoch itself says. -/
def plainPlan (p : ModPlan) : ModPlan := { p with affected := [], migrIn := [], migrOut := [], replaced := [], moved := [], setHome := [] }

/-- Modules an epoch addresses (R152, R263): those whose part changes, whose spare does or whose partition does and its recovery pairs, all for rules and the class table, and the leader pair. -/
def State.addressed_ (s : State) (w : Work) (new : Domain) : List Nat :=
  let old := s.pl.dom
  let me := [pairOf s.module, s.module]
  let all := match w with | .guard | .classSet _ _ _ | .create _ | .remove _ | .flags _ _ _ _ _ | .reservation _ _ => true | _ => false
  let part := match w with | .stage x _ | .discard x => some x | _ => Work.changes w
  let hosts (p : ModPlan) : Bool := match part with
    | some x => (p.tasks ++ p.staged ++ p.rescue).any fun t => decide (taskPart t.task = x)
    | none => false
  let spareOf (d : Domain) (m : Nat) : List Spare := d.spare.filter fun z => decide (z.pair = pairOf m)
  let need (x : Nat × ModPlan) : Bool :=
    all || hosts x.2 || decide (spareOf old x.1 ≠ spareOf new x.1) || decide (plainPlan ((tfind old.mods x.1).getD emptyPlan) ≠ plainPlan x.2)
  (me ++ [partnerOf s.module] ++ (new.mods.filter need).map (·.1)).eraseDups.filter fun m => decide (s.position m = .module)

end Sys2Proof.Machine
end

