-- ==== Sys2Proof/Machine/Placement.lean ====
section
/-! DEFINITION. Placement epochs on the wire and on each module: the leader (R134 to R139), PREPARE, READY and GO (R151 to R155, R263), linking (R146), the apply instant (R153, R154, R161, R170, R256 to R268, R299), migration streams (R157 to R159), lost pairs (R164 to R166), held frames (R162) and SAFE notices (R61). -/
namespace Sys2Proof.Machine

abbrev PlaceAnswer := Host.Outcome State Fault Refusal

/-! ### PLACE frames (R151) -/

def placePayload (kind : Nat) (loss : Bool) (leader : Nat) (epoch : W32) (apply : W32) (digest : W32) (reason pairs : Nat) : List Byte :=
  leBytes 1 kind ++ leBytes 1 (bit loss) ++ leBytes 2 leader ++ leBytes 4 epoch.toNat ++ leBytes 4 apply.toNat ++ leBytes 2 0 ++ leBytes 2 1
    ++ leBytes 4 digest.toNat ++ leBytes 2 reason ++ leBytes 2 pairs

def placeKind (f : Frame) : Nat := field f.payload 0 1
def placeLoss (f : Frame) : Bool := decide (field f.payload 1 1 % 2 = 1)
def placeEpoch (f : Frame) : W32 := BitVec.ofNat 32 (field f.payload 4 4)
def placeApply (f : Frame) : W32 := BitVec.ofNat 32 (field f.payload 8 4)
def placeReason (f : Frame) : Nat := field f.payload 20 2

/-- A PLACE frame of one kind that is delivered here. -/
def State.placeAs (s : State) (p : Port) (f : Frame) (body : Option Msg) (kind : Nat) : Bool × State :=
  let r := s.receiveAs p f body
  (r.deliver && decide (f.ty = 5) && decide (24 ≤ f.payload.length) && decide (placeKind f = kind), r.s)

/-- A PLACE frame that the spec lays out whole. -/
def State.place (s : State) (p : Port) (f : Frame) (kind : Nat) : Bool × State := s.placeAs p f none kind

def State.sendPlace (s : State) (dst kind : Nat) (loss : Bool) (epoch apply : W32) (reason : Nat) : State :=
  s.sendTo 5 dst (placePayload kind loss s.module epoch apply (crc32c []) reason 0)

/-! ### The leader (R134 to R139) -/

/-- A module's state, epoch and age as this module knows them: its own, its partner's heartbeat, or a HEALTH frame (R134). -/
def State.viewOfModule (s : State) (m : Nat) : Option (Nat × W32) :=
  if m = s.module then some (s.mod.st.code, s.pl.epoch)
  else match tfind s.pl.health m with
    | some h => some (h.st.toNat, h.epoch)
    | none => if m = s.partner then s.pair.view.map fun v => (v.st.toNat, if v.epoch = s.pl.epoch.setWidth 8 then s.pl.epoch else s.pl.epoch - 1) else none

/-- A pair is eligible to lead: one module ACTIVE, the other STANDBY SYNCED, both with the current epoch (R134). -/
def State.eligible (s : State) (q : Nat) : Bool :=
  match s.viewOfModule q, s.viewOfModule (q + 1) with
  | some (a, e), some (b, e') => decide ((a = 6 ∧ b = 5) ∨ (a = 5 ∧ b = 6)) && decide (e = s.pl.epoch) && decide (e' = s.pl.epoch)
  | _, _ => false

def State.hasActive (s : State) (q : Nat) : Bool :=
  [q, q + 1].any fun m => decide ((s.viewOfModule m).map (·.1) = some 6)

/-- The leader by R134: the lowest eligible pair, else the lowest with an ACTIVE module. -/
def State.elect (s : State) : Option Nat := (s.pairs.find? s.eligible).orElse fun _ => s.pairs.find? s.hasActive

/-- This module runs the placer (R135). -/
def State.leads (s : State) : Bool := s.active && decide (s.pl.leader = some (pairOf s.module))

/-- Pairs heard from in the last 3 ms, the leader's own among them (R139). -/
def State.pairsHeard (s : State) : Nat :=
  (s.pairs.filter fun q => decide (q = pairOf s.module) || [q, q + 1].any fun m => match tfind s.pl.health m with
    | some h => decide (s.clk - h.at_ ≤ 3 * msec)
    | none => false).length

/-- More than half of the pairs in the domain configuration (R139). -/
def State.quorum (s : State) : Bool := decide (s.pairs.length < 2 * s.pairsHeard)

/-- The ACTIVE module of the pair this module regards as leader, for LEADER of its answers (R151). -/
def State.leaderModule (s : State) (src : Nat) : Nat :=
  match s.pl.leader with
  | none => src
  | some q => if pairOf src = q then src else ([q, q + 1].find? fun m => decide ((s.viewOfModule m).map (·.1) = some 6)).getD q

/-- READY or REFUSE to the sender of a PLACE frame (R151, R152). -/
def State.answerPlace (s : State) (f : Frame) (kind reason : Nat) : State :=
  s.sendTo 5 f.srcMod (placePayload kind (placeLoss f) (s.leaderModule f.srcMod) (placeEpoch f) 0 (crc32c []) reason 0)

/-- The highest epoch that any module has reported here (R137). -/
def State.topEpoch (s : State) : W32 := s.pl.health.foldl (fun (e : W32) h => if termNewer h.2.epoch e then h.2.epoch else e) s.pl.epoch

/-- A pair's place in R134: eligible, else with an ACTIVE module, else neither; a pair of which nothing is known is taken at its word (log 77). -/
def State.leadRank (s : State) (q : Nat) : Nat :=
  if (s.viewOfModule q).isNone || (s.viewOfModule (q + 1)).isNone || s.eligible q then 0 else if s.hasActive q then 1 else 2

/-- Pair q leads before pair l (R134). -/
def State.leadsBefore (s : State) (q l : Nat) : Bool :=
  decide (s.leadRank q < s.leadRank l) || (decide (s.leadRank q = s.leadRank l) && decide (q < l))

/-- A leader stops issuing; an epoch whose GO has been sent still applies (R138). -/
def State.stopIssuing (s : State) : State :=
  match s.pl.issue with
  | some i => if i.go.isNone then { s with pl := { s.pl with issue := none } } else s
  | none => s

/-- A leader that finds another pair to be the leader by R134 gives way to it. -/
def State.yieldLead (s : State) : State :=
  match s.elect with
  | some q => if q = pairOf s.module then s else { s.stopIssuing with pl := { s.stopIssuing.pl with leader := some q, lastBeacon := some s.clk } }
  | none => s

/-- NO_QUORUM, once per minute (R139). -/
def State.noQuorum (s : State) : State :=
  let due := match s.pl.quorumRec with
    | some t => decide (60 * sec ≤ s.clk - t)
    | none => true
  if due then { s with pl := { s.pl with quorumRec := some s.clk } }.record 0x0402 0 s.module (BitVec.ofNat 32 s.pairsHeard) (BitVec.ofNat 32 s.pairs.length) 0 0
  else s

/-- BEACON_SEND (R134, R136, R139): every 1 ms, by the pair that is the leader then. -/
def execBeaconSend (s : State) : PlaceAnswer :=
  .next (if !s.leads || !s.due .beaconSend then s
    else
      let s := (if s.quorum then s else s.noQuorum).yieldLead.again .beaconSend msec
      if s.leads then s.broadcast 5 (placePayload 0x01 false s.module s.pl.epoch 0 0 0 s.pairsHeard) else s)

/-- Lanes and clusters a module reports besides its Health Report: those the placer may not use (R84, R88, R140; log 14). -/
def State.healthTail (s : State) : List Byte :=
  let bad := (s.lanes.filter fun p => p.2.retire || p.2.bgtest).map (·.1)
  ((List.range 32).map fun i => BitVec.ofNat 8 (((List.range 8).filter fun j => decide (8 * i + j ∈ bad)).map fun j => 2 ^ j).sum)
    ++ leBytes 2 ((s.rnd.lost.map fun c => 2 ^ c).sum) ++ leBytes 2 0

/-- HEALTH_FRAME_SEND (R136): every 1 ms from each ACTIVE and STANDBY module to the leader. -/
def execHealthFrameSend (s : State) : PlaceAnswer :=
  .next (
    let sends := match s.mod.st with | .active | .synced | .unsynced => true | _ => false
    if !sends || !s.due .healthFrame || s.stopping then s
    else
      let s := s.again .healthFrame msec
      match s.pl.leader with
      | none => s
      | some q =>
        if pairOf s.module = q ∧ s.active then s else s.sendRouted (s.mkFrame 7 0 q 1 s.now32 (s.healthReport ++ s.healthTail)) none)

/-- What a module does on hearing the leader's epoch: one that is newer than its own and not held here with its GO is asked for (R154, R165). -/
def State.followEpoch (s : State) (e : W32) (leader : Nat) : State :=
  if !termNewer e s.pl.epoch || s.pl.prep.any fun x => x.go.isSome then s
  else
    let m : ReqMsg := { origin := s.module, session := 0, part := 0, login := false, cmd := 0, seq := 0, payload := leBytes 4 e.toNat, object := none }
    ({ s with pl := { s.pl with prep := none, asked := some e } }.disarm .prepared).sendReq leader m

/-- The leader's BEACON is taken: it leads, and its epoch is followed. -/
def State.heed (s : State) (f : Frame) : State :=
  ({ s with pl := { s.pl with leader := some (pairOf f.srcMod), lastBeacon := some s.clk } }).followEpoch (placeEpoch f) f.srcMod

/-- BEACON (R134, R136 to R138): from the leader, from a pair that leads before it by R134, or after 3 ms of the leader's silence. -/
def execBeacon (p : Port) (f : Frame) (s : State) : PlaceAnswer :=
  .next (
    let (ok, s) := s.place p f 0x01
    if !ok then s
    else
      let s := s.alive f
      let q := pairOf f.srcMod
      let silent := match s.pl.lastBeacon with
        | some t => decide (3 * msec ≤ s.clk - t)
        | none => true
      match s.pl.leader with
      | none => (s.disarm .leaderQuery).heed f
      | some l =>
        if q = l then (s.disarm .leaderQuery).heed f
        else if s.leadsBefore q l || (silent && !s.leads) then ((if s.leads then s.stopIssuing else s).disarm .leaderQuery).heed f
        else s)

/-- MGMT liveness queries to a module in both directions of both its rings (R137, R164). -/
def State.queryModule (s : State) (m : Nat) : State :=
  [0, 1, 2, 3].foldl (init := s) fun s d =>
    s.sendRouted (s.mkFrame 6 (0x10 + 0x20 * d) m 0 s.now32 (leBytes 4 (Config.mgmtWord 2).toNat)) none

/-- The new leader of R137, if this module's view has one; the module that found the old one lost records the change. -/
def State.newLeader (s : State) (old : Nat) : State :=
  let new := s.elect
  let s := { s with pl := { s.pl with leader := new, lastBeacon := if new.isSome then some s.clk else s.pl.lastBeacon } }
  s.record 0x0401 0 s.module (BitVec.ofNat 32 old) (BitVec.ofNat 32 (new.getD 0xFFFFFFFF)) s.pl.epoch 0

/-- BEACON_TIMEOUT (R137): 3 ms without one. A module that knows no leader elects at once. -/
def execBeaconTimeout (s : State) : PlaceAnswer :=
  .next (
    let lost := match s.pl.lastBeacon with
      | some t => decide (3 * msec ≤ s.clk - t)
      | none => true
    let part := match s.mod.st with | .active | .synced | .unsynced => true | _ => false
    if !part || !lost || s.leads || s.armed .leaderQuery then s
    else match s.pl.leader with
      | none => match s.elect with
        | some q => { s with pl := { s.pl with leader := some q, lastBeacon := some s.clk } }
        | none => s
      | some l => ([l, l + 1].foldl (fun (s : State) m => s.queryModule m) s).after .leaderQuery (100 * usec))

/-- LEADER_QUERY_TIMEOUT (R137). The silent leader pair is out of the view. -/
def execLeaderQueryTimeout (s : State) : PlaceAnswer :=
  .next (if !s.expired .leaderQuery then s
    else
      let s := s.disarm .leaderQuery
      match s.pl.leader with
      | none => s
      | some l => { s with pl := { s.pl with health := terase (terase s.pl.health l) (l + 1) } }.newLeader l)

/-- MGMT_QUERY_ANSWER (R137, R164): the leader or a suspected pair lives. -/
def execMgmtQueryAnswer (p : Port) (f : Frame) (s : State) : PlaceAnswer :=
  .next (
    let r := s.receive p f
    if !r.deliver || decide (f.ty ≠ 6) then r.s
    else
      let s := r.s.alive f
      let q := pairOf f.srcMod
      let s := if s.pl.leader = some q ∧ s.armed .leaderQuery then { s.disarm .leaderQuery with pl := { s.pl with lastBeacon := some s.clk } } else s
      if s.armed (.pairQuery q) then { s.disarm (.pairQuery q) with pl := { s.pl with queries := s.pl.queries.filter fun x => decide (x ≠ q) } } else s)

/-- A module that others report to and that finds its own pair to be the leader by R134 takes the lead. -/
def State.takeLead (s : State) : State :=
  let own := pairOf s.module
  if s.active && decide (s.pl.leader ≠ some own) && decide (s.elect = some own) then { s with pl := { s.pl with leader := some own, lastBeacon := some s.clk } } else s

/-- HEALTH_REPORT_FRAME (R134, R139, R165, R220, R251, R282): over the Pair Link the partner's report, over the rings one for the leader's view; a pair found lost is there again. -/
def execHealthReportFrame (p : Port) (f : Frame) (s : State) : PlaceAnswer :=
  .next (
    let r := s.receive p f
    let bs := f.payload
    if !r.deliver || decide (f.ty ≠ 7) || decide (bs.length < 64) || decide (field bs 0 1 ≠ 0x01) then r.s
    else
      let s := r.s.alive f
      let s := if f.srcMod = s.partner then { s with pair := { s.pair with pReport := bs.take 64, level := some (BitVec.ofNat 8 (field bs 1 1)) } } else s
      let lanes := (List.range 256).filter fun l => decide (bitsAt (field bs (64 + l / 8) 1) (l % 8) 1 = 1)
      let clusters := (List.range 16).filter fun c => decide (bitsAt (field bs 96 2) c 1 = 1)
      let h : HealthView :=
        { at_ := s.clk, st := BitVec.ofNat 8 (field bs 6 1), epoch := BitVec.ofNat 32 (field bs 8 4), level := BitVec.ofNat 8 (field bs 1 1),
          flags := BitVec.ofNat 32 (field bs 32 4), lanes := lanes, clusters := clusters }
      let s := { s with pl := { s.pl with health := tput s.pl.health f.srcMod h, gone := s.pl.gone.filter fun q => decide (q ≠ pairOf f.srcMod) } }
      if f.srcMod = s.partner then s else s.takeLead)

/-! ### PREPARE, READY, REFUSE, ABANDON (R152, R263) -/

/-- The merged Access Guard table of a plan: the placer's rules and the configured ones (R294, R299). -/
def State.mergedRules (s : State) (p : ModPlan) : Table Rule := ruleTable (p.rules ++ s.guard.configured)

/-- Tasks on one lane: their windows lie below the reserve and apart, and their declared use fits the lane's memory (R92, R147). -/
def laneFits (p : ModPlan) (l : Nat) : Bool :=
  let ts := (p.tasks ++ p.staged).filter fun t => decide (t.lane = l)
  let below (w : W32) : Bool := decide ((winSpan w).1 < (winSpan w).2) && decide ((winSpan w).2 ≤ 496)
  decide ((ts.map (·.im)).sum ≤ laneMem) && decide ((ts.map (·.dm)).sum ≤ laneMem)
    && ts.all fun t => below t.xwinP && below t.xwinC && below t.dwinP && below t.dwinC
      && decide (t.codeP.length ≤ 256 * ((winSpan t.xwinP).2 - (winSpan t.xwinP).1)) && decide (t.codeC.length ≤ 256 * ((winSpan t.xwinC).2 - (winSpan t.xwinC).1))

/-- A module's own check of its part against its lanes and memory (R152, R299): the REFUSE reason, if any. -/
def State.planFault (s : State) (p : ModPlan) : Option Nat :=
  let ts := p.tasks ++ p.staged
  let bad := ts.any fun t => decide (256 ≤ t.lane) || (s.lane t.lane).retire || (s.lane t.lane).bgtest || !laneFits p t.lane
    || decide (0xFFFFF ≤ (t.outs.map (·.lii)).foldl max 0)
  if !tableOk (s.mergedRules p) then some 0x0001
  else if bad || decide (4096 < p.rules.length + s.guard.configured.length) then some 0x0003
  else none

/-- The epoch is prepared here: code linked and staged, the wait for GO begun (R152). -/
def State.stageEpoch (s : State) (e : W32) (leader : Nat) (loss : Bool) (p : ModPlan) (d : Domain) : State :=
  let s := (toLink s.pl.plan p).foldl (fun (s : State) t => s.linkTask t) s
  { s with pl := { s.pl with prep := some { epoch := e, leader := leader, loss := loss, plan := p, dom := d, go := none } } }.after .prepared (100 * msec)

/-- The plan records of a PREPARE once all of its fragments are here, in fragment order (R151). -/
def State.fragments (s : State) (f : Frame) : Option (List Byte) × State :=
  let n := field f.payload 14 2
  let data := f.payload.drop 24
  if n ≤ 1 then (some data, { s with pl := { s.pl with frags := none } })
  else
    let old := match s.pl.frags with
      | some x => if x.epoch = placeEpoch f ∧ x.src = f.srcMod ∧ x.total = n then x.parts else []
      | none => []
    let ps := tput old (field f.payload 12 2) data
    if (List.range n).all fun j => (tfind ps j).isSome then (some ((List.range n).flatMap (tget [] ps)), { s with pl := { s.pl with frags := none } })
    else (none, { s with pl := { s.pl with frags := some { epoch := placeEpoch f, src := f.srcMod, total := n, parts := ps } } })

/-- PREPARE (R138, R146, R151, R152, R155): its fragments gathered; checked, linked, staged and answered. -/
def execPrepare (p : Port) (f : Frame) (plan : ModPlan) (dom : Domain) (s : State) : PlaceAnswer :=
  .next (
    let (ok, s) := s.placeAs p f (some (.plan (placeEpoch f) (placeLoss f) plan dom)) 0x02
    if !ok then s
    else
      let s := s.alive f
      let e := placeEpoch f
      if s.pl.leader ≠ some (pairOf f.srcMod) then s.answerPlace f 0x06 0x0002
      else match s.fragments f with
        | (none, s) => s
        | (some data, s) =>
          if crc32c data ≠ BitVec.ofNat 32 (field f.payload 16 4) then s.answerPlace f 0x06 0x0001
          else if s.pl.prep.any fun x => decide (x.epoch ≠ e) && x.go.isSome then s.answerPlace f 0x06 0x0004
          else match s.planFault plan with
            | some r => s.answerPlace f 0x06 r
            | none => (s.stageEpoch e f.srcMod (placeLoss f) plan dom).answerPlace f 0x03 0)

/-- ABANDON leaves to every addressed module, and the leader's own part is discarded (R152). -/
def State.abandonIssue (s : State) (i : Issue) : State :=
  let s := i.mods.foldl (fun (s : State) m => if m = s.module then s else s.sendPlace m 0x05 (Work.isLoss i.work) i.epoch 0 0) s
  let mine := s.pl.prep.any fun x => decide (x.epoch = i.epoch)
  let s := if mine then { s with pl := { s.pl with prep := none } }.disarm .prepared else s
  { s with pl := { s.pl with issue := none } }.disarm .readyWait

/-- Work goes to the back of the leader's list. -/
def State.addWork (s : State) (w : Work) (req : Option (ReqSrc × W16 × W16)) : State :=
  { s with pl := { s.pl with todo := s.pl.todo ++ [(w, req)] } }

def Work.isRevert : Work → Option Nat
  | .revert p _ => some p
  | _ => none

/-- Works with the 100 ms limit of R263 (R263, R268). -/
def Work.timed : Work → Bool
  | .switch _ _ _ _ | .revert _ _ => true
  | _ => false

/-- What follows an abandoned epoch: a revert is tried again after 1 s, a request is answered, other work is computed again (R152, R263, R268). -/
def State.afterAbandon (s : State) (i : Issue) (st : Option Status) : State :=
  match Work.isRevert i.work, st with
  | some p, _ => (match st with | some x => s.answerTo i.req x 0 [] | none => s).after (.revertRetry p) sec
  | none, some x => s.answerTo i.req x 0 []
  | none, none => { s with pl := { s.pl with todo := (i.work, i.req) :: s.pl.todo } }

/-- The answer that a REFUSE brings a request: of a switch or a revert the reason, of GUARD_COMMIT a failed check; other work is computed again (R152, R263, R299). -/
def Work.refused (w : Work) (reason : Nat) : Option Status :=
  match reason with
  | 0x0001 => if Work.timed w || decide (w = .guard) then some .checkFail else none
  | 0x0003 => if Work.timed w then some .noRoom else none
  | _ => none

/-- REFUSE (R152, R263, R299). -/
def execRefuse (p : Port) (f : Frame) (s : State) : PlaceAnswer :=
  .next (
    let (ok, s) := s.place p f 0x06
    if !ok then s
    else
      let s := s.alive f
      match s.pl.issue with
      | none => s
      | some i =>
        if i.epoch ≠ placeEpoch f || i.go.isSome || decide (f.srcMod ∉ i.mods) then s
        else (s.abandonIssue i).afterAbandon i (Work.refused i.work (placeReason f)))

/-- EPOCH_READY_TIMEOUT (R263): 100 ms from the first PREPARE of a switch. -/
def execEpochReadyTimeout (s : State) : PlaceAnswer :=
  .next (if !s.expired .readyWait then s
    else match s.pl.issue with
      | some i => if i.go.isNone then (s.abandonIssue i).afterAbandon i (some .timeout) else s.disarm .readyWait
      | none => s.disarm .readyWait)

/-- The epoch response of R336. -/
def epochResponse (e : W32) (apply : W64) : List Byte := leBytes 4 e.toNat ++ leBytes 4 0 ++ leBytes 8 apply.toNat

/-- The first boundary of the partition's slowest class at or after an instant that is one of the slowest affected class too; where the two never coincide, one of the slowest affected class (R153, R263). -/
def State.applyBoundary (s : State) (d : Domain) (ks mine : List Nat) (t : W64) : W64 :=
  let k := s.slowest ks
  let own := (s.slowest mine).orElse fun _ => k
  match k, own with
  | some k, some o =>
    let first := (s.cls_ o).nextBoundary t
    let step := BitVec.ofNat 64 (domPeriod d o * usec)
    let turns := domPeriod d k / max (Nat.gcd (domPeriod d k) (domPeriod d o)) 1
    (((List.range (turns + 1)).map fun i => first + BitVec.ofNat 64 i * step).find? fun b => (s.cls_ k).atBoundary b).getD ((s.cls_ k).nextBoundary t)
  | _, _ => t

/-- The apply instant (R153, R263, R42). -/
def State.applyInstant (s : State) (i : Issue) : W64 :=
  let t := s.now + BitVec.ofNat 64 msec
  if Work.isLoss i.work || i.affects.isEmpty then roundUpUs s.now msec
  else
    let nb : W64 := match i.work with | .switch _ n _ _ => n | _ => 0
    let t := if since t nb < 0 then nb else t
    let mine := match Work.changes i.work with
      | some p => ((i.dom.packages.filter fun g => decide (Package.of g = p)).map (·.task.cls)).eraseDups
      | none => []
    s.applyBoundary i.dom i.affects mine t

/-- Sends GO to every addressed module (R152). -/
def State.sendGo (s : State) (i : Issue) (apply : W64) : State :=
  i.mods.foldl (fun (s : State) m => if m = s.module then s else s.sendPlace m 0x04 (Work.isLoss i.work) i.epoch (lo32 apply) 0) s

/-- A GO is held: the apply instant and the comparison 500 µs before it (R153, R154). -/
def State.holdGo (s : State) (apply : W64) : State :=
  match s.pl.prep with
  | none => s
  | some x =>
    let s := { s with pl := { s.pl with prep := some { x with go := some apply } } }.disarm .prepared
    (s.after .goCompare ((since apply s.now).toNat - 500 * usec)).goNearHand

/-- The first GO (R135, R152, R153): the placer state is mirrored to the partner, the command answered. -/
def State.firstGo (s : State) (i : Issue) : State :=
  let apply := s.applyInstant i
  let s := if s.partnerStandby then s.toPartner (.placer { epoch := i.epoch, dom := i.dom }) else s
  let s := (s.sendGo i apply).holdGo apply
  let s := { s with pl := { s.pl with issue := some { i with go := some apply } } }
  let s := (s.disarm .readyWait).after .goRepeat (100 * usec)
  s.answerTo i.req .ok 0 (epochResponse i.epoch apply)

/-- One module more is READY. -/
def State.markReady (s : State) (i : Issue) (m : Nat) : State :=
  let i := { i with ready := if m ∈ i.ready then i.ready else m :: i.ready }
  let s := { s with pl := { s.pl with issue := some i } }
  if i.go.isNone && i.mods.all fun x => decide (x ∈ i.ready) then s.firstGo i else s

/-- READY (R135, R152). -/
def execReady (p : Port) (f : Frame) (s : State) : PlaceAnswer :=
  .next (
    let (ok, s) := s.place p f 0x03
    if !ok then s
    else
      let s := s.alive f
      match s.pl.issue with
      | some i => if i.epoch = placeEpoch f ∧ f.srcMod ∈ i.mods then s.markReady i f.srcMod else s
      | none => s)

/-- GO_REPEAT (R152): every 100 µs until 500 µs before the apply instant. -/
def execGoRepeat (s : State) : PlaceAnswer :=
  .next (match s.pl.issue with
    | some i => match i.go with
      | some a =>
        if !s.expired .goRepeat then s
        else if since a s.now < (500 * usec : Nat) then s.disarm .goRepeat
        else (s.sendGo i a).again .goRepeat (100 * usec)
      | none => s
    | none => s.disarm .goRepeat)

/-- GO (R138, R151 to R153). -/
def execGo (p : Port) (f : Frame) (s : State) : PlaceAnswer :=
  .next (
    let (ok, s) := s.place p f 0x04
    if !ok then s
    else
      let s := s.alive f
      if s.pl.leader ≠ some (pairOf f.srcMod) then s.answerPlace f 0x06 0x0002
      else match s.pl.prep with
        | some x => if x.epoch = placeEpoch f ∧ x.go.isNone then s.holdGo (extAfter s.now (placeApply f)) else s
        | none => s)

/-- ABANDON (R152). -/
def execAbandon (p : Port) (f : Frame) (s : State) : PlaceAnswer :=
  .next (
    let (ok, s) := s.place p f 0x05
    if !ok then s
    else
      let s := s.alive f
      match s.pl.prep with
      | some x => if x.epoch = placeEpoch f ∧ x.go.isNone then { s with pl := { s.pl with prep := none } }.disarm .prepared else s
      | none => s)

/-- PREPARED_EPOCH_TIMEOUT (R152): no GO within 100 ms of READY. -/
def execPreparedEpochTimeout (s : State) : PlaceAnswer :=
  .next (if !s.expired .prepared then s
    else match s.pl.prep with
      | some x => if x.go.isNone then { s with pl := { s.pl with prep := none } }.disarm .prepared else s.disarm .prepared
      | none => s.disarm .prepared)

/-- GO_COMPARE_INSTANT (R154): 500 µs before the apply instant. -/
def execGoCompareInstant (s : State) : PlaceAnswer :=
  .next (match s.pl.prep with
    | some x =>
      if s.expired .goCompare ∧ x.go.isSome then
        let s := s.disarm .goCompare
        if s.portUp .pl && !s.unpaired then s.toPartner (.goCmp { epoch := x.epoch, go := x.go }) else s
      else s
    | none => s)

/-- GO_CMP (R154): a missing GO is taken from the partner. -/
def execGoCmp (m : GoMsg) (s : State) : PlaceAnswer :=
  .next (match s.pl.prep, m.go with
    | some x, some a => if x.epoch = m.epoch ∧ x.go.isNone ∧ s.portUp .pl then s.holdGo a else s
    | _, _ => s)

/-! ### Issuing an epoch (R139, R152, R155) -/

/-- Reverts that wait for a quorum are deferred (R269). -/
def State.deferReverts (s : State) : State :=
  let (s, todo) := s.pl.todo.foldl (init := ((s, []) : State × List (Work × Option (ReqSrc × W16 × W16)))) fun (s, ws) q => match q with
    | (.revert p 1, r) => (s.record 0x0703 p s.module (BitVec.ofNat 32 p) 0 0 0, ws ++ [(.revert p 2, r)])
    | _ => (s, ws ++ [q])
  { s with pl := { s.pl with todo := todo } }

/-- Work that may be taken up now: a switch waits until its instant can be named in a GO (R263; log 18). -/
def State.workReady (s : State) (w : Work) : Bool :=
  match w with
  | .switch _ nb _ _ => decide (since nb s.now ≤ (3 * sec : Nat))
  | _ => true

/-- Pairs found lost whose loss epoch is still to be issued. -/
def State.lossesDue (s : State) : List Nat := (s.pl.todo.flatMap fun q => Work.lost q.1).eraseDups

/-- The work taken up next: the pairs found lost, all in one epoch, then what can be taken up in order (R155). -/
def State.nextWork (s : State) : Option (Work × Option (ReqSrc × W16 × W16)) :=
  if s.lossesDue.isEmpty then s.pl.todo.find? fun q => s.workReady q.1 else some (.loss s.lossesDue, none)

/-- Work is taken from the list. -/
def State.takeWork (s : State) (w : Work) (req : Option (ReqSrc × W16 × W16)) : State :=
  let todo := if Work.isLoss w then s.pl.todo.filter fun q => !Work.isLoss q.1 else s.pl.todo.erase (w, req)
  { s with pl := { s.pl with todo := todo } }

/-- A switch of a partition that is LOADED as it is taken up ends its change too (R266). -/
def State.asOfNow (s : State) (w : Work) : Work :=
  match w with
  | .switch p nb win _ => .switch p nb win (decide ((s.part? p).map (·.state) = some .loaded))
  | _ => w

/-- A loss found before GO makes the leader abandon the epoch it is issuing (R155). -/
def State.preempt (s : State) : State :=
  match s.pl.issue with
  | some i => if s.lossesDue.isEmpty || i.go.isSome then s else (s.abandonIssue i).afterAbandon i (if Work.timed i.work then some .notNow else none)
  | none => s

/-- A PREPARE to a module: the header of R151; the plan that follows it is of internal layout. -/
def State.sendPrepare (s : State) (m : Nat) (e : W32) (loss : Bool) (p : ModPlan) (d : Domain) : State :=
  s.sendRouted (s.mkFrame 5 0 m 0 s.now32 (placePayload 0x02 loss s.module e 0 (crc32c []) 0 0)) (some (.plan e loss p d))

/-- PREPARE leaves to every addressed module, the leader stages its own part (R152). -/
def State.issueEpoch (s : State) (w : Work) (req : Option (ReqSrc × W16 × W16)) (e : W32) (d : Domain) : State :=
  let mods := s.addressed_ w d
  let plan (m : Nat) : ModPlan := (tfind d.mods m).getD emptyPlan
  let loss := Work.isLoss w
  let i : Issue := { epoch := e, work := w, dom := d, mods := mods, ready := [], go := none,
                     affects := (mods.flatMap fun m => (plan m).affected).eraseDups, req := req }
  let s := mods.foldl (fun (s : State) m => if m = s.module then s else s.sendPrepare m e loss (plan m) d) s
  let s := { s with pl := { s.pl with issue := some i } }
  let s := if Work.timed w then s.after .readyWait (100 * msec) else s
  match s.planFault (plan s.module) with
  | some r => (s.abandonIssue i).afterAbandon i (Work.refused w r)
  | none => (s.stageEpoch e s.module loss (plan s.module) d).markReady i s.module

/-- EPOCH_ISSUE (R139 to R152, R155, R165, R168): the leader takes up work, computes the plan and sends PREPARE; a loss abandons an epoch that has had no GO; without a quorum it records that. -/
def execEpochIssue (s : State) : PlaceAnswer :=
  .next (if !s.leads then s
    else if !s.quorum then s.noQuorum.deferReverts
    else
      let s := s.preempt
      if s.pl.issue.isSome || s.pl.prep.isSome then s
      else match s.nextWork with
        | none => s
        | some (w, req) =>
          let s := s.takeWork w req
          let w := s.asOfNow w
          let e : W32 := s.topEpoch + 1
          match s.computePlan w e with
          | .inl st => (match Work.isRevert w with | some p => s.after (.revertRetry p) sec | none => s).answerTo req st 0 []
          | .inr d => s.issueEpoch w req e d)

/-! ### The apply instant (R153) -/

/-- What runs on this module now, class by class, as one plan. -/
def State.running (s : State) : ModPlan :=
  let all {α : Type} (f : Nat → List α) : List α := (List.range 8).flatMap f
  { s.pl.plan with
    tasks := all s.tasksOf
    sets := all fun k => (s.planOf k).sets.filter fun x => decide (x.cls = k)
    subs := all fun k => (s.planOf k).subs.filter fun x => decide (x.cls = k)
    copies := all fun k => (s.planOf k).copies.filter fun x => decide (x.cls = k)
    lii := all fun k => (s.planOf k).lii.filter fun x => decide (x.cls = k) }

/-- CAN words of copies are found in the channels' objects by VID (R405). -/
def State.canSource (s : State) (vid : W32) : CopySrc :=
  match s.can.findSome? fun (c, x) => (List.range x.objs.length).findSome? fun o => (x.objs[o]?).bind fun b =>
      ((List.range b.cfg.vids.length).find? fun w => decide (b.cfg.vids[w]? = some vid)).map fun w => (c, o, w) with
  | some (c, o, w) => .canWord c o w
  | none => .io

/-- An I/O copy that is not a trip word names the CAN object that declares its VID, if any does. -/
def State.bindCan (s : State) (p : ModPlan) : ModPlan :=
  { p with copies := p.copies.map fun c => match c.src with
      | .io | .canWord _ _ _ => { c with src := s.canSource c.vid }
      | _ => c }

def Change.num : Change → Nat
  | .none => 0 | .staged => 1 | .unconfirmed => 2

/-- A partition as the placer state gives it to a module that did not know it. -/
def newPart (x : PartPlan) : Part :=
  { cfg := x.cfg, order := x.order, state := .loaded, limit := 3, mismatchSafe := decide (x.cfg.crit = .p), faultSafe := decide (x.cfg.crit = .p),
    pend := none, was := .loaded, entered := [], later := [], pendProfile := none, profEntered := [], owedFrom := [], change := .none, applyAt := 0, window := 0,
    reverting := false, stagedLen := 0, stagedCrc := 0, keepStaged := false }

/-- CHANGE notice and CHANGE_REVERTED where the change state moves (R256, R268, R348). -/
def State.changeMoved (s : State) (p : Nat) (old new : Change) (cause : Nat) (reverted : Bool) (e : W32) (a : W64) : State :=
  if old = new then s
  else
    let s := if reverted then s.record 0x0702 p s.module (BitVec.ofNat 32 p) (BitVec.ofNat 32 (bit (decide (cause ≠ 0)))) 0 0 else s
    s.notifyBoth p 0xF004 (leBytes 2 p ++ [BitVec.ofNat 8 (Change.num old), BitVec.ofNat 8 (Change.num new), BitVec.ofNat 8 cause, 0, 0, 0]
      ++ leBytes 4 e.toNat ++ leBytes 8 a.toNat)

/-- One partition follows the placer state at the apply instant (R43, R256, R266). -/
def State.syncPart (s : State) (x : PartPlan) (e : W32) (a : W64) : State :=
  let p := x.cfg.part
  let y := (s.part? p).getD (newPart x)
  let prof := if x.cfg.profile = y.cfg.profile then y.pendProfile else some (x.cfg.profile, a)
  let moved := decide (y.change ≠ x.change)
  let z := { y with cfg := { x.cfg with profile := y.cfg.profile }, order := x.order, pendProfile := prof,
                    profEntered := if x.cfg.profile = y.cfg.profile then y.profEntered else [], change := x.change,
                    applyAt := if moved && decide (x.change = .unconfirmed) then a else y.applyAt, window := x.window,
                    reverting := if moved then false else y.reverting,
                    keepStaged := y.keepStaged && !(moved && decide (x.change = .none)) }
  (s.setPart p z).changeMoved p y.change x.change x.cause x.reverted e a

/-- A partition that is no longer there: its sessions close (R348). -/
def State.dropPart (s : State) (p : Nat) : State :=
  let gone := s.mb.sessions.filter fun x => decide (x.part = p)
  let s := gone.foldl (fun (s : State) x => (s.sessionClosed x 3).endSession x) s
  { s with parts := terase s.parts p, nv := { s.nv with keys := terase s.nv.keys p } }

/-- Forces on variables that the epoch takes out of the domain are released (R58, R267, R268). -/
def State.releaseForces (s : State) (old new : ModPlan) (d : Domain) : State :=
  let gone (f : Force) : Bool := old.lii.any fun e => !e.replica && decide (e.vid = f.vid) && !(new.lii.any fun n => !n.replica && decide (n.declared = e.declared))
    && !(d.mods.any fun m => m.2.lii.any fun n => !n.replica && decide (n.declared = e.declared))
  (s.forces.filter gone).foldl (init := { s with forces := s.forces.filter fun f => !gone f }) fun s f => s.recordForceClear f.vid f.part

/-- Records and notices of guarantees broken and restored (R170, R171): the leader records, each module tells its own mailboxes. -/
def State.tellGuarantee (s : State) (e : W32) (b : Broken) : State :=
  let s := if s.leads then
      (if b.restored then s.record 0x0406 b.victim s.module (BitVec.ofNat 32 b.victim) (BitVec.ofNat 32 b.resource) (BitVec.ofNat 32 b.amount) 0
       else s.record 0x0405 b.victim s.module (BitVec.ofNat 32 b.victim) (BitVec.ofNat 32 b.beneficiary) (BitVec.ofNat 32 b.step) (BitVec.ofNat 32 b.amount))
    else s
  s.notifyBoth b.victim 0xF002 ([BitVec.ofNat 8 (bit b.restored), BitVec.ofNat 8 b.step] ++ leBytes 2 b.victim ++ leBytes 2 b.beneficiary
    ++ [BitVec.ofNat 8 b.resource, 0] ++ leBytes 4 b.amount ++ leBytes 4 e.toNat)

/-- Requests held for this epoch are handled (R162). -/
def State.releaseHeld (s : State) (e : W32) : State :=
  let (now, later) := s.pl.held.partition fun h => decide ((h.1.epoch - e).toInt ≤ 0)
  now.foldl (fun (s : State) h => s.takeReq h.1 h.2.2) { s with pl := { s.pl with held := later } }

/-- The class table of the epoch: a class whose period or phase changes starts anew, unless a RUNNING partition uses it (R30). -/
def State.syncClasses (s : State) (cs : Table (Nat × Nat)) : State :=
  cs.foldl (init := s) fun s (k, (pe, ph)) =>
    let c := s.cls_ k
    if (c.period = pe ∧ c.phase = ph) ∨ !s.classFree k then s else s.setCls k { c with period := pe, phase := ph, bnd := none, prevBnd := none, frozen := none, freezing := none }

/-- The epoch becomes current on this module (R153, R161, R256, R258, R299). -/
def State.applyEpoch (s : State) (x : Prep) (a : W64) : State :=
  let old := s.pl.plan
  let hist := s.plansKept.take 2
  let streams := s.pl.migr.filter fun m => (if m.incoming then x.plan.migrIn else x.plan.migrOut).any fun q => decide (q.1 = m.task)
  let fwd := (s.pl.fwd.filter fun q => decide ((x.epoch - q.2.2.2).toInt < 2)) ++ x.plan.moved.map fun m => (m.1, m.2.1, m.2.2, x.epoch)
  let now := s.running
  let removed := (s.pl.dom.parts.map (·.cfg.part)).filter fun p => !x.dom.parts.any fun y => decide (y.cfg.part = p)
  let s := s.releaseForces old x.plan x.dom
  let s := { s with pl := { s.pl with epoch := x.epoch, plan := s.bindCan x.plan, old := now, dom := x.dom, history := hist, lastApply := a, fwd := fwd,
                                      prep := none, asked := none, migr := streams },
                    guard := { s.guard with active := s.mergedRules x.plan, done := true },
                    nv := s.nv.follow x.plan x.dom }
  let s := x.plan.affected.foldl (fun (s : State) k => s.setCls k { s.cls_ k with switched := false }) s
  let s := s.syncClasses x.dom.classes
  let s := removed.foldl (fun (s : State) p => s.dropPart p) s
  let s := x.dom.parts.foldl (fun (s : State) y => s.syncPart y x.epoch a) s
  let s := s.record 0x040A 0 s.module x.epoch (BitVec.ofNat 32 (bit x.loss)) 0 0
  let s := x.dom.news.foldl (fun (s : State) b => s.tellGuarantee x.epoch b) s
  let s := if s.leads then x.dom.safes.foldl (fun (s : State) q => s.safeTrigger q.1 q.2) s else s
  let s := match s.pl.issue with
    | some i => if i.epoch = x.epoch then { s with pl := { s.pl with issue := none } }.disarm .goRepeat else s
    | none => s
  ((s.disarm .goCompare).releaseHeld x.epoch).handAgain

/-- EPOCH_APPLY (R58, R60, R146, R153, R161, R162, R166, R170, R258): the apply instant has come. -/
def execEpochApply (s : State) : PlaceAnswer :=
  .next (match s.pl.prep with
    | some x => match x.go with
      | some a => if reached a s.now then s.applyEpoch x a else s
      | none => s
    | none => s)

/-! ### Loss of a pair (R164) -/

/-- PAIR_LOST_DETECT (R155, R164): 3 ms without HEALTH from either module, then 100 µs without an answer to the queries. -/
def execPairLostDetect (pair : Fin 2048) (s : State) : PlaceAnswer :=
  .next (
    let q := 2 * pair.val
    let silent (m : Nat) : Bool := match tfind s.pl.health m with
      | some h => decide (3 * msec ≤ s.clk - h.at_)
      | none => true
    let known := decide (q ∉ s.pl.gone) && ((tfind s.pl.health q).isSome || (tfind s.pl.health (q + 1)).isSome || (tfind s.pl.dom.mods q).isSome)
    if !s.leads || decide (q ∉ s.pairs) || decide (q = pairOf s.module) || !known || !silent q || !silent (q + 1) then s
    else if q ∉ s.pl.queries then
      let s := ([q, q + 1].foldl (fun (s : State) m => s.queryModule m) s).after (.pairQuery q) (100 * usec)
      { s with pl := { s.pl with queries := q :: s.pl.queries } }
    else if !s.expired (.pairQuery q) then s
    else
      let s := s.disarm (.pairQuery q)
      let s := { s with pl := { s.pl with queries := s.pl.queries.filter fun x => decide (x ≠ q), health := terase (terase s.pl.health q) (q + 1),
                                          todo := s.pl.todo ++ [(Work.loss [q], none)], gone := q :: s.pl.gone } }
      s.record 0x0403 0 s.module (BitVec.ofNat 32 q) s.pl.epoch 0 0)

/-! ### Migration streams (R145, R157 to R159) -/

/-- Puts newer entries over older ones. -/
def overlay {α β : Type} [DecidableEq α] (new old : List (α × β)) : List (α × β) := new ++ old.filter fun x => !new.any fun y => decide (y.1 = x.1)

/-- MIGRATION_DELTA (R145, R157): on a module of the new pair; a delta counts only over a complete predecessor. -/
def execMigrationDelta (p : Port) (f : Frame) (d : DeltaMsg) (s : State) : PlaceAnswer :=
  .next (
    let r := s.receiveAs p f (some (.delta d))
    if !r.deliver then r.s
    else
      let s := r.s.alive f
      let incoming := (s.pl.plan.migrIn ++ (s.pl.prep.map (·.plan.migrIn)).getD []).find? fun q => decide (q.1 = d.task)
      match incoming with
      | none => s
      | some (_, other) =>
        if pairOf f.srcMod ≠ other || !d.complete then s
        else
          let old := s.pl.migr.find? fun m => m.incoming && decide (m.task = d.task)
          let rest := s.pl.migr.filter fun m => !(m.incoming && decide (m.task = d.task))
          let fits := d.image || (old.map (·.newest)) = some (d.number - 1)
          if !fits then s
          else
            let m : Migr :=
              { task := d.task, other := other, incoming := true, newest := d.number, final := d.final,
                past := if d.image then [] else (old.map fun m => ({ number := m.newest, words := m.words, dm := m.dm, forces := m.forces } : Snap) :: m.past).getD [],
                words := overlay d.words ((old.map (·.words)).getD []), dm := overlay d.dm ((old.map (·.dm)).getD []), forces := d.forces,
                agreed := none }
            { s with pl := { s.pl with migr := m :: rest } })

/-- The next boundary of a class is the switch boundary of an incoming unit, and at most 5 µs away (R158). -/
def State.switchNear (s : State) (k : Nat) : Bool :=
  let c := s.cls_ k
  let b := c.nextBoundary s.now
  let apply := match s.pl.prep with
    | some x => x.go
    | none => if c.switched then none else some s.pl.lastApply
  match apply with
  | some a => reached a b && decide (since b s.now ≤ (5 * usec : Nat))
  | none => false

/-- DELTA_AGREEMENT (R158, R159): 5 µs before the switch boundary each module of the new pair tells the other its newest delta, and the unit starts from the newest that both hold complete. -/
def execDeltaAgreement (task : W32) (partnerNewest : Nat) (s : State) : PlaceAnswer :=
  .next (
    let here := s.pl.plan.tasks ++ (s.pl.prep.map (·.plan.tasks)).getD []
    match here.find? fun t => decide (t.task = task), s.pl.migr.find? fun m => m.incoming && decide (m.task = task) with
    | some t, some m =>
      if !s.switchNear t.cls || m.agreed.isSome then s
      else
        let agreed (x : Migr) : Migr := if x.incoming ∧ x.task = task then { x with agreed := some (min m.newest partnerNewest) } else x
        { s with pl := { s.pl with migr := s.pl.migr.map agreed } }.toPartner (.agree task m.newest)
    | _, _ => s)

/-! ### Held frames and SAFE notices -/

/-- HELD_FRAME_EXPIRY (R162): the epoch has not been applied within 1 ms. -/
def execHeldFrameExpiry (s : State) : PlaceAnswer :=
  .next (
    let (gone, kept) := s.pl.held.partition fun h => decide (h.2.1 ≤ s.clk)
    let s := { s with pl := { s.pl with held := kept } }
    let s := gone.foldl (fun (s : State) h => s.staleFrame h.1) s
    if kept.isEmpty then s.disarm .held else s)

/-- SAFE_NOTICE (R61): the earliest entry instant counts. -/
def execSafeNotice (p : Port) (f : Frame) (part : Fin 512) (entry : W64) (code : W16) (s : State) : PlaceAnswer :=
  .next (
    let r := s.receiveAs p f (some (.safeNotice part entry code.toNat))
    if !r.deliver then r.s
    else match r.s.part? part with
      | some x => (r.s.alive f).setPart part (x.orderSafe entry code.toNat)
      | none => r.s.alive f)

end Sys2Proof.Machine
end

