-- ==== Sys2Proof/Machine/CmdOps.lean ====
section
/-! DEFINITION. What command rows share: the effect of a P command mirrored to the partner, of an L command carried to the other modules of the domain (R330), fields of R332 and R339 to R345, and resets by command (R277, R345). -/
namespace Sys2Proof.Machine

abbrev CmdAnswer := Host.Outcome State Fault Refusal

/-- The ACTIVE module mirrors a pair command to its standby before it answers, with what it has decided behind the payload (R330; log 11). -/
def State.mirrorCmd (s : State) (r : Request) (extra : List Byte) : State :=
  if s.active ∧ s.partnerStandby then s.sendReq s.partner { s.reqMsg r none with payload := r.payload ++ extra } else s

/-- The leader carries a domain command to every other module that holds the placer state, with what the leader has decided behind the payload (R330; log 11). -/
def State.spread (s : State) (r : Request) (extra : List Byte) : State :=
  if s.executor .leader then
    (s.pl.dom.mods.map (·.1)).foldl (init := s) fun s m =>
      if m = s.module then s else s.sendReq m { s.reqMsg r none with payload := r.payload ++ extra }
  else s

/-- What the leader has put behind the payload: a 64-bit instant. -/
def Request.leaderInstant (r : Request) : W64 := BitVec.ofNat 64 (field r.payload (r.payload.length - 8) 8)

/-- The partition field of R339 and R340. -/
def Request.partAt4 (r : Request) : Nat := field r.payload 4 2

/-- The partition is commissioned (R37, R489). -/
def State.partThere (s : State) (p : Nat) : Bool × Status := ((s.part? p).isSome, .checkFail)

/-- The classes of a partition's tasks in the version in force (R31). -/
def Domain.classesIn (d : Domain) (p : Nat) : List Nat :=
  ((d.packages.filter fun g => decide (Package.of g = p)).map (·.task.cls)).eraseDups

/-- The next boundary of a partition's slowest class; now where it has no task (R63). -/
def State.nextSlowest (s : State) (p : Nat) : W64 :=
  match s.slowest (Domain.classesIn s.pl.dom p) with
  | some k => (s.cls_ k).nextBoundary (s.now + 1)
  | none => s.now

/-! ### Resets by command (R277, R345) -/

/-- FLAGS of R345: bits 31 to 1 are 0. -/
def flagsOk (r : Request) : Bool × Status := (decide (field r.payload 0 4 < 2), .checkFail)

/-- STOP_OK (R345). -/
def Request.stopOk (r : Request) : Bool := decide (field r.payload 0 4 % 2 = 1)

/-- An ACTIVE module needs STOP_OK; a module in STANDBY, SERVICE, SAFE or RECOVERY does not (R277, R285, R345). -/
def State.mayStop (s : State) (r : Request) : Bool × Status :=
  (match s.mod.st with
    | .active => r.stopOk
    | .synced | .unsynced | .service | .safe | .recovery => true
    | _ => false, .notNow)

/-- The response is filled, and 10 ms later the module resets with a cause (R345, R453). -/
def State.resetBy (s : State) (r : Request) (cause : Byte) : State :=
  let s := { s with mod := { s.mod with resetDue := some cause } }.after .delayedReset (10 * msec)
  s.okay r []

end Sys2Proof.Machine
end

