-- ==== Sys2Proof/Machine/ForceCmds.lean ====
section
/-! DEFINITION. Commands 0x07xx (R54 to R59, R335, R342): forces and reading variables. -/
namespace Sys2Proof.Machine

/-! ### Variables and their homes (R142, R143) -/

/-- The current VID that a declared VID or an earlier current VID stands for (R143, R161). -/
def State.currentVid (s : State) (vid : W32) : W32 :=
  let v := s.resolve vid
  match s.pl.fwd.find? fun q => decide (q.1 = v) with
  | some q => if q.2.2.1 = 0 then v else q.2.2.1
  | none => v

/-- The entry of a variable at its home, as the placer state has it. -/
def State.homed (s : State) (vid : W32) : Option LiiEntry :=
  let v := s.currentVid vid
  s.pl.dom.mods.findSome? fun m => m.2.lii.find? fun e => decide (e.vid = v) && !e.replica

/-- The pair that bits 31 to 20 of the current VID name (R8, R143). -/
def State.homePair (s : State) (vid : W32) : Nat := (s.currentVid vid).toNat / 2 ^ 20

/-- The VID of R342. -/
def Request.vid (r : Request) : W32 := BitVec.ofNat 32 (field r.payload 4 4)

/-- The force right (R55, R333): as own; 0 for P, and for a user partition only with FORCE_OK. -/
def State.forceRight (s : State) (r : Request) : Bool × Status :=
  (match s.homed r.vid with
    | none => true
    | some e =>
      decide (r.part = 0) || (decide (r.part = e.part) && match domPart s.pl.dom e.part with
        | some x => decide (x.cfg.crit ≠ .p) && x.cfg.forceOk
        | none => false), .denied)

/-- The write that the force right grants, on the variable's page (R55, R333); partition 0 needs none. -/
def State.forceAccess (s : State) (r : Request) (e : LiiEntry) : Bool × State :=
  if r.part = 0 then (true, s)
  else
    let a : Access := { part := r.part, master := .host, kind := .w, source := srcIx r.src, addr := imgAddr (s.nextBank e.cls) e.lii, len := 8 }
    let (ok, s) := s.guardCheck a
    (ok, if ok then s else s.recordDeny a)

/-- A trip output that a Safety Checker drives takes its value from this variable (R59). -/
def State.drivesChecked (s : State) (vid : W32) : Bool :=
  (List.range 16).any fun m => decide (outOwner (cfgOut s.trip.image m) = 2) && decide ((s.claim m).map (·.2) = some vid)

/-- Force commands on one VID run in the order in which they came (R342). -/
def State.forceTurn (s : State) (q : ReqSrc) (code : Nat) : Bool :=
  match s.reqOf q code with
  | none => true
  | some r =>
    (s.mb.queue.takeWhile fun x => !(decide (x.src = r.src) && decide (x.seq = r.seq))).all fun x =>
      x.running || !(decide (x.cmd = 0x0701) || decide (x.cmd = 0x0702)) || decide (s.currentVid x.vid ≠ s.currentVid r.vid)

/-- Forces held on this module. -/
def maxForces : Nat := 4096

/-- A change goes to the partner with its E and is answered when it is acknowledged, or at E (R56). -/
def State.openForce (s : State) (m : ForceMsg) (req : Option (ReqSrc × W16 × W16)) : State :=
  let s := { s with pair := { s.pair with forceChg := s.pair.forceChg ++ [({ msg := m, req := req, acked := false } : ForceChg)] } }
  let s := if s.partnerStandby then s.toPartner (.force m) else s
  let s := if s.armed .forceRepeat then s else s.after .forceRepeat (20 * usec)
  s.after .forceEffective (200 * usec)

/-- E of R56: 200 µs after the first sending, rounded up to a whole microsecond. -/
def State.forceInstant (s : State) : W64 := roundUpUs s.now (200 * usec)

/-- Checks of FORCE_SET (R55, R59, R342); those that need the home only there. -/
def State.forceSetChecks (s : State) (r : Request) : List (Bool × Status) :=
  let chk := field r.payload 16 2
  [lenIs r 24, s.forceRight r, s.epochIs r,
    (match s.homed r.vid with
      | some e => decide (chk < 2 ^ 15) || decide (chk % 4 = tagNum e.tag)
      | none => false, .checkFail),
    (!s.drivesChecked (s.currentVid r.vid), .denied),
    (s.liveForces.any (fun f => decide (f.vid = s.currentVid r.vid)) || decide (s.liveForces.length < maxForces), .noRoom)]

/-- A force is set at the home (R54 to R57). -/
def State.setForce (r : Request) (s : State) : State :=
  let vid := s.currentVid r.vid
  let val : W64 := BitVec.ofNat 64 (field r.payload 8 8)
  match s.homed r.vid with
  | none => s.refuse r .checkFail
  | some e =>
    let (ok, s) := s.forceAccess r e
    if !ok then s.refuse r .denied
    else
      let t := s.forceInstant
      let s := ((s.started r).putForce vid val r.part t).recordForceSet vid val r.part
      s.openForce (.set vid val r.part t) (some r.key)

/-- FORCE_SET (R54 to R59, R342). -/
def execForceSet (q : ReqSrc) (s : State) : CmdAnswer :=
  .next (if !s.forceTurn q 0x0701 then s
    else s.command q 0x0701 (fun r => .home (s.homePair r.vid)) s.forceSetChecks State.setForce)

/-- A force is removed at the home (R56, R57, R342); DETAIL is 0 where none was in place. -/
def State.clearForce (r : Request) (s : State) : State :=
  let vid := s.currentVid r.vid
  if !s.liveForces.any fun f => decide (f.vid = vid) then s.answer r .ok 0 []
  else
    let t := s.forceInstant
    let s := ((s.started r).dropForce vid t).recordForceClear vid r.part
    s.openForce (.clear vid r.part t) (some r.key)

/-- FORCE_CLEAR (R55 to R57, R342). -/
def execForceClear (q : ReqSrc) (s : State) : CmdAnswer :=
  .next (if !s.forceTurn q 0x0702 then s
    else s.command q 0x0702 (fun r => .home (s.homePair r.vid))
      (fun r => [lenIs r 16, s.forceRight r, s.epochIs r, ((s.homed r.vid).isSome, .checkFail)]) State.clearForce)

/-- FORCE_LIST (R335): VID, issuing partition and value of the forces on variables of the session's partition; DETAIL is their number, a request may name the first one wanted. -/
def execForceList (q : ReqSrc) (s : State) : CmdAnswer :=
  .next (s.commandHere q 0x0703 (fun _ => []) fun r s =>
    let sees (f : Force) : Bool := decide (r.part = 0) || decide ((s.homed f.vid).map (·.part) = some r.part)
    let fs := s.liveForces.filter sees
    s.answer r .ok fs.length (((fs.drop (field r.payload 0 4)).take 254).flatMap fun f =>
      leBytes 4 f.vid.toNat ++ leBytes 2 f.part ++ leBytes 2 0 ++ leBytes 8 f.val.toNat))

/-- FORCE_CLEAR_ALL (R56, R57, R335): every force held on the pair, one record each; the answer follows the last one. -/
def State.clearAll (r : Request) (s : State) : State :=
  let fs := s.liveForces
  match fs.getLast? with
  | none => s.okay r []
  | some z =>
    let t := s.forceInstant
    fs.foldl (init := s.started r) fun s f =>
      ((s.dropForce f.vid t).recordForceClear f.vid r.part).openForce (.clear f.vid r.part t) (if f.vid = z.vid then some r.key else none)

def execForceClearAll (q : ReqSrc) (s : State) : CmdAnswer :=
  .next (s.command q 0x0705 (fun _ => .pair) (fun r => [sys r]) State.clearAll)

/-! ### VAR_READ (R289, R335) -/

/-- One variable: value, current VID, tag; zeros where this module does not home it, none where the Access Guard refuses the read (R289, R302). -/
def State.readVar (s : State) (r : Request) (vid : W32) : Option (List Byte) × State :=
  match if s.homePair vid = pairOf s.module then s.homeEntry (s.currentVid vid) else none with
  | none => (some (leBytes 8 0 ++ leBytes 8 0), s)
  | some e =>
    let a : Access := { part := r.part, master := .service, kind := .r, source := 0, addr := imgAddr (s.curBank e.cls) e.lii, len := 8 }
    let (ok, s) := s.guardCheck a
    if ok then (some (leBytes 8 (s.rdImg (s.curBank e.cls) e.lii).toNat ++ leBytes 4 e.vid.toNat ++ leBytes 4 (tagNum e.tag)), s)
    else (none, s.recordDeny a)

def State.readVars (s : State) (r : Request) : List W32 → Option (List Byte) × State
  | [] => (some [], s)
  | v :: vs =>
    match s.readVar r v with
    | (none, s) => (none, s)
    | (some bs, s) =>
      let (rest, s) := s.readVars r vs
      (rest.map fun x => bs ++ x, s)

/-- The homes of the variables a VAR_READ names. -/
def State.homesOf (s : State) (vids : List W32) : List Nat := (vids.map s.homePair).eraseDups

/-- Each home reads its own; the receiving module gathers the answers (R330, R335). -/
def State.readAll (vids : List W32) (r : Request) (s : State) : State :=
  let mine := s.active && decide (pairOf s.module ∈ s.homesOf vids)
  let (bs, s) := if mine then s.readVars r vids else (some [], s)
  match bs with
  | none => s.refuse r .denied
  | some bs =>
    let others := if ReqSrc.isForwarded r.src then [] else (s.homesOf vids).filter fun h => !(mine && decide (h = pairOf s.module))
    match others with
    | [] => s.okay r bs
    | _ =>
      let s := others.foldl (fun (s : State) h => s.forwardReq r (pairDst h) none) s
      { s with mb := { s.mb with gather := (r.key, bs) :: s.mb.gather } }

/-- VAR_READ (R143, R289, R335): up to 250 variables, each at its home; partition 0 reads any. -/
def execVarRead (q : ReqSrc) (vids : List W32) (s : State) : CmdAnswer :=
  .next (s.commandHere q 0x0704
    (fun r => [(decide (vids.length ≤ 250), .badLen),
      (decide (r.part = 0) || vids.all (fun v => match s.homed v with | some e => decide (e.part = r.part) | none => true), .denied),
      s.epochIs r, (vids.all fun v => (s.homed v).isSome, .checkFail),
      (!ReqSrc.isForwarded q || s.active, .notNow)])
    (State.readAll vids))

end Sys2Proof.Machine
end

