-- ==== Sys2Proof/Machine/CanCmds.lean ====
section
/-! DEFINITION. The CAN channels (R400 to R411, R416): commands 0x0B01 to 0x0B04, what happens on a bus, the rate search, and the registers of blocks 0x16 to 0x19. -/
namespace Sys2Proof.Machine

/-! ### Modes (R402, R416) -/

/-- The mode a channel runs in: a channel that is neither off nor listen-only is normal on an ACTIVE module and restricted on any other (R402). -/
def State.canMode (s : State) (x : Can) : Nat :=
  if x.mode = 0 then 0 else if x.mode = 3 then 3 else if s.active then 1 else 2

/-- Error state from the counters, bus-off apart (R416; ISO 11898-1). -/
def Can.passive (x : Can) : Bool := decide (128 ≤ x.tec.toNat) || decide (128 ≤ x.recCnt.toNat)

/-- New counters: CAN_ERROR_PASSIVE is written at the entry to error passive (R416). -/
def State.canErrors (s : State) (c : Nat) (x : Can) : State :=
  if x.estate = 2 then s.setCan c x
  else if x.passive && decide (x.estate = 0) then
    (s.setCan c { x with estate := 1 }).record 0x0B03 0 c (x.tec.setWidth 32) (x.recCnt.setWidth 32) 0 0
  else s.setCan c { x with estate := if x.passive then 1 else 0 }

/-- The channel takes part in its bus: powered, integrated, not off and not bus-off. -/
def Can.live (x : Can) : Bool := x.on && decide (x.mode ≠ 0) && decide (x.estate ≠ 2)

/-! ### Transmission (R408 to R410) -/

/-- The order that arbitration gives two frames: base identifier, IDE, extension (R408). -/
def CanFrame.rank (f : CanFrame) : Nat :=
  if f.ide then f.id.toNat / 2 ^ 18 * 2 ^ 19 + 2 ^ 18 + f.id.toNat % 2 ^ 18 else f.id.toNat % 2 ^ 11 * 2 ^ 19

/-- The slot whose pending frame arbitration would take first. -/
def firstSlot (xs : List CanTx) : Option Nat :=
  ((List.range xs.length).filterMap fun i => (xs[i]?).bind fun o => o.pend.map fun f => (i, CanFrame.rank f)).foldl
    (fun (m : Option (Nat × Nat)) x => match m with | some y => if x.2 < y.2 then some x else m | none => some x) none |>.map (·.1)

def Can.setTx (x : Can) (i : Nat) (o : CanTx) : Can := { x with tx := x.tx.set i o }

/-- A pending frame starts on the bus once none of the channel's own is on it and no reference message goes ahead of it (R408, R410). -/
def Can.start (x : Can) : Can :=
  if x.tx.any (fun o => o.onBus) || x.ref.isSome then x
  else match (firstSlot x.tx).bind fun i => (x.tx[i]?).map fun o => (i, o) with
    | some (i, o) => x.setTx i { o with onBus := true }
    | none => x

/-- Frames start on the channels of an ACTIVE module (R402, R408). -/
def State.canStart (s : State) : State :=
  if s.active then { s with can := s.can.map fun (p : Nat × Can) => (p.1, if p.2.live && decide (s.canMode p.2 = 1) then p.2.start else p.2) } else s

/-- Answers every CAN_ABORT that waits for a slot (R409). -/
def State.abortEnds (s : State) (c i detail : Nat) : State :=
  (s.mb.queue.filter fun r => r.running && decide (r.cmd = 0x0B02) && decide (field r.payload 0 1 = c) && decide (field r.payload 1 1 = i)).foldl
    (fun (s : State) r => s.answer r .ok detail []) s

/-- A frame has been sent: TEC falls by 1 (R400; ISO 11898-1). -/
def State.canSent (s : State) (c : Nat) (f : CanFrame) (x : Can) : State :=
  (s.canErrors c { x with tec := if x.tec = 0 then 0 else x.tec - 1 }).send (.can c f)

/-- CAN_FRAME_SENT (R408 to R410): slot 64 is the reference message. -/
def execCanFrameSent (c : Fin 4) (slot : Fin 65) (s : State) : Host.Outcome State Fault Refusal :=
  .next (
    let x := s.canOf c
    if !x.live then s
    else if slot.val = 64 then
      match x.ref with
      | some f => if s.canMode x = 1 ∧ !x.tx.any (fun o => o.onBus) then s.canSent c f { x with ref := none } else s
      | none => s
    else match (x.tx[slot.val]?).bind fun o => if o.onBus then o.pend.map fun f => (o, f) else none with
      | none => s
      | some (o, f) =>
        let s := s.canSent c f (x.setTx slot { o with pend := o.next, next := none, onBus := false, aborting := false })
        if o.aborting then s.abortEnds c slot 2 else s)

/-- A slot whose frame has not got through: it will send its newest contents, or nothing after an abort (R408, R409). -/
def CanTx.fails (o : CanTx) : CanTx :=
  { o with pend := if o.aborting then o.next else o.next.orElse fun _ => o.pend, next := none, onBus := false, aborting := false }

/-- CAN_TX_RETRANSMIT (R400, R408, R409): `inc` is what an error adds to TEC, 0 after a lost arbitration. -/
def execCanTxRetransmit (c : Fin 4) (slot : Fin 65) (inc : Byte) (s : State) : Host.Outcome State Fault Refusal :=
  .next (
    let x := s.canOf c
    let up (x : Can) : Can := { x with tec := BitVec.ofNat 8 (min 255 (x.tec.toNat + inc.toNat)) }
    if !x.live then s
    else if slot.val = 64 then (if x.ref.isSome then s.canErrors c (up x) else s)
    else match x.tx[slot.val]? with
      | none => s
      | some o =>
        if !o.onBus then s
        else
          let s := s.canErrors c (up (x.setTx slot o.fails))
          if o.aborting then s.abortEnds c slot 1 else s)

/-! ### Bus-off and integration (R400, R415) -/

/-- CAN_BUS_OFF (R400, R416): recorded; pending frames are kept. -/
def execCanBusOff (c : Fin 4) (s : State) : Host.Outcome State Fault Refusal :=
  .next (
    let x := s.canOf c
    if !x.live then s
    else
      let gone := (List.range x.tx.length).filter fun i => ((x.tx[i]?).map fun o => o.aborting).getD false
      let y := { x with estate := 2, tec := 255, tx := x.tx.map fun o => if o.onBus then o.fails else o }
      let s := (s.setCan c y).record 0x0B04 0 c (y.tec.setWidth 32) (y.recCnt.setWidth 32) 0 0
      gone.foldl (fun (s : State) i => s.abortEnds c i 1) s)

/-- CAN_BUS_OFF_RECOVERY (R400): after 128 occurrences of 11 recessive bits. -/
def execCanBusOffRecovery (c : Fin 4) (s : State) : Host.Outcome State Fault Refusal :=
  .next (
    let x := s.canOf c
    if x.on ∧ x.estate = 2 then s.setCan c { x with estate := 0, tec := 0, recCnt := 0 } else s)

/-- CAN_INTEGRATION (R415, R416): a powered channel has integrated in restricted operation mode. -/
def execCanIntegration (c : Fin 4) (s : State) : Host.Outcome State Fault Refusal :=
  .next (if !s.expired (.canOn c) then s
    else
      let s := s.disarm (.canOn c)
      let x := s.canOf c
      if x.mode = 0 then s else s.setCan c { x with on := true })

/-! ### The rate search (R411) -/

/-- The next candidate, or the same one begun again. -/
def Can.candidate (x : Can) (d : CanDetect) (index : Nat) : Can := { x with detect := some { d with index := index % 8, good := 0 } }

/-- The search is over. -/
def State.detectEnds (s : State) (c : Nat) (x : Can) (d : CanDetect) (index : Nat) : State :=
  let s := ((s.setCan c { x with detect := none }).disarm (.canDwell c)).disarm (.canSearch c)
  s.answerTo (some (d.req, 0x0B03, d.cmdSeq)) .ok 0 (leBytes 1 index ++ leBytes 3 0 ++ leBytes 4 d.frames)

/-- CANn_NBT and CANn_DBT of a timing set (R401, R416). -/
def CanTiming.nbt (t : CanTiming) : W32 :=
  BitVec.ofNat 32 ((t.nsjw - 1) * 2 ^ 25 + (t.ntseg2 - 1) * 2 ^ 18 + (t.ntseg1 - 1) * 2 ^ 10 + (t.nbrp - 1))
def CanTiming.dbt (t : CanTiming) : W32 :=
  BitVec.ofNat 32 ((t.dsjw - 1) * 2 ^ 28 + (t.dtseg2 - 1) * 2 ^ 24 + (t.dtseg1 - 1) * 2 ^ 19 + (t.dbrp - 1))

def Can.setTiming (x : Can) (t : CanTiming) : Can := { x with nbt := CanTiming.nbt t, dbt := CanTiming.dbt t }

/-- A frame received without error during a search: the fourth in succession confirms the candidate. -/
def State.detectFrame (s : State) (c : Nat) : State :=
  let x := s.canOf c
  match x.detect with
  | none => s
  | some d =>
    let d := { d with frames := d.frames + 1, good := d.good + 1 }
    if d.good < 4 then (s.setCan c { x with detect := some d }).after (.canDwell c) (d.dwell * msec)
    else
      let x := if d.apply then (match x.table[d.index]? with | some t => x.setTiming t | none => x) else x
      s.detectEnds c x d d.index

/-- Any error abandons the candidate at once. -/
def State.detectError (s : State) (c : Nat) : State :=
  let x := s.canOf c
  match x.detect with
  | none => s
  | some d => (s.setCan c (x.candidate d (d.index + 1))).after (.canDwell c) (d.dwell * msec)

/-- CAN_DWELL_EXPIRY (R411): a candidate that receives no frame within DWELL is passed over. -/
def execCanDwellExpiry (c : Fin 4) (s : State) : Host.Outcome State Fault Refusal :=
  .next (if s.expired (.canDwell c) then s.detectError c else s)

/-- CAN_SEARCH_EXPIRY (R411): INDEX 0xFF. -/
def execCanSearchExpiry (c : Fin 4) (s : State) : Host.Outcome State Fault Refusal :=
  .next (
    let x := s.canOf c
    match x.detect with
    | some d => if s.expired (.canSearch c) then s.detectEnds c x d 0xFF else s
    | none => s)

/-! ### Reception (R400, R404 to R406, R410) -/

/-- A filter takes a frame (R404). -/
def Can.matches_ (x : Can) (f : CanFrame) (i : Nat) : Bool :=
  let m := tget (0 : W32) x.match_ i
  let k := bitsAt (tget (0 : W32) x.mask i).toNat 0 29
  let id : BitVec 29 := if f.ide then f.id else f.id &&& 0x7FF
  m.getLsbD 31 && (m.getLsbD 30 == f.ide) && decide ((m.setWidth 29 ^^^ id) &&& BitVec.ofNat 29 k = 0)

/-- The object of a filter takes the frame: its previous contents are replaced, COUNT rises for every class (R405). -/
def CanObj.write (o : CanObj) (f : CanFrame) : CanObj :=
  { o with words := frameWords o.cfg.size f, count := (List.range 8).map fun k => (k, min 255 (tget 0 o.count k + 1)) }

/-- RXQ0 is emptied into the objects, oldest first (R405). -/
def Can.drain (x : Can) : Can :=
  x.q0.foldl (init := { x with q0 := [] }) fun (x : Can) q =>
    { x with objs := x.objs.map fun (o : CanObj) => if o.cfg.filter = q.1 then o.write q.2 else o }

/-- A frame that passed a filter enters its queue of 64; when that is full it is dropped, counted and flagged (R404, R406). -/
def Can.enqueue (x : Can) (i : Nat) (f : CanFrame) : Can :=
  if (tget (0 : W32) x.match_ i).getLsbD 29 then
    if x.q1.length < 64 then { x with q1 := x.q1 ++ [f] } else { x with dropped := x.dropped + 1, q1ovf := true }
  else if x.q0.length < 64 then { x with q0 := x.q0 ++ [(i, f)] } else { x with dropped0 := x.dropped0 + 1, q0ovf := true }

/-- A frame reaches the filters (R404); received remote frames are discarded and counted before (R400). -/
def Can.receive (x : Can) (f : CanFrame) : Can :=
  if f.remote then { x with remote := x.remote + 1 }
  else match (List.range 64).find? fun i => x.matches_ f i with
    | some i => (x.enqueue i f).drain
    | none => { x with noMatch := x.noMatch + 1 }

/-- REC after a frame received without error (ISO 11898-1). -/
def Can.goodFrame (x : Can) : Can :=
  { x with recCnt := if x.recCnt = 0 then 0 else if 127 < x.recCnt.toNat then 127 else x.recCnt - 1 }

/-- Another node sends the reference identifier: reference messages stop until the next CAN_CONFIG (R410). -/
def State.canConflict (s : State) (c : Nat) (f : CanFrame) : State :=
  let x := s.canOf c
  if s.active ∧ x.tref.msb ∧ !f.ide ∧ !f.remote ∧ !x.refStop ∧ f.id.toNat % 2 ^ 11 = bitsAt x.tref.toNat 0 11 then
    (s.setCan c { x with conflict := true, refStop := true, ref := none }).record 0x0B02 0 c (BitVec.ofNat 32 c) (f.id.setWidth 32) 0 0
  else s

/-- CAN_FRAME_RECEIVED (R400, R402, R404 to R406, R410, R411): a frame of another node. -/
def execCanFrameReceived (c : Fin 4) (fr : CanFrame) (s : State) : Host.Outcome State Fault Refusal :=
  .next (
    let x := s.canOf c
    if !x.live then s
    else (((s.canErrors c (x.receive fr).goodFrame).canConflict c fr).detectFrame c))

/-- CAN_BUS_ERROR (R411, R416): an error while receiving or monitoring; `inc` is what it adds to REC. -/
def execCanBusError (c : Fin 4) (inc : Byte) (s : State) : Host.Outcome State Fault Refusal :=
  .next (
    let x := s.canOf c
    if !x.live then s
    else (s.canErrors c { x with recCnt := BitVec.ofNat 8 (min 255 (x.recCnt.toNat + inc.toNat)) }).detectError c)

/-! ### Commands -/

/-- The ranges of R401. -/
def CanTiming.ok (t : CanTiming) : Bool :=
  let r (lo x hi : Nat) : Bool := decide (lo ≤ x) && decide (x ≤ hi)
  r 1 t.nbrp 128 && r 2 t.ntseg1 256 && r 1 t.ntseg2 128 && r 1 t.nsjw 128 && decide (t.nsjw ≤ t.ntseg2)
    && decide (8 ≤ 1 + t.ntseg1 + t.ntseg2) && r 1 t.dbrp 32 && r 1 t.dtseg1 32 && r 1 t.dtseg2 16 && r 1 t.dsjw 16
    && decide (t.dsjw ≤ t.dtseg2)

/-- A receive object (R405): one filter of 64, at most 64 bytes, a VID for each word. -/
def CanObjCfg.ok (o : CanObjCfg) : Bool :=
  decide (o.filter < 64) && decide (o.size ≤ 64) && decide (o.vids.length = 2 + (o.size + 7) / 8)

/-- A transmit object (R407): a VID for each data word, all of them outputs of one task as far as they are known. -/
def State.canTxOk (s : State) (o : CanTxCfg) : Bool :=
  let writers := (o.vids.filterMap fun v => (s.homed v).map (·.writer)).eraseDups
  decide (o.cls < 8) && decide (o.every ≤ 255) && decide (o.vids.length = (dlcBytes o.fdf o.dlc.toNat + 7) / 8) && decide (writers.length ≤ 1)
    && (o.ide || decide (o.id.toNat < 2 ^ 11))

/-- What CAN_CONFIG refuses with CHECK_FAIL (R401, R404 to R407, R410, R411, R489). -/
def State.canCfgOk (s : State) (cfg : CanCfg) : Bool :=
  decide (cfg.mode.toNat ≤ 3) && CanTiming.ok cfg.timing && decide (cfg.filters.length ≤ 64)
    && cfg.rx.all (fun o => CanObjCfg.ok o) && decide (((cfg.rx.map fun o => o.filter).eraseDups).length = cfg.rx.length)
    && decide (cfg.tx.length ≤ 64) && cfg.tx.all s.canTxOk && decide (bitsAt cfg.tref.toNat 25 3 ≠ 7)
    && (match cfg.seqCls with | some k => decide (k < 8) && decide (1 ≤ cfg.seqDepth) && decide (cfg.seqDepth ≤ 16) | none => true)
    && (cfg.table.isEmpty || decide (cfg.table.length = 8)) && cfg.table.all (fun t => CanTiming.ok t)

/-- Reserved bits of CANn_TDC and CANn_TREF read 0; TDCV is the channel's own (R416). -/
def tdcMask : W32 := 0xFF00
def trefMask : W32 := 0xFE0007FF

/-- The channel as configured (R401, R404 to R407, R410): objects empty, slots empty. -/
def Can.configure (x : Can) (cfg : CanCfg) : Can :=
  let ix := List.range cfg.filters.length
  let y := { x with
    mode := cfg.mode
    tdc := (cfg.tdc &&& tdcMask) ||| (x.tdc &&& 0x7F)
    tref := cfg.tref &&& trefMask
    match_ := ix.filterMap fun i => (cfg.filters[i]?).map fun (f : W32 × W32) => (i, f.1)
    mask := ix.filterMap fun i => (cfg.filters[i]?).map fun (f : W32 × W32) => (i, f.2 &&& 0x1FFFFFFF)
    objs := cfg.rx.map fun (o : CanObjCfg) => { cfg := o, words := List.replicate (2 + (o.size + 7) / 8) 0, count := [] }
    seqCls := cfg.seqCls
    seqDepth := cfg.seqDepth
    tx := cfg.tx.map fun (o : CanTxCfg) => { cfg := o, pend := none, next := none, onBus := false, aborting := false, last := none, commits := 0 }
    ref := none
    refStop := false
    table := if cfg.table.isEmpty then canDefaultTable else cfg.table }
  if cfg.mode = 0 then { y.setTiming cfg.timing with on := false } else y.setTiming cfg.timing

/-- CAN_CONFIG (R401, R405, R410): a channel brought out of off integrates again; the plans' CAN words follow the new objects. -/
def execCanConfig (q : ReqSrc) (channel : Fin 4) (cfg : CanCfg) (s : State) : CmdAnswer :=
  .next (s.commandHere q 0x0B01 (fun r => [sys r, (s.canCfgOk cfg, .checkFail)]) fun r s =>
    let s := s.setCan channel ((s.canOf channel).configure cfg)
    let s := { s with pl := { s.pl with plan := s.bindCan s.pl.plan, old := s.bindCan s.pl.old } }
    let s := if s.joined && decide (cfg.mode ≠ 0) && !(s.canOf channel).on && !s.armed (.canOn channel) then s.after (.canOn channel) 0 else s
    s.okay r [])

/-- The slot that CAN_ABORT names. -/
def State.abortSlot (s : State) (r : Request) : Option CanTx :=
  if field r.payload 0 1 < 4 then (s.canOf (field r.payload 0 1)).tx[field r.payload 1 1]? else none

/-- CAN_ABORT (R409). -/
def execCanAbort (q : ReqSrc) (s : State) : CmdAnswer :=
  .next (s.commandHere q 0x0B02 (fun r =>
    [lenIs r 4, (decide (r.part = 0) || decide (((s.abortSlot r).bind fun o => s.canOwner o.cfg) = some r.part), .denied),
     ((s.abortSlot r).isSome, .checkFail)]) fun r s =>
    let c := field r.payload 0 1
    let i := field r.payload 1 1
    let x := s.canOf c
    match x.tx[i]? with
    | none => s
    | some o =>
      if o.pend.isNone then s.answer r .ok 0 []
      else if o.onBus then (s.setCan c (x.setTx i { o with next := none, aborting := true })).started r
      else (s.setCan c (x.setTx i { o with pend := none })).answer r .ok 1 [])

/-- CAN_DETECT_RATE (R411): only in listen-only mode. -/
def execCanDetectRate (q : ReqSrc) (s : State) : CmdAnswer :=
  .next (s.commandHere q 0x0B03 (fun r =>
    let f := field r.payload
    [lenIs r 12, sys r,
     (decide (f 0 1 < 4) && decide (f 1 1 < 2) && decide (100 ≤ f 4 4) && decide (f 4 4 ≤ 60000) && decide (10 ≤ f 8 2) && decide (f 8 2 ≤ 1000), .checkFail),
     (decide ((s.canOf (f 0 1)).mode = 3) && (s.canOf (f 0 1)).detect.isNone, .notNow)]) fun r s =>
    let c := field r.payload 0 1
    let d : CanDetect := { req := r.src, cmdSeq := r.seq, index := 0, good := 0, frames := 0, apply := decide (field r.payload 1 1 % 2 = 1),
                           dwell := field r.payload 8 2 }
    let s := (s.started r).setCan c { s.canOf c with detect := some d }
    (s.after (.canDwell c) (d.dwell * msec)).after (.canSearch c) (field r.payload 4 4 * msec))

/-! ### Registers (R416) -/

/-- CANn_STAT. -/
def Can.stat (x : Can) : Nat :=
  x.q1.length % 128 * 2 ^ 25 + x.q0.length % 128 * 2 ^ 18 + bit x.q1ovf * 128 + bit x.q0ovf * 64 + bit x.conflict * 32 + bit x.on * 16 + x.estate.toNat

/-- A register of CANn as a service core reads it; MODE is the last value written (R4), whatever the role makes of it (R402). -/
def State.canReg (s : State) (c off : Nat) : W32 :=
  let x := s.canOf c
  let n (v : Nat) : W32 := BitVec.ofNat 32 v
  match off with
  | 0x000 => n x.mode.toNat
  | 0x004 => n x.stat
  | 0x008 => n (x.recCnt.toNat * 256 + x.tec.toNat)
  | 0x00C => x.nbt
  | 0x010 => x.dbt
  | 0x014 => x.tdc
  | 0x018 => x.tref
  | _ =>
    if off % 4 ≠ 0 then 0
    else if 0x100 ≤ off ∧ off < 0x200 then tget 0 x.match_ ((off - 0x100) / 4)
    else if 0x200 ≤ off ∧ off < 0x300 then tget 0 x.mask ((off - 0x200) / 4)
    else 0

/-- A write by a service core: RW fields are set, the flags of CANn_STAT cleared by 1; reserved encodings leave their field (R4, R5, R416). -/
def State.writeCan (s : State) (c off : Nat) (v : W32) : State :=
  let x := s.canOf c
  let put (x : Can) : State := s.setCan c x
  match off with
  | 0x000 =>
    let m := if bitsAt v.toNat 0 3 ≤ 3 then v.setWidth 3 else x.mode
    put { x with mode := m, on := x.on && decide (m ≠ 0) }
  | 0x004 => put { x with q1ovf := x.q1ovf && !v.getLsbD 7, q0ovf := x.q0ovf && !v.getLsbD 6, conflict := x.conflict && !v.getLsbD 5 }
  | 0x00C => put { x with nbt := v &&& 0xFFFFFC7F }
  | 0x010 => put { x with dbt := v &&& 0xFFF8001F }
  | 0x014 => put { x with tdc := (v &&& tdcMask) ||| (x.tdc &&& 0x7F) }
  | 0x018 =>
    let cycles := if bitsAt v.toNat 25 3 ≤ 6 then v &&& 0x0E000000 else x.tref &&& 0x0E000000
    put { x with tref := (v &&& 0xF00007FF) ||| cycles }
  | _ =>
    if off % 4 ≠ 0 then s
    else if 0x100 ≤ off ∧ off < 0x200 then put { x with match_ := tput x.match_ ((off - 0x100) / 4) v }
    else if 0x200 ≤ off ∧ off < 0x300 then put { x with mask := tput x.mask ((off - 0x200) / 4) (v &&& 0x1FFFFFFF) }
    else s

/-- CAN_STATUS (R335, R416): the registers of the four channels. -/
def execCanStatus (q : ReqSrc) (s : State) : CmdAnswer :=
  .next (s.commandHere q 0x0B04 (fun r => [lenIs r 0]) fun r s =>
    let offs := ((List.range 7).map (4 * ·)) ++ ((List.range 64).map (0x100 + 4 * ·)) ++ ((List.range 64).map (0x200 + 4 * ·))
    s.okay r ((List.range 4).flatMap fun c => offs.flatMap fun o => leBytes 4 (s.canReg c o).toNat))

end Sys2Proof.Machine
end

