-- ==== Sys2Proof/Machine/Comparator.lean ====
section
/-! DEFINITION. The Pass Comparators: verdicts on hand-overs (R76 to R84) and the injected-difference tests (R85 to R88). -/
namespace Sys2Proof.Machine

/-- Comparator u: 0 to 15 the clusters', 16 the spare. -/
def State.cmpOf (s : State) (u : Nat) : Cmp := tget (Cmp.reset u) s.cmp u
def State.setCmp (s : State) (u : Nat) (c : Cmp) : State := { s with cmp := tput s.cmp u c }

/-- The unit that serves a cluster: the spare while SUBST is set for it (R86, R88). -/
def State.serving (s : State) (c : Nat) : Nat :=
  let sp := s.cmpOf 16
  if sp.subst ∧ sp.target.toNat = c then 16 else c

/-- The unit that checks the same hand-overs in shadow, if there is one (R86 steps 1 and 4). -/
def State.shadowing (s : State) (c : Nat) : Option Nat :=
  let sp := s.cmpOf 16
  if sp.shadow ∧ sp.target.toNat = c then some 16
  else if sp.subst ∧ sp.target.toNat = c ∧ (s.cmpOf c).shadow then some c
  else none

/-- Of two verdict codes on one hand-over, the one other than PASS (R87); of two that both are, that of the serving unit, which stands first (DESIGN CHOICE, log 73). -/
def otherThanPass (a b : Nat) : Nat := if a ≠ 0 then a else b

/-- L_PC_FLT_INFO (R89). -/
def fltWord (code lane word tag cls : Nat) : W32 :=
  BitVec.ofNat 32 (code * 2 ^ 28 + lane % 16 * 2 ^ 24 + word * 2 ^ 16 + tag * 2 ^ 14 + cls)

def tagCode : Tag → Nat | .bits => 0 | .int => 1 | .real64 => 2 | .real32 => 3

/-- Word index, tag, p and k of the word a verdict concerns; 0xFF where it concerns none (R89). -/
def verdictWord (w : Option (Nat × BWord × BWord)) : Nat × Nat × W64 × W64 :=
  match w with
  | some (i, p, k) => (i, tagCode p.tag, p.val, k.val)
  | none => (0xFF, 0, 0, 0)

/-- A verdict entered in a unit's registers: counted, and the first mismatch captured (R81, R89). -/
def Cmp.note (u : Cmp) (h : HandOver) (code : Nat) (w : Option (Nat × BWord × BWord)) : Cmp :=
  let u := { u with ncmp := u.ncmp + 1, last := BitVec.ofNat 4 code }
  if code = 0 then u
  else
    let u := { u with nmism := u.nmism + 1 }
    if u.fltValid then u
    else
      let (i, tag, p, k) := verdictWord w
      { u with fltValid := true, fltInfo := fltWord code h.lane i tag h.cls, fltTask := h.task, fltPri := p, fltCod := k }

/-- COMPARATOR, given without a check: it is captured and counts as a verdict other than PASS, and no task cycle was checked (R81, R88, R89). -/
def Cmp.noteUnchecked (u : Cmp) (h : HandOver) (w : Option (Nat × BWord × BWord)) : Cmp := { u.note h 0xF w with ncmp := u.ncmp }

/-- The hand-over a comparator takes next: the lowest-numbered lane (R76). -/
def lowestLane (q : List HandOver) : Option HandOver :=
  q.foldl (init := none) fun m h => match m with
    | none => some h
    | some j => if h.lane < j.lane then some h else some j

/-- Removes a hand-over. -/
def dropLane (q : List HandOver) (h : HandOver) : List HandOver := q.erase h

/-- The verdict that COMPARATOR marks: no working comparator serves the cluster, and the hand-over is of WINTER or AUTUMN, with its coded pass or trapped before it (R79, R88). A hand-over of SUMMER with the coded pass of an arbitration cycle, which R88 does not name, gets it too (DESIGN CHOICE, log 73). -/
def State.noComparator (s : State) (c : Nat) (h : HandOver) : Bool :=
  decide (c ∈ s.rnd.lost) && (h.coded || (s.profileOf (taskPart h.task) h.cls).coded)

/-- A hardware verdict other than COMPARATOR counts against its lane: two within 60 s retire it (R84). -/
def State.hwVerdict (s : State) (l : Nat) : State :=
  let x := s.lane l
  let vs := s.clk :: x.hwVerdicts.filter fun t => decide (s.clk - t ≤ 60 * sec)
  let s := s.setLane l { x with hwVerdicts := vs }
  if 2 ≤ vs.length ∧ !x.retire then s.retireLane l 0 else s

/-- A verdict other than PASS (R81 to R84) of unit u: the bundles are discarded, the mismatch recorded and counted, and the task's entry carries the verdict. Where the partner executes the task cycle the pair resolution decides, in SUMMER and in an arbitration cycle as R82 has it for WINTER (DESIGN CHOICE, log 73). -/
def State.mismatch (s : State) (u : Nat) (h : HandOver) (code : Nat) (w : Option (Nat × BWord × BWord)) : State :=
  let (i, _, p, k) := verdictWord w
  let s := s.count (ctrEv 0x23 1 0)
  let s := s.record 0x0301 (taskPart h.task) u h.task (fltWord code h.lane i 0 h.cls) (lo32 p) (lo32 k)
  let s := if isHwVerdict code ∧ code ≠ 0xF then s.hwVerdict h.lane else s
  let alone := s.alone h.task h.cls h.bnd
  let s := s.countOverrun h.task h.cls h.bnd 0x0301
  let s := s.sigReady h.task h.cls h.bnd 0x01 code 0
  if isDataVerdict code ∨ alone then s.mismatchPolicy h.task else s

/-- The re-test of R87: the shadow period ends, cluster c is back on its own comparator, and the spare is tested in place first. -/
def State.startRetest (s : State) (c : Nat) : State :=
  let sp := s.cmpOf 16
  let s := s.setCmp 16 { sp with shadow := false, subst := false, test := true }
  let s := s.setCmp c { s.cmpOf c with shadow := false, test := false }
  let during := s.rnd.step.isSome && !s.rnd.retest
  let resume := if during then some (c + 1) else s.rnd.resume
  let keep := s.rnd.retest || during
  { s.disarm .cmpShadow with
    rnd := { s.rnd with step := some .spare, retest := true, cluster := c, resume := if keep then resume else none } }

/-- The verdict a unit shows: a defective one gives another than the check has (a physical condition of the unit). -/
def State.shownBy (s : State) (u code : Nat) : Nat :=
  match (s.cmpOf u).defect with
  | some d => d.toNat
  | none => code

/-- A hand-over of cluster c is judged by the unit that serves it, and by the one in shadow (R77, R80, R81, R87). -/
def State.judge (s : State) (c : Nat) (h : HandOver) : State :=
  let (v, w) := verdictOf h.trap h.coded h.p h.k
  let u := s.serving c
  let code := s.shownBy u v.num
  let sh := s.shadowing c
  let shCode := (sh.map fun x => s.shownBy x v.num).getD code
  let s := s.setCmp u ((s.cmpOf u).note h code w)
  let s := match sh with
    | some x => s.setCmp x ((s.cmpOf x).note h shCode w)
    | none => s
  let diff := decide (shCode ≠ code)
  let final := if diff then otherThanPass code shCode else code
  let s :=
    if diff then
      let (spare, own) := if sh = some 16 then (shCode, code) else (code, shCode)
      (s.record 0x0303 0 c (BitVec.ofNat 32 c) (BitVec.ofNat 32 spare) (BitVec.ofNat 32 own) 0).startRetest c
    else s
  if final = 0 then { s with coll := { s.coll with waiting := s.coll.waiting ++ [h] } }
  else s.mismatch u h final w

/-- PASS_VERDICT (R76 to R84, R87, R88): the next hand-over of the cluster is judged. With L_PC_CTL.EN = 0 the unit that serves it checks nothing, and the hand-over waits (R89; log 73). -/
def execPassVerdict (c : Fin 16) (s : State) : Host.Outcome State Fault Refusal :=
  .next (match lowestLane (s.cmpOf c).queue with
    | none => s
    | some h =>
      let took (s : State) : State := s.setCmp c { s.cmpOf c with queue := dropLane (s.cmpOf c).queue h }
      if s.noComparator c h then
        let s := took s
        (s.setCmp c ((s.cmpOf c).noteUnchecked h none)).mismatch c h 0xF none
      else if !(s.cmpOf (s.serving c)).en then s
      else (took s).judge c h)

/-! ### Tests (R85 to R88) -/

/-- One injected vector (R85): the flagged trap, the two bundles, the verdict it must yield and the word index the capture must show (0xFF for none). -/
structure Vec where
  trap : Option Byte
  p : List BWord
  k : List BWord
  verdict : Verdict
  word : Nat
deriving DecidableEq, Repr

/-- A word of a vector, and its coded image. -/
def vecWord (t : Tag) (lii : Nat) (v : W64) : BWord := { lii := lii, tag := t, val := v }
def vecCoded (w : BWord) : BWord := { w with val := encodeE w.tag w.val }

/-- A vector of one word each. -/
def vecPair (t : Tag) (p k : W64) (v : Verdict) (word : Nat) : Vec := { trap := none, p := [vecWord t 0 p], k := [vecWord t 0 k], verdict := v, word := word }

/-- A bundle of n words of a tag; the values that R85 leaves open are 0 (log 73). -/
def vecBundle (t : Tag) (n : Nat) : List BWord := (List.range n).map fun i => vecWord t i 0

/-- The 144 vectors in the order of R85's table. -/
def vectors : List Vec :=
  ([Tag.bits, .int, .real64, .real32].flatMap fun t => [1, 128].map fun n =>
    { trap := none, p := vecBundle t n, k := (vecBundle t n).map vecCoded, verdict := .pass, word := 0xFF })
  ++ ((List.range 64).map fun i => vecPair .bits (BitVec.twoPow 64 i) (encodeE .bits 0) .value 0)
  ++ ((List.range 64).map fun i => vecPair .int 0 (BitVec.twoPow 64 i) .code 0)
  ++ [vecPair .real64 0 (encodeE .real64 0 ^^^ BitVec.twoPow 64 63) .value 0, vecPair .real64 0 (encodeE .real64 0 ^^^ BitVec.twoPow 64 52) .value 0]
  ++ [vecPair .int 0x800000000000 0 .intRange 0, vecPair .real64 (BitVec.ofNat 64 ((1019 + 1023) * 2 ^ 52)) 0 .realRange 0,
      vecPair .real64 0x7FF8000000000000 0 .realNan 0]
  ++ [{ trap := none, p := vecBundle .bits 5, k := (vecBundle .bits 6).map vecCoded, verdict := .length, word := 0xFF },
      { trap := none, p := vecBundle .bits 5, k := ((vecBundle .bits 5).map vecCoded).map fun w => if w.lii = 3 then { w with lii := 7 } else w,
        verdict := .index, word := 3 },
      { trap := some 0x0B, p := vecBundle .bits 1, k := (vecBundle .bits 1).map vecCoded, verdict := .residue, word := 0xFF }]

/-- A unit meets a vector: its verdict is the expected one, and the capture shows the expected word (R85). -/
def State.meets (s : State) (u : Nat) (v : Vec) : Bool :=
  let (r, w) := verdictOf v.trap true v.p v.k
  decide (s.shownBy u r.num = v.verdict.num) && decide ((verdictWord w).1 = v.word)

/-- The first vector a unit fails by its verdicts (R85). -/
def State.firstFailing (s : State) (u : Nat) : Option Nat :=
  (List.range vectors.length).find? fun i => (vectors[i]?).any fun v => !s.meets u v

/-- The vector a unit's test finds first: one its verdicts fail, or one that failed in the hardware. -/
def State.testFinds (s : State) (u : Nat) (hw : Option Nat) : Option Nat :=
  match s.firstFailing u, hw with
  | some i, some j => some (min i j)
  | some i, none => some i
  | none, j => j

/-- A round or re-test begins at the spare, tested in place (R86). -/
def State.testSpare (s : State) : State :=
  let s := s.setCmp 16 { s.cmpOf 16 with test := true, shadow := false, subst := false }
  { s with rnd := { s.rnd with step := some .spare } }

/-- The module has left BOOT (R253, R459). -/
def State.booted (s : State) : Bool :=
  match s.mod.st with
  | .off | .bypass | .boot | .recovery => false
  | _ => true

/-- COMPARATOR_TEST_ROUND (R86): after BOOT, every 10 s from the start of the previous round, unless rounds have stopped. -/
def execComparatorTestRound (s : State) : Host.Outcome State Fault Refusal :=
  .next (if !s.booted || s.rnd.stopped || s.rnd.step.isSome || !s.due .cmpRound then s
    else ({ s with rnd := { s.rnd with retest := false, resume := none } }.testSpare).after .cmpRound (10 * sec))

/-- Step 1 for a cluster: the spare in shadow beside its comparator for 100 µs. -/
def State.shadowBefore (s : State) (c : Nat) : State :=
  let s := s.setCmp 16 { s.cmpOf 16 with shadow := true, target := BitVec.ofNat 4 c, en := true }
  { s with rnd := { s.rnd with step := some (.before c) } }.after .cmpShadow (100 * usec)

/-- The round or re-test is over; a completed round counts in L_PC_TEST.ROUND of every comparator (R86, R89). -/
def State.testsDone (s : State) (counted : Bool) : State :=
  let n := if counted then s.rnd.rounds + 1 else s.rnd.rounds
  let s := { s with rnd := { s.rnd with step := none, retest := false, resume := none, rounds := n } }
  let s := s.setCmp 16 { s.cmpOf 16 with shadow := false, subst := false, en := false, target := 0 }
  if counted then (List.range 17).foldl (init := s) fun s u => s.setCmp u { s.cmpOf u with round := n } else s

/-- The next cluster of a round, or its end; after a re-test the round continues with the next cluster (R87). -/
def State.nextCluster (s : State) (c : Nat) : State :=
  if s.rnd.retest then
    match s.rnd.resume with
    | some d =>
      let s := { s with rnd := { s.rnd with retest := false, resume := none } }
      if d < 16 then s.shadowBefore d else s.testsDone true
    | none => s.testsDone false
  else if c < 15 then s.shadowBefore (c + 1)
  else s.testsDone true

/-- CMP_SHADOW_PERIOD_END (R86): after step 1 the spare takes the cluster and its comparator is detached and tested; after step 4 the cluster is served by its own again. -/
def execCmpShadowPeriodEnd (s : State) : Host.Outcome State Fault Refusal :=
  .next (if !s.expired .cmpShadow then s
    else
      let s := s.disarm .cmpShadow
      match s.rnd.step with
      | some (.before c) =>
        let s := s.setCmp 16 { s.cmpOf 16 with shadow := false, subst := true }
        let s := s.setCmp c { s.cmpOf c with test := true }
        { s with rnd := { s.rnd with step := some (.vectors c) } }
      | some (.after c) =>
        let s := s.setCmp c { s.cmpOf c with shadow := false }
        (s.setCmp 16 { s.cmpOf 16 with subst := false }).nextCluster c
      | _ => s)

/-- The comparator flag of the Health Report, and the end of run-time rounds (R88). -/
def State.stopRounds (s : State) : State :=
  { s with rnd := { s.rnd with step := none, retest := false, resume := none, stopped := true }, mod := { s.mod with cmpFlag := true } }.giveWay

/-- A failed test (R88): CMP_TEST_FAIL and FAULTED; the spare replaces one failed cluster comparator for good, a second failure leaves its cluster without one. -/
def State.cmpFailed (s : State) (u : Nat) (vector : Nat) : State :=
  let s := s.record 0x0304 0 u (BitVec.ofNat 32 u) (BitVec.ofNat 32 vector) 0 0
  let spareGood := !(s.cmpOf 16).faulted && s.rnd.permanent.isNone
  let s := s.setCmp u { s.cmpOf u with faulted := true }
  let s := s.stopRounds
  if u = 16 then s.setCmp 16 { s.cmpOf 16 with shadow := false, subst := false }
  else if spareGood then
    let s := s.setCmp 16 { s.cmpOf 16 with subst := true, shadow := false, target := BitVec.ofNat 4 u, en := true }
    { s with rnd := { s.rnd with permanent := some u } }
  else { s with rnd := { s.rnd with lost := u :: s.rnd.lost } }

/-- A unit's test ends: DONE, FAIL and the first failing vector (R85, R89). -/
def State.judged (s : State) (u : Nat) (fail : Option Nat) : State :=
  s.setCmp u { s.cmpOf u with test := false, done := true, fail := fail.isSome, vector := (fail.map (BitVec.ofNat 8 ·)).getD 0xFF }

/-- CMP_VECTOR_TEST_DONE (R85 to R89): the detached unit is judged by its 144 vectors. It fails where its verdicts do, and where the command names a vector that failed in the hardware; the first one counts. Outside a round a unit whose TEST bit a register write has set is judged. -/
def execCmpVectorTestDone (fail : Option (Fin 144)) (s : State) : Host.Outcome State Fault Refusal :=
  .next (
    let first (u : Nat) : Option Nat := s.testFinds u (fail.map (·.val))
    match s.rnd.step with
    | some .spare =>
      let s' := s.judged 16 (first 16)
      match first 16 with
      | some i => s'.cmpFailed 16 i
      | none => s'.shadowBefore (if s'.rnd.retest then s'.rnd.cluster else 0)
    | some (.vectors c) =>
      let s' := s.judged c (first c)
      match first c with
      | some i => s'.cmpFailed c i
      | none =>
        let s' := s'.setCmp c { s'.cmpOf c with shadow := true }
        { s' with rnd := { s'.rnd with step := some (.after c) } }.after .cmpShadow (100 * usec)
    | some _ => s
    | none => match (List.range 17).find? fun u => (s.cmpOf u).test with
      | some u =>
        let s' := s.judged u (first u)
        match first u with
        | some i => s'.cmpFailed u i
        | none => s'
      | none => s)

/-- The unit's registers with the hand-overs it checks: those of the cluster that it serves or shadows (R86, R89). -/
def State.cmpView (s : State) (u : Nat) : Cmp :=
  let x := s.cmpOf u
  if u = 16 then { x with queue := if x.subst || x.shadow then (s.cmpOf x.target.toNat).queue else [] }
  else if s.serving u = u ∨ x.shadow then x else { x with queue := [] }

end Sys2Proof.Machine
end

