-- ==== Sys2Proof/Machine/Guard.lean ====
section
/-! DEFINITION. The Access Guard's registers: the staging table, the commit and its check, the captured fault, G_ACT (R288, R290, R297, R304, R305). -/
namespace Sys2Proof.Machine

/-- A rule that no write has set. -/
def noRule : Sys2Proof.Rule := { attr := 0, base := 0, limit := 0, origin := 0 }

/-- A write to G_WDATA3 stores the four words and advances G_WIDX; during a check nothing is stored (R297). -/
def Guard.store (g : Guard) (v : W32) : Guard :=
  let g := { g with wdata3 := v }
  if g.checking then g
  else { g with staging := tput g.staging g.widx.toNat (Rule.clean { attr := g.wdata0, base := g.wdata1, limit := g.wdata2, origin := v }),
                widx := g.widx + 1 }

/-- G_WDATA3_WRITE (R290, R297). -/
def execGWdata3Write (v : W32) (s : State) : Host.Outcome State Fault Refusal := .next { s with guard := s.guard.store v }

/-- A write of G_COMMIT: the check begins; ignored while one runs (R297, R305). -/
def Guard.commit (g : Guard) (v : W32) : Guard := if v.getLsbD 0 && !g.checking then { g with checking := true } else g

/-- G_COMMIT_WRITE (R297). -/
def execGCommitWrite (v : W32) (s : State) : Host.Outcome State Fault Refusal := .next { s with guard := s.guard.commit v }

/-- The check of R292 and R293 ends: the staging table takes the place of the active one, or what is wrong is shown (R293, R297, R298). -/
def Guard.checked (g : Guard) : Guard :=
  let bad := g.staging.any fun x => Rule.bad x.2
  let ovl := firstOverlap g.staging
  let g := { g with checking := false }
  if !bad && ovl.isNone then { g with active := g.staging, done := true }
  else
    let g := { g with badrule := g.badrule || bad }
    match ovl with
    | some (a, b) => { g with overlap := true, ovlA := BitVec.ofNat 12 a, ovlB := BitVec.ofNat 12 b }
    | none => g

/-- GUARD_CHECK_DONE (R292, R293, R297, R298). -/
def execGuardCheckDone (s : State) : Host.Outcome State Fault Refusal :=
  .next (if s.guard.checking then { s with guard := s.guard.checked } else s)

/-- G_NMISS_READ (R4, R304, R305): the count is cleared as part of the read. -/
def execGNmissRead (s : State) : Host.Outcome State Fault Refusal := .next { s with guard := { s.guard with nmiss := 0 } }

/-- An Access Guard register as a service core reads it (R305). -/
def Guard.reg (g : Guard) (off : Nat) : W32 :=
  let n (x : Nat) : W32 := BitVec.ofNat 32 x
  let r := tget noRule g.active g.ridx.toNat
  match off with
  | 0x000 => n (bit g.fltIrq)
  | 0x004 => n (bit g.checking * 2 ^ 8 + bit g.privf * 8 + bit g.badrule * 4 + bit g.overlap * 2 + bit g.done)
  | 0x00C => n (g.active.filter fun x => Rule.valid x.2).length
  | 0x010 => g.widx.setWidth 32
  | 0x014 => g.wdata0
  | 0x018 => g.wdata1
  | 0x01C => g.wdata2
  | 0x020 => g.wdata3
  | 0x024 => g.ridx.setWidth 32
  | 0x028 => r.attr
  | 0x02C => r.base
  | 0x030 => r.limit
  | 0x034 => r.origin
  | 0x038 => n (g.ovlB.toNat * 2 ^ 16 + g.ovlA.toNat)
  | 0x03C => n (bit g.fltValid * 2 ^ 31 + g.fltMaster.toNat * 2 ^ 29 + g.fltKind.toNat * 2 ^ 27 + g.fltPart.toNat * 2 ^ 18 + g.fltSource.toNat)
  | 0x040 => g.fltAddr.setWidth 32
  | 0x044 => (g.fltAddr >>> 32).setWidth 32
  | 0x048 => g.nmiss
  | 0x050 | 0x054 | 0x058 | 0x05C => tget 0 g.act ((off - 0x050) / 4)
  | _ => 0

/-- A write of an Access Guard register by a service core (R305). -/
def Guard.write (g : Guard) (off : Nat) (v : W32) : Guard :=
  match off with
  | 0x000 => { g with fltIrq := v.getLsbD 0 }
  | 0x004 => { g with privf := g.privf && !v.getLsbD 3, badrule := g.badrule && !v.getLsbD 2, overlap := g.overlap && !v.getLsbD 1,
                      done := g.done && !v.getLsbD 0 }
  | 0x008 => g.commit v
  | 0x010 => { g with widx := v.setWidth 12 }
  | 0x014 => { g with wdata0 := v }
  | 0x018 => { g with wdata1 := v }
  | 0x01C => { g with wdata2 := v }
  | 0x020 => g.store v
  | 0x024 => { g with ridx := v.setWidth 12 }
  | 0x03C => { g with fltValid := g.fltValid && !v.getLsbD 31 }
  | 0x050 | 0x054 | 0x058 | 0x05C => { g with act := tput g.act ((off - 0x050) / 4) (v &&& 0x800001FF) }
  | _ => g

end Sys2Proof.Machine
end

