-- ==== Sys2Proof/Machine/LaneEvents.lean ====
section
/-! DEFINITION. The meanings of the lane event rows (R47, R124 to R130, R490), of the wake pacer's grants (R16, R452), of the reads with side effects (R97, R98), and of the scrubber and background test (R96, R249, R250). -/
namespace Sys2Proof.Machine

/-- The TIMER condition: armed, and TIME32 − L_TIMER is at least 0 as a signed value (R124). -/
def State.timerMet (s : State) (l : Nat) : Bool :=
  let x := s.lane l
  x.tarm && decide (0 ≤ (s.now32 - x.timer).toInt)

/-- R490 applies: a USR pass inside a fast handler with TIMER in the fast class. -/
def Lane.deadlineApplies (x : Lane) : Bool := decide (x.eclass = 2) && x.evclass.getLsbD 9 && !x.mode

/-- TIMER_EVENT (R124, R125): the pending bit is set and TARM cleared, unless R490 applies. -/
def execTimerEvent (l : Fin 256) (s : State) : Answer :=
  .next (if s.timerMet l && !(s.lane l).deadlineApplies then
    (s.setLane l { s.lane l with tarm := false }).raiseEvent l 9 else s)

/-- LANE_DEADLINE (R490): the DEADLINE fault on the running pass, and TARM cleared. -/
def execLaneDeadline (l : Fin 256) (s : State) : Answer :=
  .next (if s.timerMet l && (s.lane l).deadlineApplies then
    (s.setLane l { s.lane l with tarm := false }).laneFaultOpen l 0x0C else s)

/-- The end deadline of the task of the running pass has come (R50). -/
def State.pastEnd (s : State) (l : Nat) : Bool :=
  let x := s.lane l
  match s.findTask x.task with
  | some t => reached (x.bnd + BitVec.ofNat 64 (t.endDl * usec)) s.now
  | none => false

/-- A task of the normal class has a pass running, or between its two passes waits for the coded one: its passes have not all ended (R50). -/
def State.passesOpen (s : State) (l : Nat) : Bool :=
  let x := s.lane l
  !x.mode || (x.runPass && decide (x.eclass ≠ 2) && match s.findTask x.task with
    | some t => !s.cycleEnded t x.bnd
    | none => false)

/-- The TIMER event, taken in the fast class, abandons the task it interrupts: its end deadline has come with its passes open (R50). -/
def State.abandonDue (s : State) (l i : Nat) : Bool :=
  decide (i = 9) && (s.lane l).evclass.getLsbD 9 && s.passesOpen l && s.pastEnd l

/-- The TIMER event abandons the normal-class task whose pass it interrupts past its end deadline: its handler makes the pass end at L_DSPENT (R50, R131). -/
def State.timerAbandon (s : State) (l i : Nat) : State :=
  if s.abandonDue l i then (s.abandon l 0).dispatch l false else s

/-- The context that the dispatcher saves at a fast entry (R128, R490). -/
def Lane.save (x : Lane) : Saved :=
  { w := x.w.filter fun p => decide (p.1 < 24), task := x.task, runKind := x.runKind, runPass := x.runPass, xwin := x.xwin, dwin := x.dwin,
    timer := x.timer, tarm := x.tarm }

/-- Entry into the handler of event i (R127); L_STAT.PASS and KIND read 0 in it (DESIGN CHOICE, log 74). -/
def Lane.enter (x : Lane) (i : Nat) : Lane :=
  let fast := x.evclass.getLsbD i
  let ret := evret x.mode x.pass x.kind x.pc
  let x := { x with evpend := x.evpend &&& ~~~(BitVec.twoPow 13 i), wait := false, run := true }
  if fast then
    { x.swapBank with evretF := ret, inNormal := decide (x.eclass = 1), eclass := 2, mode := true, kind := false, pass := false,
                      pc := entryPc x.evvecF, saved := some x.save }
  else { x with evretN := ret, eclass := 1, mode := true, kind := false, pass := false, pc := entryPc x.evvecN }

/-- A cycle start gives the handler of lane l its class and boundary (R36, R109), a new class cycle for CDONE (R124), and its first pass (R93). -/
def State.enterCycle (s : State) (l : Nat) (x : Lane) (i : Nat) : Lane :=
  if i < 8 then
    let b := ((s.cls_ i).bnd).getD 0
    let x := if x.eclass = 2 then { x with clsF := some i, bndF := b, handedF := 0, outF := 0, curFast := true }
      else { x with clsN := some i, bndN := b, handedN := 0, outN := 0, curFast := false }
    match (s.passTasks l i b).head? with
    | some p => x.loadPass (some (p, false))
    | none => x
  else x

/-- EVENT_ENTRY (R126, R127): the event that R126 lets the lane take next is entered between two instructions; a vector outside 0x1_F000 to 0x1_FFFC raises FETCH in SUP (R131). -/
def execEventEntry (l : Fin 256) (s : State) : Answer :=
  .next (
    let x := s.lane l
    match x.takeable with
    | none => s
    | some i =>
      if x.en && !x.gated && (x.run || x.wait) then
        let s := s.count (ctrEv 0x09 1 l)
        let s := s.timerAbandon l i
        let y := (s.lane l).enter i
        let s := (s.setLane l (s.enterCycle l y i)).relevel l
        let vec := if (s.lane l).eclass = 2 then (s.lane l).evvecF else (s.lane l).evvecN
        if vec.toNat < 0x1F000 ∨ 0x1FFFC < vec.toNat then s.laneFault l 0x02 (lo32 y.pc) else s
      else s)

/-- A consumer's same-class input is still waited for: the task runs here, its cycle has not ended and the producer's bundle is not in NEXT (R47). -/
def State.awaits (s : State) (t : TaskPlan) (lii : Nat) (b : W64) : Bool :=
  decide (s.pstateOf (taskPart t.task) t.cls = .running) && s.executes (taskPart t.task) t.cls b && !s.cycleEnded t b
    && t.ins.any fun i => decide (i.lii = lii) && i.same && !s.inNext.any fun p => decide (p = (i.producer, b))

/-- INPUT_DEADLINE (R47): every consumer on the lane that still awaits the input past its deadline proceeds with the previous value; UNIT_DELAY is written when the delay has its length (BUNDLE_COLLECTED, CLASS_BOUNDARY). -/
def execInputDeadline (l : Fin 256) (lii : Nat) (s : State) : Answer :=
  .next (((List.range 8).flatMap s.tasksOf).foldl (init := s) fun s t =>
    match (s.cls_ t.cls).bnd with
    | none => s
    | some b =>
      if t.lane = l.val ∧ s.awaits t lii b ∧ reached (b + BitVec.ofNat 64 (t.inputDl * usec)) s.now
          ∧ (t.task, b, lii) ∉ s.delays then
        { s with delays := (t.task, b, lii) :: s.delays }
      else s)

/-- L_EVSWI_WRITE (R124, R131): any write sets PEND bit 12. -/
def execLEvswiWrite (l : Fin 256) (_v : W32) (s : State) : Answer := .next (s.raiseEvent l 12)

/-- L_CLK_LO_READ (R98): the high half is latched for its requester; only the lane and the service cores reach the register. -/
def execLClkLoRead (l : Fin 256) (q : Requester) (s : State) : Answer :=
  .next (match q with
    | .lane => s.setLane l ((s.lane l).ctlRead l 0x038 true).2
    | .service => s.setLane l ((s.lane l).ctlRead l 0x038 false).2
    | .host | .tls => s)

/-- L_ECC_READ (R4, R97): both counts are cleared by the read. -/
def execLEccRead (l : Fin 256) (s : State) : Answer := .next (s.setLane l ((s.lane l).ctlRead l 0x034 false).2)

/-- The freeze copy of the class's present cycle has been made (R16). -/
def State.copied (s : State) (k : Nat) : Bool := (s.cls_ k).freezing.isNone && decide ((s.cls_ k).frozen = (s.cls_ k).bnd)

/-- Raises the cycle starts a lane is owed whose freeze copies are complete (R16), C0 first (R25). -/
def State.raiseOwed (s : State) (l : Nat) : State :=
  (List.range 8).foldl (init := s) fun s k =>
    let x := s.lane l
    if x.owed.getLsbD k && !x.gated && s.copied k then
      (s.setLane l { x with owed := x.owed &&& ~~~(BitVec.twoPow 8 k) }).raiseEvent l k
    else s

/-- The lane a pacer serves: of those waiting the lowest number (R452). -/
def lowestOf (ls : List Nat) : Option Nat := ls.foldl (fun m l => some (match m with | none => l | some j => min j l)) none

/-- LANE_WAKE_GRANT (R452): wakes for a cycle start first, then the others, lane numbers rising; a granted lane runs, and is given the cycle starts it is owed (R16). -/
def execLaneWakeGrant (s : State) : Answer :=
  .next (
    let of (w : Wake) := lowestOf ((s.pwr.wakeQ.filter fun p => decide (p.2 = w)).map (·.1))
    match (of .cycle).orElse fun _ => of .other with
    | none => s
    | some l =>
      let x := s.lane l
      let q := s.pwr.wakeQ.filter fun p => decide (p.1 ≠ l)
      let s := { s with pwr := { s.pwr with wakeQ := q } }
      (s.setLane l { x with gated := false, run := !x.wait }).raiseOwed l)

/-- LANE_GATE_GRANT (R130, R452): a lane halted in WAITEV with GATE enters the gated state, unless an event can be taken by now; one that is owed a cycle start asks for its wake at once (R16). -/
def execLaneGateGrant (s : State) : Answer :=
  .next (match lowestOf s.pwr.gateQ with
    | none => s
    | some l =>
      let x := s.lane l
      let q := s.pwr.gateQ.filter fun j => decide (j ≠ l)
      let s := { s with pwr := { s.pwr with gateQ := q } }
      if x.wait && x.gate && x.takeable.isNone then
        let s := s.setLane l { x with gated := true }
        if x.owed = 0 then s else s.requestWake l .cycle
      else s)

/-! ### Scrubbing and background test -/

/-- Protected words of IM or DM in a lane's window: 128 KiB of 8 bytes. -/
def laneWords : Nat := 0x4000

/-- One word of a lane memory scrubbed: a single-bit error is corrected, rewritten and counted in L_ECC (R96). -/
def State.scrubLane (s : State) (l : Nat) (im : Bool) (a : Nat) : State :=
  match s.eccOf a with
  | some .single =>
    let x := s.lane l
    let x := if im then { x with imCorr := sat16 x.imCorr } else { x with dmCorr := sat16 x.dmCorr }
    ((s.setLane l x).clearEcc a).countCe
  | _ => s

/-- IM_DM_SCRUB (R96): every 1,024 lane clocks one word of IM and one of DM, then the next ones. -/
def execImDmScrub (l : Fin 256) (s : State) : Answer :=
  .next (if !s.due (.scrubLane l) then s
    else
      let w := (s.lane l).scrub
      let s := s.scrubLane l true (imAddr l (8 * w))
      let s := s.scrubLane l false (dmAddr l (0x20000 + 8 * w))
      (s.setLane l { s.lane l with scrub := (w + 1) % laneWords }).after (.scrubLane l) 1024)

/-- An address lies in Image Memory, or in DRAM (R26). -/
def inImage (a : Nat) : Bool := decide (0x4000000000 ≤ a) && decide (a < 0x4001000000)
def inDram (a : Nat) : Bool := decide (a < 0x200000000)

/-- MEMORY_SCRUB (R250): a word of Image Memory or DRAM is read, corrected and rewritten; an uncorrectable error there is module-level evidence for 100 ms (R230, R251). -/
def execMemoryScrub (addr : BitVec 40) (s : State) : Answer :=
  .next (
    let a := addr.toNat
    if !inImage a && !inDram a then s
    else match s.eccOf a with
      | some .single => (s.clearEcc a).countCe
      | some .uncorrectable =>
        if inImage a then s.imageError else s.dramError
      | none => s)

/-- A lane holds no task that this module executes: none in the plan, or a warm standby's (R249). -/
def State.laneFree (s : State) (l : Nat) : Bool :=
  ((List.range 8).flatMap s.tasksOf).all fun t =>
    decide (t.lane ≠ l) || !s.executes (taskPart t.task) t.cls (((s.cls_ t.cls).bnd).getD 0)

/-- BACKGROUND_TEST_START (R249): BGTEST is set on a lane that holds no task; the test takes at most 20 ms. -/
def execBackgroundTestStart (l : Fin 256) (s : State) : Answer :=
  .next (
    let x := s.lane l
    if s.laneFree l && !x.bgtest then (s.setLane l { x with bgtest := true }).after (.bgTest l) (20 * msec) else s)

/-- A lane back in service (R249). -/
def Lane.restored (x : Lane) : Lane := { x with retire := false, bgPasses := 0, hwVerdicts := [] }

/-- BACKGROUND_TEST_COMPLETE (R249): a failure retires the lane and counts in the Health Report; three passes in succession bring a retired lane back. -/
def execBackgroundTestComplete (l : Fin 256) (passed : Bool) (s : State) : Answer :=
  .next (
    let x := s.lane l
    if !x.bgtest then s
    else
      let s := s.disarm (.bgTest l)
      let x := { x with bgtest := false }
      if passed then
        let x := { x with bgPasses := x.bgPasses + 1 }
        s.setLane l (if x.retire ∧ 3 ≤ x.bgPasses then x.restored else x)
      else
        let s := { s with mod := { s.mod with bgFail := s.mod.bgFail + 1, bgFailAt := some s.clk } }
        let s := s.setLane l { x with bgPasses := 0 }
        if x.retire then s else s.retireLane l 1)

end Sys2Proof.Machine
end

