-- ==== Sys2Proof/Machine/PairCmds.lean ====
section
/-! DEFINITION. Commands 0x05xx and 0x06xx (R247, R335, R343, R344, R362): the pair and its time. -/
namespace Sys2Proof.Machine

/-! ### The pair (R247, R343) -/

/-- PAIR_STATUS (R247): both Health Reports, the term, revert hold and inhibit, the stage of a handover. -/
def execPairStatus (q : ReqSrc) (s : State) : CmdAnswer :=
  .next (s.command q 0x0501 (fun _ => .pair) (fun r => [sys r]) fun r s =>
    let partner := if s.pair.pReport.isEmpty then List.replicate 64 0 else s.pair.pReport
    let hand := (s.pair.hand.map fun h => h.stage + 1).getD 0
    s.okay r (s.healthReport ++ partner ++ leBytes 4 s.pair.term.toNat ++ leBytes 4 s.nv.hold ++ [BitVec.ofNat 8 (bit s.nv.inhibit), BitVec.ofNat 8 hand, 0, 0]))

/-- PAIR_SWITCH (R246, R247): the present standby is asked to propose a handover. -/
def execPairSwitch (q : ReqSrc) (s : State) : CmdAnswer :=
  .next (s.command q 0x0502 (fun _ => .pair)
    (fun r => [sys r, (s.partnerSynced && !s.disputeOpen && !s.epochSoon, .notNow), (s.pair.hand.isNone, .busy)])
    fun r s => (s.toPartner (.role (.propose 0 true))).okay r [])

/-- PAIR_REVERT_INHIBIT (R247, R343): on both modules, kept across resets. -/
def execPairRevertInhibit (q : ReqSrc) (s : State) : CmdAnswer :=
  .next (s.command q 0x0503 (fun _ => .pair) (fun r => [lenIs r 4, sys r, (decide (field r.payload 0 1 < 2), .checkFail)]) fun r s =>
    ({ s with nv := { s.nv with inhibit := decide (field r.payload 0 1 = 1) } }.mirrorCmd r []).okay r [])

/-- PAIR_SET_HOLD (R245, R343): the hold counts from the instant it began. -/
def execPairSetHold (q : ReqSrc) (s : State) : CmdAnswer :=
  .next (s.command q 0x0504 (fun _ => .pair)
    (fun r => [lenIs r 4, sys r, (decide (10 ≤ field r.payload 0 4) && decide (field r.payload 0 4 ≤ 86400), .checkFail)]) fun r s =>
    ({ s with nv := { s.nv with hold := field r.payload 0 4 } }.mirrorCmd r []).okay r [])

/-- The module goes into SERVICE (R254): a standby, or one that is JOINING. -/
def State.mayServe (s : State) : Bool :=
  match s.mod.st with
  | .synced | .unsynced | .joining => true
  | _ => false

/-- PAIR_SERVICE (R247, R254, R343). -/
def execPairService (q : ReqSrc) (s : State) : CmdAnswer :=
  .next (s.command q 0x0505 (fun r => .named (field r.payload 0 2))
    (fun r =>
      let m := field r.payload 0 2
      [lenIs r 4, sys r, (decide (m < 4096) && decide (s.position m = .module), .checkFail), (decide (m ≠ s.module) || s.mayServe, .notNow)])
    fun r s => (s.setState .service).okay r [])

/-! ### Time (R344, R362, R364) -/

/-- TIME_STATUS (R335): T_STAT, source, estimated error. -/
def execTimeStatus (q : ReqSrc) (s : State) : CmdAnswer :=
  .next (s.commandHere q 0x0601 (fun _ => []) fun r s =>
    s.okay r (leBytes 4 ((s.timeReg 0x004).getD 0).toNat ++ leBytes 4 s.time.src.toNat ++ leBytes 4 s.timeErr))

/-- The size of a step. -/
def stepSize (x : W64) : Nat := x.toInt.natAbs

/-- TIME_ACCEPT_STEP (R344, R363, R364): the ACTIVE module decides S and the step, its partner takes both. -/
def execTimeAcceptStep (q : ReqSrc) (s : State) : CmdAnswer :=
  .next (s.command q 0x0602 (fun _ => .pair)
    (fun r => if s.follows .pair r then [] else
      [lenIs r 8, sys r, (!s.executor .pair || s.time.stepRefused, .notNow), (!s.executor .pair || decide (stepSize s.time.refused ≤ field r.payload 0 8), .checkFail)])
    fun r s =>
      let own := s.executor .pair
      let step := if own then s.time.refused else BitVec.ofNat 64 (field r.payload 8 8)
      let at_ := if own then wholeSecond s.now (200 * msec) else BitVec.ofNat 64 (field r.payload 16 8)
      let bs := leBytes 8 step.toNat ++ leBytes 8 at_.toNat
      ((s.setStep at_ step).mirrorCmd r bs).okay r bs)

/-- TIME_SET is in range: T_STEP_THR from 100 ns to 10 ms, sources of T_STAT each named once, a PTP domain (R354, R362, R369). -/
def timeCfgOk (x : TimeCfg) : Bool :=
  decide (100 ≤ x.stepThr) && decide (x.stepThr ≤ 10000000) && x.srcPrio.all (fun y => decide (1 ≤ y) && decide (y ≤ 3))
    && decide (x.srcPrio.eraseDups = x.srcPrio) && decide (x.ptpDomain < 256)

/-- TIME_SET (R354, R362). -/
def execTimeSet (q : ReqSrc) (cfg : TimeCfg) (s : State) : CmdAnswer :=
  .next (s.command q 0x0603 (fun _ => .pair) (fun r => [sys r, (timeCfgOk cfg, .checkFail)]) fun r s =>
    ({ s with time := { s.time with stepThr := BitVec.ofNat 32 cfg.stepThr, srcPrio := cfg.srcPrio, ptpDomain := cfg.ptpDomain } }.mirrorCmd r []).okay r [])

end Sys2Proof.Machine
end

