-- ==== Sys2Proof/Machine/PartCmds.lean ====
section
/-! DEFINITION. Commands 0x02xx and 0x04xx (R335): partitions, Access Guard rules, the class table, reading and steering the plan. -/
namespace Sys2Proof.Machine

/-- Starts the work of a request that an epoch answers (R336). -/
def State.startWork (s : State) (r : Request) (w : Work) : State := (s.started r).addWork w (some r.key)

/-! ### Partitions (R37 to R43, R63, R335) -/

def Reserve.wf (r : Reserve) : Bool :=
  (r.lane ++ r.ring ++ r.spare).all fun x => decide (x.1 < 8)

/-- PARTITION_CREATE (R37, R38, R40): a new user partition, LOADED. -/
def execPartitionCreate (q : ReqSrc) (cfg : PartCfg) (s : State) : CmdAnswer :=
  .next (s.command q 0x0201 (fun _ => .leader)
    (fun r => [sys r, s.epochIs r,
      (decide (1 ≤ cfg.part) && decide (cfg.part < 512) && (domPart s.pl.dom cfg.part).isNone && Reserve.wf cfg.reserve, .checkFail),
      (permits cfg.crit cfg.profile, .denied)])
    fun r s => s.startWork r (.create cfg))

/-- PARTITION_REMOVE (R335). -/
def execPartitionRemove (q : ReqSrc) (part : Fin 512) (s : State) : CmdAnswer :=
  .next (s.command q 0x0202 (fun _ => .leader)
    (fun r => [sys r, s.epochIs r, s.partThere part,
      (match s.part? part with | some x => decide (x.state = .loaded) && x.pend.isNone && decide (x.change = .none) | none => false, .notNow)])
    fun r s => s.startWork r (.remove part))

/-- No ordered change of state is still to be entered. -/
def State.settledPart (s : State) (p : Nat) : Bool × Status := (((s.part? p).map fun x => x.pend.isNone).getD true, .busy)

/-- An overload put the partition in SAFE, or a guarantee broken so is still open: the epoch that charges its tasks again (R168, R171). -/
def State.takeUp (s : State) (p : Nat) : Option Work :=
  if ((domPart s.pl.dom p).map (·.stopped)).getD false then some (.restart p) else none

/-- No class that a partition uses is about to change its entry in the class table (R30). -/
def State.classesSettled (s : State) (p : Nat) : Bool :=
  let ks := (s.pl.dom.packages.filter fun g => decide (Package.of g = p)).map (·.task.cls)
  (s.pl.todo.map (·.1) ++ (s.pl.issue.map (·.work)).toList).all fun w => match w with
    | .classSet k _ _ => decide (k ∉ ks)
    | _ => true

/-- An ordered state of a partition reaches every module that holds it (R39, R63, R330): the leader decides the instant, the others follow. -/
def State.orderPart (s : State) (r : Request) (p : Nat) (st : PState) : State :=
  let leads := s.executor .leader
  let e := if leads then s.nextSlowest p else r.leaderInstant
  let s := match s.part? p with
    | some x => s.setPart p (x.order_ st e 0)
    | none => s
  (s.spread r (leBytes 8 e.toNat)).okay r []

/-- PARTITION_START (R39, R63, R171). -/
def execPartitionStart (q : ReqSrc) (part : Fin 512) (s : State) : CmdAnswer :=
  .next (s.command q 0x0203 (fun _ => .leader)
    (fun r => [s.ownP r part, s.epochIs r, s.partThere part, (decide ((s.part? part).map (·.state) ≠ some .running), .notNow), s.settledPart part,
      (s.classesSettled part, .busy)])
    fun r s =>
      match s.takeUp part with
      | none => s.orderPart r part .running
      | some w =>
        match s.computePlan w (s.topEpoch + 1) with
        | .inl _ => s.refuse r .noRoom
        | .inr _ => (s.addWork w none).orderPart r part .running)

/-- PARTITION_STOP (R39). -/
def execPartitionStop (q : ReqSrc) (part : Fin 512) (s : State) : CmdAnswer :=
  .next (s.command q 0x0204 (fun _ => .leader)
    (fun r => [own r part, s.epochIs r, s.partThere part, (decide ((s.part? part).map (·.state) ≠ some .loaded), .notNow), s.settledPart part])
    fun r s => s.orderPart r part .loaded)

/-- PARTITION_SAFE (R60, R61): the trigger code of a command is 0. -/
def execPartitionSafe (q : ReqSrc) (part : Fin 512) (s : State) : CmdAnswer :=
  .next (s.command q 0x0205 (fun _ => .leader)
    (fun r => [own r part, s.partThere part, (decide ((s.part? part).map (·.state) = some .running), .notNow)])
    fun r s => (s.safeTrigger part 0).okay r [])

/-- Some task of a partition has no coded variant (R73). -/
def Domain.lacksCoded (d : Domain) (p : Nat) : Bool :=
  d.packages.any fun g => decide (Package.of g = p) && !g.task.coded && !g.task.bitLogic

/-- Profiles numbered as in R340. -/
def profileOfNum : Nat → Option Profile
  | 0 => some .winter
  | 1 => some .autumn
  | 2 => some .summer
  | 3 => some .spring
  | _ => none

/-- A change of a partition's profile is waiting or under way (R42, R262). -/
def State.profileBusy (s : State) (p : Nat) : Bool :=
  ((s.part? p).map (·.pendProfile.isSome)).getD false
    || (s.pl.todo.map (·.1) ++ (s.pl.issue.map (·.work)).toList).any (fun w => match w with | .profile x _ => decide (x = p) | _ => false)
    || (s.pl.prep.any fun x => match domPart x.dom p, domPart s.pl.dom p with
        | some a, some b => decide (a.cfg.profile ≠ b.cfg.profile)
        | _, _ => false)

/-- Every module that would execute beside an ACTIVE one is STANDBY SYNCED (R42 step 4). -/
def State.partnersSynced (s : State) (p : Nat) : Bool :=
  s.pl.dom.mods.all fun x => decide (x.1 % 2 = 1) || !(x.2.tasks.any fun t => decide (taskPart t.task = p))
    || match s.viewOfModule x.1, s.viewOfModule (x.1 + 1) with
      | some (a, _), some (b, _) => decide ((a = 6 ∧ b = 5) ∨ (a = 5 ∧ b = 6))
      | _, _ => false

/-- PARTITION_SET_PROFILE (R40 to R42, R73, R262, R340); WINTER and AUTUMN run the coded pass, WINTER and SUMMER are hot. -/
def State.profileChecks (s : State) (r : Request) : List (Bool × Status) :=
  let p := r.partAt4
  let new := profileOfNum (field r.payload 6 1)
  let x := s.part? p
  let old := (x.map (·.cfg.profile)).getD .winter
  let crit := (x.map (·.cfg.crit)).getD .a
  let n := new.getD .winter
  [lenIs r 8, own r p, s.epochIs r, (x.isSome && new.isSome, .checkFail),
    (Machine.permits crit n && !(n.coded && !old.coded && Domain.lacksCoded s.pl.dom p), .denied),
    (decide (x.map (·.state) ≠ some .safe), .safeState),
    (!s.profileBusy p && decide (x.map (·.change) ≠ some .unconfirmed), .busy),
    (!(n.hot && !old.hot) || s.partnersSynced p, .notNow)]

/-- PARTITION_SET_PROFILE (R40 to R43, R73, R262). -/
def execPartitionSetProfile (q : ReqSrc) (s : State) : CmdAnswer :=
  .next (s.command q 0x0206 (fun _ => .leader) s.profileChecks fun r s =>
    s.startWork r (.profile r.partAt4 ((profileOfNum (field r.payload 6 1)).getD .winter)))

/-- PARTITION_SET_POLICY (R52, R83, R303): SAFE only in class P; an overrun limit of 1 to 16. -/
def execPartitionSetPolicy (q : ReqSrc) (part : Fin 512) (mismatchSafe faultSafe : Bool) (limit : Nat) (s : State) : CmdAnswer :=
  .next (s.command q 0x0207 (fun _ => .leader)
    (fun r => [s.ownP r part, (decide ((s.part? part).map (·.cfg.crit) ≠ some .p) || (mismatchSafe && faultSafe), .denied),
      ((s.part? part).isSome && decide (1 ≤ limit) && decide (limit ≤ 16), .checkFail)])
    fun r s =>
      let s := match s.part? part with
        | some x => s.setPart part { x with mismatchSafe := mismatchSafe, faultSafe := faultSafe, limit := limit }
        | none => s
      (s.spread r []).okay r [])

/-- Reservations as PARTITION_STATUS gives them: per class lane, ring and spare, then image (R37). -/
def Reserve.bytes (x : Reserve) : List Byte :=
  (List.range 8).flatMap (fun k => leBytes 4 (tget 0 x.lane k) ++ leBytes 4 (tget 0 x.ring k) ++ leBytes 4 (tget 0 x.spare k)) ++ leBytes 4 x.image

def PState.code : PState → Nat | .loaded => 0 | .running => 1 | .safe => 2

/-- PARTITION_STATUS (R335, R491): state, profile, change state, reservations, overrun counts, broken guarantees. -/
def execPartitionStatus (q : ReqSrc) (part : Fin 512) (s : State) : CmdAnswer :=
  .next (s.command q 0x020B (fun _ => .leader) (fun r => [own r part, s.partThere part]) fun r s =>
    match s.part? part with
    | none => s.refuse r .checkFail
    | some x =>
      let counts := s.overrun.filter fun c => decide (c.1 / 2 ^ 23 = part.val)
      let broken := s.pl.dom.broken.filter fun b => decide (b.victim = part.val) && !b.restored
      s.okay r (List.take 4064 ([BitVec.ofNat 8 (PState.code x.state), BitVec.ofNat 8 (profileNum x.cfg.profile), BitVec.ofNat 8 (Change.num x.change), 0]
        ++ Reserve.bytes x.cfg.reserve ++ leBytes 2 counts.length ++ leBytes 2 broken.length
        ++ counts.flatMap (fun c => leBytes 4 c.1 ++ leBytes 4 c.2)
        ++ broken.flatMap fun b => [BitVec.ofNat 8 b.step, BitVec.ofNat 8 b.resource] ++ leBytes 2 b.beneficiary ++ leBytes 4 b.amount ++ leBytes 4 b.since.toNat)))

/-- PARTITION_SET_RESERVATION (R37, R38, R335). -/
def execPartitionSetReservation (q : ReqSrc) (part : Fin 512) (x : Reserve) (s : State) : CmdAnswer :=
  .next (s.command q 0x020C (fun _ => .leader) (fun r => [sys r, s.epochIs r, ((s.part? part).isSome && Reserve.wf x, .checkFail)]) fun r s =>
    s.startWork r (.reservation part x))

/-! ### Access Guard rules (R294, R299) -/

/-- GUARD_SET (R294): at most 1,024 configured rules, none for lanes. -/
def execGuardSet (q : ReqSrc) (rules : List Rule) (s : State) : CmdAnswer :=
  .next (s.commandHere q 0x0208 (fun r => [sys r, (decide (rules.length ≤ 1024) && rules.all (fun x => !x.attr.getLsbD 3), .checkFail)]) fun r s =>
    { s with guard := { s.guard with configured := rules.map fun (x : Rule) => { x with origin := x.origin &&& 0x7FFFFFFF } } }.okay r [])

/-- GUARD_COMMIT (R299): the leader issues an epoch that brings every module's merged table into force. -/
def execGuardCommit (q : ReqSrc) (s : State) : CmdAnswer :=
  .next (s.command q 0x0209 (fun _ => .leader) (fun r => [sys r, s.epochIs r]) fun r s => s.startWork r .guard)

/-- GUARD_QUERY (R299): the active rules a session may see; DETAIL is their number, a request may name the first one wanted. -/
def execGuardQuery (q : ReqSrc) (s : State) : CmdAnswer :=
  .next (s.commandHere q 0x020A (fun _ => []) fun r s =>
    let rs := (s.guard.active.map (·.2)).filter fun x => Rule.valid x && (decide (r.part = 0) || Rule.gro x || decide (Rule.part x = r.part))
    let page := (rs.drop (field r.payload 0 4)).take 254
    s.answer r .ok rs.length (page.flatMap fun x => leBytes 4 x.attr.toNat ++ leBytes 4 x.base.toNat ++ leBytes 4 x.limit.toNat ++ leBytes 4 x.origin.toNat))

/-! ### The class table (R12, R29, R30) -/

/-- A period and phase in µs are in range (R12, R29). -/
def classOk (period phase : Nat) : Bool := decide (period % 10 = 0) && decide (100 ≤ period) && decide (period ≤ 1000000) && decide (phase < period)

/-- CLASS_SET (R29, R30). -/
def execClassSet (q : ReqSrc) (k : Fin 8) (period phase : Nat) (s : State) : CmdAnswer :=
  .next (s.command q 0x0401 (fun _ => .leader) (fun r => [sys r, s.epochIs r, (classOk period phase, .checkFail), (s.classFree k, .notNow)]) fun r s =>
    s.startWork r (.classSet k period phase))

/-- CLASS_GET (R335): period and phase of every class in µs. -/
def execClassGet (q : ReqSrc) (s : State) : CmdAnswer :=
  .next (s.commandHere q 0x0402 (fun _ => []) fun r s =>
    s.okay r ((List.range 8).flatMap fun k => leBytes 4 (s.cls_ k).period ++ leBytes 4 (s.cls_ k).phase))

/-! ### Reading and steering the plan (R172, R341) -/

/-- TASK records (R341). -/
def State.taskRecord (s : State) (d : Domain) (ps : List Put) (fs : List SetForm) (m : Nat) (t : TaskPlan) : List Byte :=
  let q := pairOf m
  let lane := (ps.filter fun p => decide (p.pair = q) && decide (p.lane = t.lane) && p.live).map (·.t)
  let rk := (completionNs d (s.termsOf ps fs q (pathNs (s.longestRoute fs q))) lane t.cls 0).getD 0
  let switch := s.pl.prep.filter fun x => (((tfind x.dom.mods m).map (·.affected)).getD []).contains t.cls
  let at_ : Nat := match switch.bind (·.go) with
    | some g => (lo32 ((s.cls_ t.cls).nextBoundary g)).toNat
    | none => 0
  [1, BitVec.ofNat 8 t.cls, BitVec.ofNat 8 t.lane, BitVec.ofNat 8 (bit t.pinPair.isSome + bit switch.isSome * 2)] ++ leBytes 4 t.task.toNat
    ++ leBytes 2 m ++ leBytes 2 0 ++ leBytes 4 at_ ++ leBytes 4 rk ++ leBytes 4 (domPeriod d t.cls * 1000 - rk)

/-- VAR records; a force shows where its variable is homed on this pair (R54, R341). -/
def State.varRecord (s : State) (pl : ModPlan) (e : LiiEntry) : List Byte :=
  let set := ((pl.sets.find? fun x => !x.shadow && !x.io && x.words.any fun w => decide (w.2 = e.lii)).map (·.set)).getD 0
  let forced := s.liveForces.any fun f => decide (f.vid = e.vid)
  [2, BitVec.ofNat 8 (tagNum e.tag), BitVec.ofNat 8 (bit forced), 0] ++ leBytes 4 e.declared.toNat ++ leBytes 4 e.vid.toNat ++ leBytes 4 e.lii
    ++ leBytes 4 set.toNat ++ leBytes 4 0

/-- REPLICA records (R341). -/
def replicaRecord (d : Domain) (m : Nat) (pl : ModPlan) (e : LiiEntry) : List Byte :=
  let st := ((pl.subs.find? fun u => u.words.contains e.lii).map (·.statusLii)).getD 0xFFFFF
  [3, BitVec.ofNat 8 e.cls, 0, 0] ++ leBytes 4 (currentOf d.aka e.declared).toNat ++ leBytes 2 m ++ leBytes 2 0 ++ leBytes 4 e.lii ++ leBytes 4 st ++ leBytes 4 0

/-- RECOVERY and BROKEN records (R341). -/
def spareRecord (z : Spare) : List Byte :=
  [4, 0, 0, 0] ++ leBytes 2 z.part ++ leBytes 2 z.host ++ leBytes 2 z.pair ++ leBytes 2 0 ++ leBytes 4 ((z.lane.map (·.2)).sum)
    ++ leBytes 1 ((z.lane.map fun x => 2 ^ x.1).sum) ++ leBytes 7 0
def brokenRecord (b : Broken) : List Byte :=
  [5, BitVec.ofNat 8 b.step, 0, 0] ++ leBytes 2 b.victim ++ leBytes 2 b.beneficiary ++ [BitVec.ofNat 8 b.resource, 0, 0, 0] ++ leBytes 4 b.amount
    ++ leBytes 4 b.since.toNat ++ leBytes 4 0

/-- Every record of the kinds asked for of the partitions a session may see, in a fixed order within an epoch (R172, R341). -/
def State.planRecords (s : State) (sees : Nat → Bool) (kinds : Nat) : List (List Byte) :=
  let d := s.pl.dom
  let ps := putsOf d
  let fs := s.setsOf d ps
  let want (n : Nat) : Bool := decide (bitsAt kinds n 1 = 1)
  let homes := d.mods.filter fun x => decide (x.1 % 2 = 0) || s.unpaired
  (if want 0 then homes.flatMap fun x => (x.2.tasks.filter fun t => sees (taskPart t.task)).map (s.taskRecord d ps fs x.1) else [])
    ++ (if want 1 then homes.flatMap fun x => (x.2.lii.filter fun e => !e.replica && sees e.part).map (s.varRecord x.2) else [])
    ++ (if want 2 then d.mods.flatMap fun x => (x.2.lii.filter fun e => e.replica && decide (e.vid ≠ noVid) && sees e.part).map (replicaRecord d x.1 x.2) else [])
    ++ (if want 3 then (d.spare.filter fun z => sees z.part).map spareRecord else [])
    ++ (if want 4 then (d.broken.filter fun b => sees b.victim && !b.restored).map brokenRecord else [])

/-- PLACE_QUERY (R172, R332, R341): one page of at most 168 records. -/
def execPlaceQuery (q : ReqSrc) (s : State) : CmdAnswer :=
  .next (s.command q 0x0403 (fun _ => .leader)
    (fun r =>
      let p := r.partAt4
      [lenIs r 12, (decide (p = 0xFFFF) || (own r p).1, .denied), s.epochIs r,
        ((decide (p = 0xFFFF) || (s.part? p).isSome) && decide (field r.payload 6 1 < 32), .checkFail)])
    fun r s =>
      let p := r.partAt4
      let cur := field r.payload 8 4
      let sees (x : Nat) : Bool := if p = 0xFFFF then decide (r.part = 0) || decide (x = r.part) else decide (x = p)
      let all := s.planRecords sees (field r.payload 6 1)
      let page := (all.drop cur).take 168
      let next := if cur + page.length < all.length then cur + page.length else 0xFFFFFFFF
      s.okay r (leBytes 4 s.pl.epoch.toNat ++ leBytes 4 next ++ leBytes 2 page.length ++ leBytes 2 0 ++ page.flatten))

/-- PLACE_REBALANCE (R149, R172). -/
def execPlaceRebalance (q : ReqSrc) (parts : List Nat) (s : State) : CmdAnswer :=
  .next (s.command q 0x0404 (fun _ => .leader)
    (fun r => [sys r, s.epochIs r, (parts.all fun p => (s.part? p).isSome, .checkFail), (s.pl.issue.isNone && s.pl.prep.isNone, .notNow)])
    fun r s => s.startWork r (.rebalance parts))

end Sys2Proof.Machine
end

