-- ==== Sys2Proof/Machine/PowerOps.lean ====
section
/-! DEFINITION. The reset (R453), what outlives it (R223, R256, R270, R392, R421), the straps (R450), the stop in order (R455) and who begins it. -/
namespace Sys2Proof.Machine

/-! ### Straps (R450, R462) -/

/-- Straps are valid when ADDR[11:0] and ADDRP hold an odd number of ones (R450). -/
def Pins.parityOk (p : Pins) : Bool :=
  decide ((((List.range 12).filter fun i => p.addr.getLsbD i).length + bit p.addrp) % 2 = 1)

/-- PWR_STRAP of the contacts (R462). -/
def Pins.strapWord (p : Pins) : W16 :=
  BitVec.ofNat 16 (bit p.parityOk * 2 ^ 15 + bit p.recoveryN * 2 ^ 14 + bit p.pairSide * 2 ^ 13 + bit p.addrp * 2 ^ 12 + p.addr.toNat)

/-- RECOVERY_N and PAIR_SIDE as sampled. -/
def Pwr.recoveryN (p : Pwr) : Bool := p.strap.getLsbD 14
def Pwr.pairSide (p : Pwr) : Bool := p.strap.getLsbD 13

/-! ### What a reset leaves (R453) -/

/-- MRAM keeps its bytes; DRAM, Image Memory, IM and DM do not (R26, R270, R486). -/
def mramOnly (m : List Host.Cell) : List Host.Cell := m.filter fun x => decide (0x5000000000 ≤ x.1) && decide (x.1 < 0x5008000000)

/-- A partition after a reset: its configuration and change state stand in the configuration store, it is LOADED (R39, R256). -/
def Part.afterReset (p : Part) : Part :=
  { p with state := .loaded, pend := none, was := .loaded, entered := [], later := [], pendProfile := none, profEntered := [], owedFrom := [], reverting := false }

def Cls.afterReset (c : Cls) : Cls := { Cls.reset with period := c.period, phase := c.phase }

def Can.afterReset (c : Can) : Can :=
  { Can.reset with mode := c.mode, nbt := c.nbt, dbt := c.dbt, tdc := c.tdc, tref := c.tref, match_ := c.match_, mask := c.mask,
                   objs := c.objs.map fun o => { cfg := o.cfg, words := o.words.map fun _ => 0, count := [] }, seqCls := c.seqCls, seqDepth := c.seqDepth,
                   tx := c.tx.map fun o => { cfg := o.cfg, pend := none, next := none, onBus := false, aborting := false, last := none, commits := 0 },
                   table := c.table }

def Station.afterReset (x : Station) : Station :=
  { Station.reset with mode := x.mode, pubs := x.pubs.map fun q => (q.1, 0, 0), ip := x.ip, ipMask := x.ipMask, ipGate := x.ipGate }

/-- MRAM holds the areas, histograms and pointers of the recorder; SEQ survives (R421, R423). -/
def Recorder.afterReset (r : Recorder) : Recorder :=
  { Recorder.reset with seq := r.seq, circ := r.circ, ff := r.ff, ffCount := r.ff.length, modes := r.modes, hist := r.hist }

/-- The safety store (R392, R394, R397). -/
def Trip.afterReset (t : Trip) : Trip :=
  { Trip.reset with image := t.image, pendImage := t.pendImage, safetyPart := t.safetyPart, permitVids := t.permitVids, password := t.password,
                    pwFails := t.pwFails, pwLockUntil := t.pwLockUntil, log := t.log, logSeq := t.logSeq }

def Time.afterReset (t : Time) : Time := { Time.reset with stepThr := t.stepThr, srcPrio := t.srcPrio, ptpDomain := t.ptpDomain }

/-- The plan and the placer state that a module held when it was reset (R140). -/
def Place.afterReset (p : Place) : Place :=
  { Place.reset with epoch := p.epoch, plan := p.plan, history := p.history, dom := p.dom, lastApply := p.lastApply }

/-- A start of the TRIAL slot that a reset ends before it succeeds is a failed boot (R278); an open update is in no store of R270 and ends with a reset. -/
def State.failedBoot (s : State) : Nv :=
  let trial := decide ((if s.nv.runB then s.nv.slotB.st else s.nv.slotA.st) = .trial)
  let starting := decide (s.mod.st = .boot) || decide (s.mod.st = .joining)
  { s.nv with update := none, failedBoots := if trial && starting && !s.mod.bootOk then s.nv.failedBoots + 1 else s.nv.failedBoots }

/-- Supply and straps after a reset: CAUSE, the straps as sampled in BYPASS, and what is live while the converters stay on (R446, R450, R453). -/
def Pwr.afterReset (p : Pwr) (pins : Pins) (cause : Byte) (conv : Bool) : Pwr :=
  { Pwr.reset with cause := cause, strap := pins.strapWord, startDly := p.startDly, convOn := conv, locked := p.locked, tcxoBad := p.tcxoBad,
                   holdupOk := conv && p.holdupOk, railOk := if conv then 0xFF else 0x01 }

/-- A reset: BYPASS with every register at its reset value; the pins' levels, the stores in MRAM and the configuration they hold stay (R204, R223, R253, R316, R376, R453). -/
def State.resetTo (s : State) (cause : Byte) (conv : Bool) : State :=
  let pins := { Pins.reset with vin := s.pins.vin, vinSince := s.pins.vinSince, rstN := s.pins.rstN, presentN := s.pins.presentN, addr := s.pins.addr, addrp := s.pins.addrp,
                                pairSide := s.pins.pairSide, recoveryN := s.pins.recoveryN }
  { State.reset with
      pending := s.pending, clk := s.clk, free := s.free, out := s.out, timers := [], pins := pins,
      mod := { Mod.reset with resetAt := s.clk, restarts := s.mod.restarts }, time := s.time.afterReset, mem := mramOnly s.mem,
      cls := s.cls.map fun x => (x.1, x.2.afterReset), parts := s.parts.map fun x => (x.1, x.2.afterReset),
      guard := { Guard.reset with configured := s.guard.configured }, pl := s.pl.afterReset, pair := { Pair.reset with term := s.pair.term },
      trip := s.trip.afterReset, can := s.can.map fun x => (x.1, x.2.afterReset),
      stn := s.stn.afterReset, rcd := s.rcd.afterReset, pwr := s.pwr.afterReset pins cause conv, nv := s.failedBoot }

/-- A reset under which the converters stay on: BOOT follows once RST_N is high (R451, R453, R454). -/
def State.warmReset (s : State) (cause : Byte) : State :=
  let s := s.resetTo cause s.pwr.convOn
  if s.pins.rstN && s.pwr.convOn then s.after .rstRelease 0 else s

/-! ### The start delay (R451) -/

/-- Conditions of the start delay: VIN at or above 18.5 V and not above 33 V, PRESENT_N low, straps valid, no restart waited for or refused (R444, R450, R451, R457, R458). -/
def State.mayStart (s : State) : Bool :=
  decide (18500 ≤ s.pins.vin) && decide (s.pins.vin ≤ 33000) && !s.pins.presentN && s.pins.parityOk && !s.pwr.locked && !s.pwr.convOn
    && !s.armed .restart && decide (s.mod.st = .bypass)

/-- (column mod 8) × 50 ms (R451). -/
def Pins.startDelayMs (p : Pins) : Nat := p.addr.toNat % 64 % 8 * 50

/-- The start delay begins, once VIN has been valid for 10 ms; without its conditions it does not run. -/
def State.startDelay (s : State) : State :=
  if s.mayStart then s.arm .startDelay (max s.clk (s.pins.vinSince + 10 * msec) + s.pins.startDelayMs * msec) else s.disarm .startDelay

/-! ### The stop in order (R455, R456, R466) -/

/-- Causes under which the converters go off (R453). -/
def powerCause (c : Byte) : Bool := decide (c ∈ [0x01#8, 0x02, 0x03])

/-- Lanes, SerDes, PHYs, CAN transceivers and couplers go off; POWER_LOSS is written and the staging queue emptied at 50,000 records per second (R421, R456). -/
def State.powerDown (s : State) (cause : Byte) : State :=
  let s := { s with mod := { s.mod with stop := .powerSeq cause }, pwr := { s.pwr with ploss := true },
                    lanes := s.lanes.map fun (x : Nat × Lane) => (x.1, { x.2 with run := false, gated := true }),
                    can := s.can.map fun (x : Nat × Can) => (x.1, { x.2 with on := false }), trip := { s.trip with drive := 0, value := 0, running := false } }
  let s := if cause = 0x01 then s.record 0x0004 0 0 (BitVec.ofNat 32 s.pwr.vin.toNat) 0 0 0 else s
  s.after .powerSeq (20 * usec * s.rcd.staging.length)

/-- A later reason to stop joins one in progress: the loss of supply comes before a command's reset, a withdrawal leaves the module silent. -/
def mergeCause (old new : Byte) : Byte := if powerCause new || decide (old = 0) then new else old

/-- A stop in order begins (R455 step 1, R466): the module is silent and no longer ACTIVE, its outputs open. Cause 0 is a withdrawal without a reset. -/
def State.stopInOrder (s : State) (cause : Byte) (withdrawn : Bool) : State :=
  match s.mod.stop with
  | .none =>
    let d := if s.mod.st = .active then msec else 100 * usec
    { s with mod := { s.mod with stop := .waiting cause withdrawn }, trip := { s.trip with drive := 0, value := 0 } }.after .stopWait d
  | .waiting c w => { s with mod := { s.mod with stop := .waiting (mergeCause c cause) (w || withdrawn) } }
  | .planned c w => { s with mod := { s.mod with stop := .planned (mergeCause c cause) (w || withdrawn) } }
  | .silent => if powerCause cause then s.powerDown cause else s
  | .powerSeq _ => s

/-- The stop is over (R455 step 4, R456, R466). -/
def State.stopEnds (s : State) (cause : Byte) (withdrawn : Bool) : State :=
  if powerCause cause then s.powerDown cause
  else if withdrawn then { s with mod := { s.mod with stop := .silent } }
  else s.warmReset cause

end Sys2Proof.Machine
end

