-- ==== Sys2Proof/Machine/Power.lean ====
section
/-! DEFINITION. The Power System's commands: VIN, PRESENT_N, RST_N, straps, rails and temperatures (R444 to R458, R466, R467), resets and the stop in order (R453 to R456), BOOT and the choice of the firmware slot (R271, R278, R283, R459), the trial limit (R278, R279), the LEDs and the FLT contact (R460, R461), and the registers of R462. -/
namespace Sys2Proof.Machine

/-! ### Firmware slots (R271, R278, R283) -/

def Nv.slot (n : Nv) (b : Bool) : Slot := if b then n.slotB else n.slotA
def Nv.setSlot (n : Nv) (b : Bool) (x : Slot) : Nv := if b then { n with slotB := x } else { n with slotA := x }

/-- The TRIAL slot, if there is one: true is slot B. -/
def Nv.trial (n : Nv) : Option Bool :=
  if n.slotA.st = .trial then some false else if n.slotB.st = .trial then some true else none

/-- 2 h of running without COMMIT_UPDATE, in seconds (R278). -/
def trialMax : Nat := 7200

/-- The ROM no longer starts the TRIAL slot: the UPDATE_FALLBACK cause (R278, R420). -/
def Nv.trialOver (n : Nv) : Option Nat :=
  if 3 ≤ n.failedBoots then some 0 else if trialMax ≤ n.trialTime then some 1 else none

/-- The slot that the ROM starts: TRIAL while it may run, else CONFIRMED (R278). -/
def Nv.choose (n : Nv) : Bool :=
  match n.trial with
  | some b => if n.trialOver.isNone then b else !b
  | none => decide (n.slotB.st = .confirmed)

/-- A slot whose SHA-384 or signature check fails becomes INVALID (R271). -/
def Nv.checked (n : Nv) (aOk bOk : Bool) : Nv :=
  let n := if aOk then n else { n with slotA := { n.slotA with st := .invalid } }
  if bOk then n else { n with slotB := { n.slotB with st := .invalid } }

/-- Why the ROM enters RECOVERY, by the causes of RECOVERY_ENTERED (R283, R420). -/
def State.recoveryCause (s : State) : Option Nat :=
  let n := s.nv
  let st := (n.slot n.choose).st
  if n.slotA.st = .invalid ∧ n.slotB.st = .invalid then some 0
  else if !s.pwr.recoveryN then some 1
  else if n.recReq then some 2
  else if st = .confirmed ∨ st = .trial then none
  else some 3

/-! ### BOOT (R450, R459) -/

/-- BYPASS ends: the slot is chosen, HRDY goes high, straps stay as last sampled (R329, R450, R459). -/
def State.enterBoot (s : State) : State :=
  let s := s.setState .boot
  let s := { s with mod := { s.mod with watchdog := false }, pins := { s.pins with hrdy := true }, host := { s.host with stBoot := true },
                    nv := { s.nv with runB := s.nv.choose } }
  s.after .bootLimit (60 * sec)

/-- VIN as it stands; PWR_VIN keeps the value of a detected loss while the module stops for it. -/
def State.vinIs (s : State) (mv : Nat) : State :=
  let since := if s.pins.vin < 18500 ∧ 18500 ≤ mv then s.clk else s.pins.vinSince
  { s with pins := { s.pins with vin := mv, vinSince := since } }

def State.measureVin (s : State) (mv : Nat) : State := { s with pwr := { s.pwr with vin := BitVec.ofNat 16 (min mv 0xFFFF) } }

/-- The module has been withdrawn and waits for the end of VIN (R466). -/
def Mod.withdrawn (m : Mod) : Bool :=
  match m.stop with
  | .waiting _ w | .planned _ w => w
  | .silent => true
  | _ => false

/-- The power-loss sequence runs; it completes whatever comes (R456). -/
def Mod.inPowerSeq (m : Mod) : Bool :=
  match m.stop with
  | .powerSeq _ => true
  | _ => false

/-- The module stops for a loss of supply, a rail fault or over-temperature. -/
def Mod.stopsForPower (m : Mod) : Bool :=
  match m.stop with
  | .waiting c _ | .planned c _ | .powerSeq c => powerCause c
  | _ => false

/-- A reset without a stop in order may act: the module has power, has not been withdrawn and does not run the power-loss sequence (R456, R466). -/
def State.resettable (s : State) : Bool := decide (s.mod.st ≠ .off) && !s.mod.withdrawn && !s.mod.inPowerSeq

/-- VIN_APPLIED (R444, R451, R453, R456): VIN rises to 18.5 V or more. -/
def State.vinApplied (s : State) (mv : Nat) : State :=
  if mv < 18500 then s.vinIs mv
  else
    let old := s.mod.st
    let s := s.vinIs mv
    if old = .off then ((s.resetTo 0x00 false).measureVin mv).startDelay
    else
      let s := if s.mod.stopsForPower then s else s.measureVin mv
      if s.mod.st = .bypass ∧ !s.pwr.convOn ∧ !s.armed .startDelay then s.startDelay else s

def execVinApplied (mv : Nat) (s : State) : Host.Outcome State Fault Refusal := .next (s.vinApplied mv)

/-- Without VIN there is no state but OFF; above 33 V the converters are off in BYPASS (R253, R444). -/
def State.supplyGone (s : State) : State :=
  if s.pins.vin < 17000 then
    { s with mod := { s.mod with st := .off, restarts := [] }, timers := [], pwr := { s.pwr with locked := false, vin := 0 } }
  else s

/-- POWER_LOSS (R444, R453, R455, R456): VIN below 17.0 V for 20 µs, or above 33 V. -/
def State.powerLoss (s : State) (mv : Nat) : State :=
  let s := s.vinIs mv
  if 17000 ≤ mv ∧ mv ≤ 33000 then s
  else if s.mod.st = .off then s
  else if !s.pwr.convOn then ((s.measureVin mv).disarm .startDelay).supplyGone
  else if s.mod.inPowerSeq then s
  else if !s.pwr.holdupOk || decide (s.mod.st = .bypass) then ((s.resetTo 0x01 false).measureVin mv).supplyGone
  else if s.mod.stopsForPower then s.stopInOrder 0x01 false
  else (s.measureVin mv).stopInOrder 0x01 false

def execPowerLoss (mv : Nat) (s : State) : Host.Outcome State Fault Refusal := .next (s.powerLoss mv)

/-- START_DELAY_EXPIRY (R446, R450, R451, R454, R459): the converters are switched on, and BOOT begins unless RST_N is low; or BOOT begins after the release of a reset under which they stayed on. -/
def State.startDelayExpiry (s : State) : State :=
  if s.mod.st ≠ .bypass then s
  else if !s.pwr.convOn && s.mayStart && s.expired .startDelay then
    let ms := BitVec.ofNat 16 s.pins.startDelayMs
    let s := (s.disarm .startDelay).disarm .restart
    let s := { s with pwr := { s.pwr with convOn := true, railOk := 0xFF, startDly := ms } }
    if s.pins.rstN then s.enterBoot else s
  else if s.pwr.convOn && s.pins.rstN && !s.pwr.tcxoBad && !s.stopping && s.expired .rstRelease then (s.disarm .rstRelease).enterBoot
  else s

def execStartDelayExpiry (s : State) : Host.Outcome State Fault Refusal := .next s.startDelayExpiry

/-- HOLDUP_CHARGED (R446). -/
def execHoldupCharged (s : State) : Host.Outcome State Fault Refusal :=
  .next (if s.pwr.convOn then { s with pwr := { s.pwr with holdupOk := true } } else s)

/-- STRAP_CHANGE (R450, R451, R468): in BYPASS the supervisor samples continuously, and a change begins the start delay again. -/
def State.strapChange (s : State) (addr : BitVec 12) (addrp side recoveryN : Bool) : State :=
  let s := { s with pins := { s.pins with addr := addr, addrp := addrp, pairSide := side, recoveryN := recoveryN } }
  if s.mod.st ≠ .bypass then s
  else
    let s := { s with pwr := { s.pwr with strap := s.pins.strapWord } }
    if s.pwr.convOn then s else s.startDelay

def execStrapChange (addr : BitVec 12) (addrp side recoveryN : Bool) (s : State) : Host.Outcome State Fault Refusal :=
  .next (s.strapChange addr addrp side recoveryN)

/-! ### RST_N and PRESENT_N (R454, R466, R467) -/

/-- RST_N_LOW (R453, R454, R458): low for 10 µs. -/
def State.rstLow (s : State) : State :=
  let s := { s with pins := { s.pins with rstN := false }, pwr := { s.pwr with locked := false }, mod := { s.mod with restarts := [] } }
  if !s.resettable then s
  else if s.mod.st = .bypass ∧ !s.pwr.convOn then (if s.armed .startDelay then s else s.startDelay)
  else s.resetTo 0x10 s.pwr.convOn

def execRstNLow (s : State) : Host.Outcome State Fault Refusal := .next s.rstLow

/-- RST_N_HIGH (R454): with the converters on BOOT begins 1 ms later. -/
def execRstNHigh (s : State) : Host.Outcome State Fault Refusal :=
  .next (
    let rose := !s.pins.rstN
    let s := { s with pins := { s.pins with rstN := true } }
    if rose && decide (s.mod.st = .bypass) && s.pwr.convOn then s.after .rstRelease msec else s)

/-- PRESENT_N_HIGH (R208, R466): the module falls silent, in order, until VIN is lost. -/
def State.presentHigh (s : State) : State :=
  let was := s.pins.presentN
  let s := { s with pins := { s.pins with presentN := true } }
  if was || decide (s.mod.st = .off) then s
  else if s.mod.st = .bypass then { s.disarm .startDelay with mod := { s.mod with stop := .silent } }
  else s.stopInOrder 0 true

def execPresentNHigh (s : State) : Host.Outcome State Fault Refusal := .next s.presentHigh

/-- PRESENT_N_LOW (R451, R466, R467): fully mated; a module withdrawn halfway resets as from RST_N. -/
def State.presentLow (s : State) : State :=
  let s := { s with pins := { s.pins with presentN := false } }
  if s.mod.st = .off ∨ s.mod.inPowerSeq then s
  else if s.mod.withdrawn then
    let s := s.resetTo 0x10 s.pwr.convOn
    if !s.pwr.convOn then s.startDelay
    else if s.pins.rstN then s.after .rstRelease msec
    else s
  else if s.mod.st = .bypass ∧ !s.pwr.convOn ∧ !s.armed .startDelay then s.startDelay
  else s

def execPresentNLow (s : State) : Host.Outcome State Fault Refusal := .next s.presentLow

/-! ### The stop in order and the power-loss sequence (R208, R455, R456) -/

/-- The partner has taken over: its HEARTBEAT shows ACTIVE with a newer term (R455 step 2). -/
def State.partnerTook (s : State) : Bool :=
  match s.pair.view with
  | some v => decide (s.mod.st = .active) && decide (v.st = 6) && termNewer v.term s.pair.term
  | none => false

/-- STOP_IN_ORDER_WAIT_END (R206, R208, R455 steps 2 and 3). -/
def execStopInOrderWaitEnd (s : State) : Host.Outcome State Fault Refusal :=
  .next (match s.mod.stop with
    | .waiting c w =>
      if !s.partnerTook && !s.expired .stopWait then s
      else
        let t0 := s.now + BitVec.ofNat 64 (50 * usec)
        let s := s.disarm .stopWait
        let s := if s.pins.bypEW then s else s.ringPlanClose true t0
        let s := if s.pins.bypNS then s else s.ringPlanClose false t0
        { s with mod := { s.mod with stop := .planned c w } }.after .bypassClose (70 * usec)
    | _ => s)

/-- BYPASS_CLOSE (R208, R455 steps 3 and 4): at t0 + 20 µs of the module's own RING_PLAN; the stop in order is over. -/
def execBypassClose (s : State) : Host.Outcome State Fault Refusal :=
  .next (if !s.expired .bypassClose then s
    else
      let s := s.closeBypass.disarm .bypassClose
      match s.mod.stop with
      | .planned c w => s.stopEnds c w
      | _ => s)

/-- The restart of R457 and R458 that follows a cause, or the start delay of R451. -/
def State.afterSequence (s : State) (c : Byte) : State :=
  if c = 0x02 then s.after .restart sec
  else if c = 0x03 then s.after .restart 0
  else s.startDelay

/-- POWER_LOSS_SEQUENCE_DONE (R456): the staging queue is empty, the converters go off; the module starts again if VIN has returned. -/
def State.powerSeqDone (s : State) : State :=
  match s.mod.stop with
  | .powerSeq c =>
    if !s.expired .powerSeq then s
    else
      let s := ({ s with rcd := s.rcd.flush s.recAt }).resetTo c false
      let s := s.measureVin s.pins.vin
      (if s.pins.vin < 17000 then s.supplyGone else s.afterSequence c)
  | _ => s

def execPowerLossSequenceDone (s : State) : Host.Outcome State Fault Refusal := .next s.powerSeqDone

/-- FAULT_RESTART (R457, R458): after 1 s, or below 95 °C; after three in 10 minutes the module stays in BYPASS. -/
def State.faultRestart (s : State) (tdie : W16) : State :=
  let s := { s with pwr := { s.pwr with tdie := tdie } }
  let cool := decide (s.pwr.cause ≠ 0x03) || decide (tdie.toInt < 950)
  if s.mod.st ≠ .bypass ∨ !s.expired .restart ∨ !cool then s
  else
    let past := s.mod.restarts.filter fun t => decide (s.clk - t ≤ 600 * sec)
    let s := s.disarm .restart
    if 3 ≤ past.length then { s with pwr := { s.pwr with locked := true } }
    else { s with mod := { s.mod with restarts := s.clk :: past } }.startDelay

def execFaultRestart (tdie : W16) (s : State) : Host.Outcome State Fault Refusal := .next (s.faultRestart tdie)

/-! ### Rails, temperatures and the causes of a reset (R449, R453, R457) -/

/-- A rail outside ±5 % (R457): recorded in PWR_RAILFLT, and module-level evidence. -/
def State.railOff5 (s : State) (rail : Nat) : State :=
  { s with pwr := { s.pwr with out5 := s.pwr.out5 ||| BitVec.twoPow 8 rail, railOk := s.pwr.railOk &&& ~~~(BitVec.twoPow 8 rail) },
           mod := { s.mod with supply := true } }

/-- RAIL_OUT_5 (R230, R457). -/
def execRailOut5 (rail : Fin 8) (s : State) : Host.Outcome State Fault Refusal :=
  .next (if s.mod.st = .off then s else (s.railOff5 rail.val).giveWay)

/-- RAIL_FAULT (R457): outside ±10 %, or a converter current limit. -/
def execRailFault (rail : Fin 8) (s : State) : Host.Outcome State Fault Refusal :=
  .next (if s.mod.st = .off then s
    else
      let s := s.railOff5 rail.val
      let s := { s with pwr := { s.pwr with out10 := s.pwr.out10 ||| BitVec.twoPow 8 rail.val } }
      if !s.pwr.convOn || s.mod.inPowerSeq then s
      else (s.record 0x0103 0 0 (BitVec.ofNat 32 s.pins.vin) (BitVec.ofNat 32 (rail.val + 1)) 0 0).stopInOrder 0x02 false)

/-- The temperatures as measured (R462), and TEMP at 105 °C or 75 °C (R457). -/
def State.temps (s : State) (tdie tinlet : W16) : State :=
  let hot := decide (1050 ≤ tdie.toInt) || decide (750 ≤ tinlet.toInt)
  { s with pwr := { s.pwr with tdie := tdie, tinlet := tinlet }, mod := { s.mod with temp := s.mod.temp || hot } }

/-- TEMP_WARNING (R230, R457). -/
def execTempWarning (tdie tinlet : W16) (s : State) : Host.Outcome State Fault Refusal :=
  .next (if s.mod.st = .off then s
    else
      let s := s.temps tdie tinlet
      if s.mod.temp then s.giveWay else s)

/-- TEMP_FAULT (R457): 125 °C for 10 ms. -/
def execTempFault (tdie tinlet : W16) (s : State) : Host.Outcome State Fault Refusal :=
  .next (if s.mod.st = .off then s
    else
      let s := s.temps tdie tinlet
      if tdie.toInt < 1250 ∨ !s.pwr.convOn ∨ s.mod.inPowerSeq then s
      else (s.record 0x0104 0 0 (tdie.signExtend 32) (tinlet.signExtend 32) 0 0).stopInOrder 0x03 false)

/-- WATCHDOG_EXPIRY (R453, R461): of a service core, after 100 ms. -/
def execWatchdogExpiry (_core : Fin 4) (s : State) : Host.Outcome State Fault Refusal :=
  .next (if !s.powered || !s.resettable then s
    else
      let s := s.warmReset 0x40
      { s with mod := { s.mod with watchdog := true } })

/-- BOOT_TIMEOUT (R453): BOOT not complete after 60 s. -/
def execBootTimeout (s : State) : Host.Outcome State Fault Refusal :=
  .next (if s.mod.st ≠ .boot ∨ !s.expired .bootLimit ∨ !s.resettable then s else s.warmReset 0x41)

/-- CLOCK_MONITOR_FAULT (R449): the module stays in BYPASS until the TCXO has been valid for 100 ms. -/
def execClockMonitorFault (s : State) : Host.Outcome State Fault Refusal :=
  .next (if !s.pwr.convOn || !s.resettable then s
    else
      let s := s.resetTo 0x42 true
      { s with pwr := { s.pwr with tcxoBad := true } })

/-- TCXO_VALID (R449). -/
def execTcxoValid (s : State) : Host.Outcome State Fault Refusal :=
  .next (if !s.pwr.tcxoBad then s
    else
      let s := { s with pwr := { s.pwr with tcxoBad := false } }
      if s.mod.st = .bypass ∧ s.pwr.convOn ∧ s.pins.rstN then s.after .rstRelease 0 else s)

/-- DELAYED_RESET (R345): 10 ms after the command's response was filled the module stops in order. -/
def execDelayedReset (s : State) : Host.Outcome State Fault Refusal :=
  .next (match s.mod.resetDue with
    | some c =>
      if !s.expired .delayedReset then s
      else { s.disarm .delayedReset with mod := { s.mod with resetDue := none } }.stopInOrder c false
    | none => s)

/-! ### The end of BOOT (R86, R88, R207, R216, R254, R265, R281, R283, R391, R415, R459) -/

/-- The units in the order of a round: the spare first (R86). -/
def roundOrder : List Nat := 16 :: List.range 16

/-- What the comparator round of BOOT finds of a unit (R85, R254). -/
def State.bootFinds (s : State) (failed : List (Nat × Nat)) (u : Nat) : Option Nat :=
  s.testFinds u ((failed.find? fun f => decide (f.1 = u)).map (·.2))

/-- The comparator round of BOOT: every unit is tested (R85, R86); a failed one is handled under R88. -/
def State.bootRound (s : State) (failed : List (Nat × Nat)) : State :=
  let one (s : State) (u : Nat) : State :=
    let s' := s.judged u (s.bootFinds failed u)
    match s.bootFinds failed u with
    | some i => s'.cmpFailed u i
    | none => s'
  let s := roundOrder.foldl one s
  if s.rnd.stopped then s else (s.testsDone true).after .cmpRound (10 * sec)

/-- The firmware starts: MODULE_START, and what the ROM left it to report (R278, R283, R420). -/
def State.firmwareStart (s : State) (fell : Option (Nat × W32)) : State :=
  let s := s.record 0x0101 0 0 (BitVec.ofNat 32 (s.pwr.cause.toNat / 16)) (BitVec.ofNat 32 (bit s.nv.runB)) 0 0
  let s := match fell with
    | some (c, v) => s.record 0x0705 0 (bit s.nv.runB) (BitVec.ofNat 32 c) v 0 0
    | none => s
  match s.nv.recCause with
  | some c => ({ s with nv := { s.nv with recCause := none } }).record 0x0707 0 (bit s.nv.runB) (BitVec.ofNat 32 c) 0 0 0
  | none => s

/-- A TRIAL slot that starts: the configuration is converted at its first start, and its running time counts on (R278, R281). -/
def State.trialStarts (s : State) : State :=
  if (s.nv.slot s.nv.runB).st ≠ .trial then s
  else
    let first := s.nv.trialStart.isNone
    let s := { s with nv := { s.nv with trialStart := some (s.nv.trialStart.getD s.clk), cfgBoth := s.nv.cfgBoth || first } }
    (s.after .trialSave (60 * sec)).after .trialLimit ((trialMax - s.nv.trialTime) * sec)

/-- Configuration that takes effect at a reset (R338 item 0x0001). -/
def State.loadConfig (s : State) : State :=
  match s.nv.pendDomain with
  | some (d, r, c) => { s with nv := { s.nv with domainId := d, nr := r, nc := c, pendDomain := none } }
  | none => s

/-- Image, lanes and Access Guard as BOOT leaves them for the plan in store (R265, R297, R459). -/
def State.prepareWork (s : State) : State :=
  let s := (s.imageInit s.pl.plan).linkAll s.pl.plan
  { s with guard := { s.guard with active := s.mergedRules s.pl.plan } }

/-- A partner that is ACTIVE or STANDBY answers over the Pair Link (R207). -/
def State.partnerThere (s : State) : Bool :=
  s.pairLink && match s.pair.view with
    | some v => decide (v.st = 4 ∨ v.st = 5 ∨ v.st = 6)
    | none => false

/-- The bypasses open: announced by the partner, the row first, or at once without one (R207). -/
def State.leaveBypass (s : State) : State :=
  if s.partnerThere then { s with ring := { s.ring with openNext := true } }.askBypass true
  else (s.openBypass true).openBypass false

/-- BOOT ends in JOINING or SERVICE: the checkers start, the CAN transceivers are powered in turn (R207, R391, R415, R459). -/
def State.leaveBoot (s : State) (ok : Bool) : State :=
  let s := (s.setState (if ok then .joining else .service)).tripStart.leaveBypass
  if ok then
    let s := (List.range 4).foldl (fun (s : State) c => s.after (.canOn c) (2 * msec * c)) s
    s.after .partnerSilent (if s.unpaired then 0 else 2 * sec)
  else s

/-- The ROM enters RECOVERY (R283 to R285); the request of ENTER_RECOVERY is used up. -/
def State.enterRecovery (s : State) (cause : Nat) : State :=
  { s with nv := { s.nv with recReq := false, recCause := some cause } }.setState .recovery

/-- BOOT_COMPLETE (R88, R216, R254, R258, R271, R278, R283, R459). -/
def State.bootComplete (s : State) (r : BootResult) : State :=
  let s := s.disarm .bootLimit
  let s := { s with nv := s.nv.moveAll }
  let nv := s.nv.checked r.slotAOk r.slotBOk
  let fell := match nv.trial, nv.trialOver with
    | some b, some c => some (b, c, (nv.slot b).version)
    | _, _ => none
  let s := { s with nv := { nv with runB := nv.choose } }
  let cause := s.recoveryCause
  let s := match fell with
    | some (b, _, _) =>
      { s with nv := { s.nv.setSlot b { s.nv.slot b with st := .valid } with failedBoots := 0, trialTime := 0, trialStart := none, fallback := none } }
    | none => s
  match cause with
  | some c => s.enterRecovery c
  | none =>
    let s := (s.firmwareStart (fell.map (·.2))).trialStarts.loadConfig
    let failing := (roundOrder.filter fun u => (s.bootFinds r.cmpFailed u).isSome).length
    let s := (s.bootRound r.cmpFailed).prepareWork
    let side := decide (s.pwr.pairSide = s.pwr.strap.getLsbD 0)
    let s := if side then s
      else s.record 0x0102 0 0 (BitVec.ofNat 32 (bit s.pwr.pairSide)) (BitVec.ofNat 32 (bit (s.pwr.strap.getLsbD 0))) 0 0
    s.leaveBoot (r.selfTestOk && side && decide (failing < 2))

def execBootComplete (r : BootResult) (s : State) : Host.Outcome State Fault Refusal :=
  .next (if s.mod.st ≠ .boot ∨ s.stopping then s else s.bootComplete r)

/-! ### The trial limit (R278, R279) -/

/-- A minute of running time of the TRIAL slot is saved (R278). -/
def execTrialTimeSave (s : State) : Host.Outcome State Fault Refusal :=
  .next (if !s.expired .trialSave ∨ (s.nv.slot s.nv.runB).st ≠ .trial then s
    else { s with nv := { s.nv with trialTime := s.nv.trialTime + 60 } }.again .trialSave (60 * sec))

/-- The fall-back is due: a module that is not ACTIVE resets, an ACTIVE one hands over first or defers (R279). -/
def State.fallBack (s : State) : State :=
  if s.stopping then s
  else
    let s := { s with nv := { s.nv with fallback := some 1, trialTime := max s.nv.trialTime trialMax } }
    if s.mod.st ≠ .active then (s.disarm .fallback).stopInOrder 0x30 false
    else if s.partnerSynced then (s.toPartner (.role (.propose 0 true))).after .fallback (60 * sec)
    else (s.record 0x0706 0 (bit s.nv.runB) (s.nv.slot s.nv.runB).version 0 0 0).after .fallback (60 * sec)

/-- TRIAL_TIME_LIMIT (R278, R279): the TRIAL slot has run for 2 h in total without COMMIT_UPDATE. -/
def execTrialTimeLimit (s : State) : Host.Outcome State Fault Refusal :=
  .next (if !s.expired .trialLimit ∨ (s.nv.slot s.nv.runB).st ≠ .trial then s else (s.disarm .trialLimit).fallBack)

/-- FALLBACK_RETRY (R279): every 60 s until a handover is possible, and at once when it is done. -/
def execFallbackRetry (s : State) : Host.Outcome State Fault Refusal :=
  .next (if !s.expired .fallback ∨ s.nv.fallback.isNone then s else s.fallBack)

/-! ### The registers of R462 -/

/-- LEDTEST (R460, R462): PWR_CTL.LEDTEST is written 1. -/
def State.ledTestOn (s : State) : State := { s with pins := { s.pins with ledTest := true } }.after .led (2 * sec)

def execLedtest (s : State) : Host.Outcome State Fault Refusal := .next s.ledTestOn

/-- LEDTEST_END (R460). -/
def execLedtestEnd (s : State) : Host.Outcome State Fault Refusal :=
  .next (if s.expired .led then { s.disarm .led with pins := { s.pins with ledTest := false } } else s)

/-- The lane that the wake pacer grants next (R452). -/
def Pwr.nextWake (p : Pwr) : Nat :=
  let lanes (w : Wake) := (p.wakeQ.filter fun q => decide (q.2 = w)).map (·.1)
  let low (ls : List Nat) : Option Nat := ls.foldl (fun m l => some (match m with | some j => min j l | none => l)) none
  ((low (lanes .cycle)).orElse fun _ => low (lanes .other)).getD 0

/-- A Power System register as a service core reads it. -/
def Pwr.reg (p : Pwr) (off : Nat) : W32 :=
  let n (x : Nat) : W32 := BitVec.ofNat 32 x
  match off with
  | 0x000 => n (bit p.holdupOk * 2 ^ 9 + bit p.ploss * 2 ^ 8 + p.railOk.toNat)
  | 0x004 => p.cause.setWidth 32
  | 0x008 => p.strap.setWidth 32
  | 0x00C => p.vin.setWidth 32
  | 0x014 => p.tinlet ++ p.tdie
  | 0x018 => n (p.out10.toNat * 2 ^ 8 + p.out5.toNat)
  | 0x01C => n (p.wakeQ.length * 2 ^ 16 + p.nextWake)
  | 0x020 => n (bit p.fltopen)
  | 0x024 => p.startDly.setWidth 32
  | _ => 0

/-- A write of a Power System register by a service core. -/
def State.writePwr (s : State) (off : Nat) (v : W32) : State :=
  match off with
  | 0x018 => { s with pwr := { s.pwr with out5 := s.pwr.out5 &&& ~~~(v.setWidth 8), out10 := s.pwr.out10 &&& ~~~((v >>> 8).setWidth 8) } }
  | 0x020 =>
    let s := { s with pwr := { s.pwr with fltopen := v.getLsbD 0 } }
    if v.getLsbD 1 then s.ledTestOn else s
  | _ => s

/-! ### The front panel and the FLT contact (R460, R461) -/

/-- FLT is closed (R461). -/
def State.fltClosed (s : State) : Bool :=
  s.joined && decide (s.mod.st ≠ .safe) && !s.stopping && !s.modFault && !s.pwr.fltopen && !s.mod.watchdog

/-- What one colour of an LED shows (R460). -/
inductive Led where | off | on | hz1 | hz4
deriving DecidableEq, Repr

/-- The six LEDs; STATE by its green and amber, which alternate when both blink (R460). -/
structure Leds where
  pwr : Led
  stateGreen : Led
  stateAmber : Led
  fault : Led
  trip : Led
  force : Led
  link : Led
deriving DecidableEq, Repr

/-- The PWR LED: a parity failure, the start delay or RST_N low, VIN present (R450, R460). -/
def State.ledPwr (s : State) : Led :=
  if s.mod.st = .off then .off
  else if s.mod.st = .bypass ∧ !s.pins.parityOk then .hz4
  else if s.armed .startDelay ∨ !s.pins.rstN then .hz1
  else .on

/-- Green and amber of the STATE LED (R460). -/
def MState.leds : MState → Led × Led
  | .active => (.on, .off)
  | .synced => (.hz1, .off)
  | .joining | .unsynced => (.hz4, .off)
  | .boot => (.off, .on)
  | .recovery => (.off, .hz1)
  | .service => (.off, .hz4)
  | .safe => (.hz1, .hz1)
  | .off | .bypass => (.off, .off)

/-- The front LEDs (R460); `trip` is H_STAT.TRIP. -/
def State.leds (s : State) (trip : Bool) : Leds :=
  let b (x : Bool) : Led := if x then .on else .off
  if s.mod.st = .off then { pwr := .off, stateGreen := .off, stateAmber := .off, fault := .off, trip := .off, force := .off, link := .off }
  else if s.pins.ledTest then { pwr := .on, stateGreen := .on, stateAmber := .on, fault := .on, trip := .on, force := .on, link := .on }
  else
    let all := [Port.n, .e, .s, .w, .pl].all fun p => s.portUp p
    { pwr := s.ledPwr, stateGreen := (MState.leds s.mod.st).1, stateAmber := (MState.leds s.mod.st).2, fault := b (!s.fltClosed), trip := b trip,
      force := b (!s.liveForces.isEmpty), link := if !s.powered then .off else if all then .on else .hz1 }

end Sys2Proof.Machine
end

