-- ==== Sys2Proof/Machine/ProgramCmds.lean ====
section
/-! DEFINITION. Commands 0x03xx (R256 to R269, R339, R340): loading, switching, confirming and reverting the programs of a partition, and the end of the confirm window. -/
namespace Sys2Proof.Machine

/-! ### Staging (R287, R294, R339) -/

/-- The room of a partition's staging area (R339). -/
def stagingRoom : Nat := 2 ^ 24

/-- Staged packages are still needed: a load is under way, or the change is STAGED or UNCONFIRMED (R339). -/
def State.stagingKept (s : State) (p : Nat) : Bool :=
  s.mb.queue.any (fun x => x.running && decide (x.cmd = 0x0301) && decide (x.partAt4 = p))
    || match s.part? p with
      | some x => x.keepStaged && decide (x.change ≠ .none)
      | none => false

/-- The move a PROGRAM_DATA makes: by the host for the session's partition (R287, R294). -/
def stageAccess (r : Request) : Access :=
  { part := r.part, master := .host, kind := .w, source := srcIx r.src, addr := stagingAddr r.part + field r.payload 0 4, len := r.payload.length - 4 }

/-- Staged bytes and their CRC-32C so far. -/
def Part.stage (x : Part) (off : Nat) (bs : List Byte) : Part :=
  let crc := if off = 0 then BitVec.allOnes 32 else x.stagedCrc
  { x with stagedLen := off + bs.length, stagedCrc := bs.foldl crc32cByte crc, keepStaged := if off = 0 then false else x.keepStaged }

/-- PROGRAM_DATA is taken (R302, R339). -/
def State.stageData (r : Request) (s : State) : State :=
  let a := stageAccess r
  let (ok, s) := s.guardCheck a
  match ok, s.part? r.part with
  | true, some x =>
    let bs := r.payload.drop 4
    ((s.wrBytes a.addr bs).setPart r.part (x.stage (field r.payload 0 4) bs)).okay r []
  | _, _ => (s.recordDeny a).refuse r .denied

/-- PROGRAM_DATA (R339). -/
def execProgramData (q : ReqSrc) (s : State) : CmdAnswer :=
  .next (s.commandHere q 0x0307
    (fun r =>
      let off := field r.payload 0 4
      let len := ((s.part? r.part).map (·.stagedLen)).getD 0
      [(decide (8 ≤ r.payload.length) && decide (r.payload.length ≤ 4064), .badLen), (decide (off = 0) || decide (off = len), .badLen),
        (decide (off ≠ 0) || !s.stagingKept r.part, .busy), (decide (off + r.payload.length ≤ stagingRoom + 4), .noRoom)])
    State.stageData)

/-! ### PROGRAM_LOAD (R257, R259, R260, R339) -/

/-- What the receiving module checks of the bytes it has staged (R339). -/
def State.stagedOk (s : State) (r : Request) : Bool :=
  ReqSrc.isForwarded r.src || match s.part? r.partAt4 with
    | some x => decide (field r.payload 8 4 = x.stagedLen) && decide (field r.payload 12 4 = (~~~x.stagedCrc).toNat)
    | none => false

/-- Checks of PROGRAM_LOAD; those of the leader only where it executes (R259, R339). -/
def State.loadChecks (s : State) (pkgs : List Package) (r : Request) : List (Bool × Status) :=
  let p := r.partAt4
  let here := s.executor .leader
  let n := field r.payload 6 2
  [lenIs r 16, own r p, s.epochIs r, (decide (1 ≤ n) && decide (n ≤ 4096) && (s.part? p).isSome && s.stagedOk r, .checkFail),
    (!here || decide ((s.part? p).map (·.change) = some .none), .busy),
    (!here || decide (pkgs.length = n), .checkFail)]

/-- The staged packages are kept and served from here (R339). -/
def State.keepStaged (s : State) (r : Request) : State :=
  match s.part? r.partAt4 with
  | some x => if ReqSrc.isForwarded r.src then s else s.setPart r.partAt4 { x with keepStaged := true }
  | none => s

/-- The leader checks the packages and stages them by an epoch (R259, R260). -/
def State.loadProgram (pkgs : List Package) (r : Request) (s : State) : State :=
  let p := r.partAt4
  match s.loadFault s.pl.dom p pkgs with
  | some (i, x) => (s.record 0x0701 p s.module (BitVec.ofNat 32 p) (BitVec.ofNat 32 i) x 0).answer r .checkFail i []
  | none => (s.keepStaged r).startWork r (.stage p pkgs)

/-- PROGRAM_LOAD (R33 to R35, R73, R74, R256, R257, R259, R260, R296, R339): `pkgs` is what the staged bytes spell. -/
def execProgramLoad (q : ReqSrc) (pkgs : List Package) (s : State) : CmdAnswer :=
  .next (
    let t := match s.reqOf q 0x0301 with
      | some r => if !s.executor .leader && (firstFail (s.loadChecks pkgs r)).isNone then s.keepStaged r else s
      | none => s
    t.command q 0x0301 (fun _ => .leader) (s.loadChecks pkgs) (State.loadProgram pkgs))

/-! ### Switch, confirm, revert, discard (R256, R262 to R268, R340) -/

/-- The change state of a partition (R256). -/
def State.changeOf (s : State) (p : Nat) : Option Change := (s.part? p).map (·.change)

/-- WINDOW of R340; 0 stands for 3,600 s. -/
def Request.window (r : Request) : Nat := if field r.payload 16 4 = 0 then 3600 else field r.payload 16 4

/-- Checks of PROGRAM_ACTIVATE in the order of R262. -/
def State.activateChecks (s : State) (r : Request) : List (Bool × Status) :=
  let p := r.partAt4
  [lenIs r 20, s.ownP r p, s.epochIs r, ((s.part? p).isSome && decide (60 ≤ r.window) && decide (r.window ≤ 259200), .checkFail),
    (decide ((s.part? p).map (·.state) ≠ some .safe), .safeState), (!s.profileBusy p, .busy),
    (decide (s.changeOf p = some .staged) && s.pl.issue.isNone && s.pl.prep.isNone, .notNow)]

/-- PROGRAM_ACTIVATE (R262, R263, R340): answered when the first GO of the switch epoch has been sent. -/
def execProgramActivate (q : ReqSrc) (s : State) : CmdAnswer :=
  .next (s.command q 0x0302 (fun _ => .leader) s.activateChecks fun r s =>
    s.startWork r (.switch r.partAt4 (BitVec.ofNat 64 (field r.payload 8 8)) r.window false))

/-- Every class of either version has had its first boundary at or after the apply instant (R264, R267). -/
def State.allSwitched (s : State) (p : Nat) : Bool :=
  match s.part? p, domPart s.pl.dom p with
  | some x, some y =>
    let ks := (Domain.classesIn s.pl.dom p ++ (y.other.map (·.task.cls))).eraseDups
    ks.all fun k => reached ((s.cls_ k).nextBoundary x.applyAt) s.now
  | _, _ => false

/-- Checks that the commands on a change share (R340). -/
def State.changeChecks (s : State) (r : Request) (own_ : Bool × Status) (st : Change) : List (Bool × Status) :=
  [lenIs r 8, own_, s.epochIs r, s.partThere r.partAt4, (decide (s.changeOf r.partAt4 = some st), .notNow)]

/-- PROGRAM_CONFIRM (R267). -/
def execProgramConfirm (q : ReqSrc) (s : State) : CmdAnswer :=
  .next (s.command q 0x0303 (fun _ => .leader)
    (fun r => s.changeChecks r (s.ownP r r.partAt4) .unconfirmed ++ [(s.allSwitched r.partAt4, .notNow)])
    fun r s => s.startWork r (.confirm r.partAt4))

/-- A revert of a partition is waiting or under way. -/
def State.revertBusy (s : State) (p : Nat) : Bool :=
  (s.pl.todo.map (·.1) ++ (s.pl.issue.map (·.work)).toList).any fun w => decide (Work.isRevert w = some p)

/-- PROGRAM_REVERT (R268). -/
def execProgramRevert (q : ReqSrc) (s : State) : CmdAnswer :=
  .next (s.command q 0x0304 (fun _ => .leader)
    (fun r => s.changeChecks r (s.ownP r r.partAt4) .unconfirmed ++ [(!s.revertBusy r.partAt4, .busy)])
    fun r s => s.startWork r (.revert r.partAt4 0))

/-- PROGRAM_DISCARD (R256). -/
def execProgramDiscard (q : ReqSrc) (s : State) : CmdAnswer :=
  .next (s.command q 0x0306 (fun _ => .leader) (fun r => s.changeChecks r (own r r.partAt4) .staged) fun r s => s.startWork r (.discard r.partAt4))

/-- Seconds left of a confirm window (R256, R268). -/
def Part.windowLeft (x : Part) (now : W64) : Nat :=
  if x.change = .unconfirmed then x.window - (since now x.applyAt).toNat / sec else 0

/-- PROGRAM_STATUS (R256): change state, the digests of the version in force and the other, apply instant, time left. -/
def execProgramStatus (q : ReqSrc) (part : Fin 512) (s : State) : CmdAnswer :=
  .next (s.command q 0x0305 (fun _ => .leader) (fun r => [own r part, s.partThere part]) fun r s =>
    match s.part? part, domPart s.pl.dom part with
    | some x, y =>
      let code (gs : List Package) : List Byte := gs.flatMap fun g => leBytes 4 g.task.task.toNat ++ g.task.codeP ++ g.task.codeC
      let mine := s.pl.dom.packages.filter fun g => decide (Package.of g = part.val)
      let other := (y.map (·.other)).getD []
      s.okay r ([BitVec.ofNat 8 (Change.num x.change), 0, 0, 0] ++ leBytes 8 (Config.versionDigest (code mine)).toNat
        ++ leBytes 8 (Config.versionDigest (code other)).toNat ++ leBytes 8 x.applyAt.toNat ++ leBytes 4 (x.windowLeft s.now))
    | none, _ => s.refuse r .checkFail)

/-! ### The end of the confirm window (R268, R269) -/

/-- The window of an UNCONFIRMED change has ended, measured in corrected time from the apply instant (R268). -/
def Part.windowOver (x : Part) (now : W64) : Bool :=
  decide (x.change = .unconfirmed) && decide ((x.window * sec : Nat) ≤ since now x.applyAt)

/-- REVERT_WINDOW_END (R268, R269): the leader starts the revert epoch. -/
def execRevertWindowEnd (p : Fin 512) (s : State) : CmdAnswer :=
  .next (match s.part? p with
    | some x =>
      if s.leads ∧ x.windowOver s.now ∧ !x.reverting then
        let s := s.setPart p { x with reverting := true }
        if s.revertBusy p then s else s.addWork (.revert p 1) none
      else s
    | none => s)

/-- REVERT_RETRY (R268): 1 s after an abandoned revert. -/
def execRevertRetry (p : Fin 512) (s : State) : CmdAnswer :=
  .next (if !s.expired (.revertRetry p) then s
    else
      let s := s.disarm (.revertRetry p)
      match s.part? p with
      | some x =>
        if s.leads ∧ x.change = .unconfirmed ∧ !s.revertBusy p then s.addWork (.revert p (bit (x.windowOver s.now))) none else s
      | none => s)

end Sys2Proof.Machine
end

