-- ==== Sys2Proof/Machine/RecCmds.lean ====
section
/-! DEFINITION. Commands 0x08xx (R426, R427, R432 to R434, R440 to R443): the recorder and the counters. -/
namespace Sys2Proof.Machine

/-- A payload that is a sequence of entries of n bytes (R324 step 4). -/
def entriesOf (r : Request) (n : Nat) : Bool × Status := (decide (r.payload.length % n = 0), .badLen)

/-- The entries of a payload that is a sequence of entries of n bytes. -/
def Request.entries (r : Request) (n : Nat) : List (List Byte) :=
  (List.range (r.payload.length / n)).map fun i => (r.payload.drop (n * i)).take n

/-! ### Reading the recorder -/

/-- The 80 bytes of a histogram (R434). -/
def Recorder.histBytes (r : Recorder) (code : Nat) : List Byte :=
  let h := ((r.hist.find? fun p => decide (p.1 = BitVec.ofNat 16 code)).map (·.2)).getD Hist.reset
  leBytes 2 code ++ leBytes 1 (r.mode (BitVec.ofNat 16 code)).base ++ leBytes 1 0 ++ leBytes 4 h.min.toNat ++ leBytes 4 h.max.toNat
    ++ leBytes 4 0 ++ (List.range 16).flatMap fun i => leBytes 4 (tget 0 h.bins i)

/-- AREA and MAX of R432. -/
def Request.area (r : Request) : Nat := field r.payload 0 1
def Request.max (r : Request) : Nat := field r.payload 8 2

/-- The response of REC_READ for areas 0 and 1 (R432). -/
def Recorder.readBytes (r : Recorder) (part : Nat) (ff : Bool) (cur : W32) (n : Nat) : List Byte :=
  match r.read part ff cur n with
  | (es, _, head, old, lostN, next) =>
    leBytes 4 head.toNat ++ leBytes 4 old.toNat ++ leBytes 4 next.toNat ++ leBytes 4 lostN.toNat ++ es.flatMap fun (e : W32 × Rec) => e.2.bytes

/-- REC_READ (R428, R430, R432). -/
def execRecRead (q : ReqSrc) (s : State) : CmdAnswer :=
  .next (s.commandHere q 0x0801 (fun r =>
    [lenIs r 12, (decide (r.area ≠ 2) || decide (r.part = 0), .denied),
     (decide (r.area ≤ 2) && decide (1 ≤ r.max) && decide (r.max ≤ 126), .checkFail)]) fun r s =>
    s.okay r (if r.area = 2 then (recCodes.filter isStatCode).flatMap s.rcd.histBytes
              else s.rcd.readBytes r.part (decide (r.area = 1)) (BitVec.ofNat 32 (field r.payload 4 4)) r.max))

/-- REC_CLEAR (R427). -/
def execRecClear (q : ReqSrc) (s : State) : CmdAnswer :=
  .next (s.commandHere q 0x0802 (fun r => [lenIs r 4, sys r, flagsOk r]) fun r s =>
    { s with rcd := s.rcd.clear s.recAt (decide (field r.payload 0 4 % 2 = 1)) r.part }.okay r [])

/-! ### Limits and statistics (R424, R426, R433) -/

/-- One entry of R426 that may be applied. -/
def modeOk (e : List Byte) : Bool :=
  let code := field e 0 2
  decide (code ∈ recCodes) && !isUnlimited code && decide (1 ≤ field e 2 2) && decide (field e 2 2 ≤ 1000) && decide (1 ≤ field e 4 2)
    && decide (field e 4 2 ≤ 1000) && (decide (field e 6 1 = 0) || (decide (field e 6 1 = 1) && isStatCode code)) && decide (field e 7 1 ≤ 40)

/-- One entry applies: the buckets of the code are full and count their instants from now (R426). -/
def Recorder.setMode (r : Recorder) (clk : Nat) (e : List Byte) : Recorder :=
  let code := BitVec.ofNat 16 (field e 0 2)
  let m : RecMode := { rate := field e 2 2, burst := field e 4 2, stat := decide (field e 6 1 = 1), base := field e 7 1 }
  { r with modes := (code, m) :: r.modes.filter fun p => decide (p.1 ≠ code),
           buckets := r.buckets.map fun (b : Bucket) => if b.code = code then { b with since := clk, ticks := 0, tokens := m.burst } else b }

/-- REC_SET_MODE (R426). -/
def execRecSetMode (q : ReqSrc) (s : State) : CmdAnswer :=
  .next (s.commandHere q 0x0803 (fun r => [entriesOf r 8, sys r, ((r.entries 8).all modeOk, .checkFail)]) fun r s =>
    { s with rcd := (r.entries 8).foldl (fun (d : Recorder) e => d.setMode s.clk e) s.rcd }.okay r [])

/-! ### Counters (R440 to R443) -/

/-- A counter of CTR_SET is written while it is disabled, and cleared if asked (R443). -/
def Ctr.setEntry (c : Ctr) (e : List Byte) : Ctr :=
  let i := field e 0 1
  let w (off : Nat) : W32 := BitVec.ofNat 32 (field e off 4)
  let c := { c with en := c.en &&& ~~~(BitVec.twoPow 64 i) }
  let c := (((c.config i 0 (w 4)).config i 4 (w 8)).config i 8 (w 12)).config i 12 (w 16)
  if bitsAt (field e 1 1) 1 1 = 1 then c.put i { c.get i with val := 0 } else c

/-- The enables that CTR_SET sets with one write pair (R435, R443). -/
def enableMask (es : List (List Byte)) : W64 :=
  es.foldl (fun (m : W64) e => if field e 1 1 % 2 = 1 then m ||| BitVec.twoPow 64 (field e 0 1) else m) 0

/-- CTR_SET (R441, R443). -/
def execCtrSet (q : ReqSrc) (s : State) : CmdAnswer :=
  .next (s.commandHere q 0x0804 (fun r =>
    [entriesOf r 20, sys r, ((r.entries 20).all fun e => decide (field e 0 1 < 64) && decide (field e 1 1 < 4) && decide (field e 7 1 ∈ evCodes), .checkFail)]) fun r s =>
    let es := r.entries 20
    let c := es.foldl (fun (c : Ctr) e => c.setEntry e) s.ctr
    { s with ctr := { c with en := c.en ||| enableMask es, enLo := none } }.okay r [])

/-- CTR_ACL_SET (R441, R443). -/
def execCtrAclSet (q : ReqSrc) (s : State) : CmdAnswer :=
  .next (s.commandHere q 0x0805 (fun r =>
    [entriesOf r 4, sys r, ((r.entries 4).all fun e => decide (field e 0 1 < 64), .checkFail)]) fun r s =>
    let c := (r.entries 4).foldl (fun (c : Ctr) e =>
      c.put (field e 0 1) { c.get (field e 0 1) with acl := BitVec.ofNat 32 (field e 2 2) &&& aclMask }) s.ctr
    { s with ctr := c }.okay r [])

/-- CTR_READ (R440, R443): the counters the request names, as the session's partition reads them. -/
def execCtrRead (q : ReqSrc) (counters : List (Fin 64)) (s : State) : CmdAnswer :=
  .next (s.commandHere q 0x0806 (fun _ => [(decide (counters.length ≤ 508), .badLen)]) fun r s =>
    s.okay r (counters.flatMap fun i => leBytes 4 i.val ++ leBytes 4 (s.ctr.valueFor r.part i.val).toNat))

end Sys2Proof.Machine
end

