-- ==== Sys2Proof/Machine/TripIO.lean ====
section
/-! DEFINITION. The meanings of the Trip I/O rows: samples, overload and over-temperature with their retries, test pulses, and the comparison of check values between the partners (R371 to R397). The latch before a boundary (R377, R405) stands in IoOps. -/
namespace Sys2Proof.Machine

/-- Couplers lost: consecutive samples per channel (R387). -/
def countLost (n : Nat) (t : Table Nat) (lost : Nat → Bool) : Table Nat :=
  (List.range n).filterMap fun i => if lost i then some (i, tget 0 t i + 1) else none

/-- Faults of both checkers at one sample: those A found, then those only B found. -/
def mergeFaults (a b : List (Nat × Nat)) : List (Nat × Nat × Bool) :=
  (a.map fun f => (f.1, f.2, false)) ++ (b.filter fun f => f ∉ a).map fun f => (f.1, f.2, true)

/-- Output faults at a sample: readback against drive for longer than 300 µs, coupler lost for 3 samples (R387). -/
def State.outputFaults (s : State) (m : Nat) : State :=
  if outOwner (cfgOut s.trip.image m) = 0 then s
  else
    let t := s.trip
    let bad := t.rb.getLsbD m != t.drive.getLsbD m
    let at_ := match tfind t.rbBadAt m with
      | some x => x
      | none => s.clk
    let s := { s with trip := { t with rbBadAt := if bad then tput t.rbBadAt m at_ else terase t.rbBadAt m } }
    let s := if bad ∧ 300 * usec < s.clk - at_ then s.latchOut m 0x06 false else s
    if 3 ≤ tget 0 s.trip.lostOutCnt m then s.latchOut m 0x08 false else s

/-- Whether the cause of an output's latch is still present (R389). -/
def State.causePresent (s : State) (m : Nat) (cause : Byte) : Bool :=
  let t := s.trip
  if cause = 0x05 then t.ot.getLsbD m
  else if cause = 0x06 then t.rb.getLsbD m != t.drive.getLsbD m
  else if cause = 0x08 then decide (0 < tget 0 t.lostOutCnt m)
  else false

/-- Clears the checker-owned output latches that name a RESET pair, and says whether it cleared any (R389). -/
def State.clearLatches (s : State) (k : Nat) : State × Bool :=
  (List.range 16).foldl (init := (s, false)) fun (s, hit) m =>
    let cfg := cfgOut s.trip.image m
    match tfind s.trip.latch m with
    | some c =>
      if outOwner cfg = 2 ∧ outRst cfg = k ∧ !s.causePresent m c then
        let t := s.trip
        ({ s with trip := { t with latch := terase t.latch m, ovl := t.ovl &&& ~~~(BitVec.twoPow 16 m) } }, true)
      else (s, hit)
    | none => (s, hit)

/-- A valid reset edge of one RESET pair: both checkers' pairs and the latches; RESET_REFUSED when it finds nothing (R389). -/
def State.resetEdge (s : State) (k : Nat) (inA inB : Bool) : State :=
  let t := s.trip
  let (a, hitA) := if inA then t.a.resetPairs t.image k else (t.a, false)
  let (b, hitB) := if inB then t.b.resetPairs t.image k else (t.b, false)
  let s := { s with trip := { t with a := a, b := b } }
  let (s, hitL) := s.clearLatches k
  if hitA || hitB || hitL then s else s.record 0x0A03 s.trip.safetyPart (0x100 + k) (BitVec.ofNat 32 k) 0 0 0

/-- The cross-check of debounced states, pair states and enables: a difference over 3 samples latches (R381). -/
def State.crossCheck (s : State) (clockBad : Bool) : State :=
  let t := s.trip
  let st (c : Checker) : List SpState := (List.range 16).map fun k => (tget SpSt.reset c.pairs k).st
  let diff := decide (t.a.deb ≠ t.b.deb) || decide (st t.a ≠ st t.b) || decide (t.enables t.a ≠ t.enables t.b)
  let n := if diff then t.diffCnt + 1 else 0
  let s := { s with trip := { t with diffCnt := n } }
  let s := if 3 ≤ n then s.latchAll 0x09 false else s
  if clockBad then s.latchAll 0x0A false else s

/-- TRIP_SAMPLE (R371 to R374, R380 to R391): both checkers take the sample; pairs, then reset edges, then enables. -/
def execTripSample (a b : Sample) (s : State) : Host.Outcome State Fault Refusal :=
  .next (if !s.trip.running || !s.due .tripSample then s
    else
      let t := s.trip
      let im := t.image
      let s := s.again .tripSample (Trip.sper im * usec)
      let oldA := t.a.deb
      let oldB := t.b.deb
      let lostIn := countLost 32 t.lostInCnt fun i => a.lostIn.getLsbD i
      let lostOut := countLost 16 t.lostOutCnt fun i => a.lostOut.getLsbD i
      let (ca, fa) := (t.a.sample im a s.clk).evalPairs im lostIn s.clk
      let (cb, fb) := (t.b.sample im b s.clk).evalPairs im lostIn s.clk
      let (ca, ea, stuckA) := ca.evalResets im oldA s.clk
      let (cb, eb, _) := cb.evalResets im oldB s.clk
      let (ca, cb) := if s.mod.st = MState.synced then (ca.followPartner t.pPairRun s.clk, cb.followPartner t.pPairRun s.clk) else (ca, cb)
      let s := { s with trip := { t with a := ca, b := cb, lostInCnt := lostIn, lostOutCnt := lostOut, rb := a.readback, ot := t.ot &&& a.outHot } }
      let fa := fa ++ t.a.newFaults ca im t.lostInCnt lostIn
      let fb := fb ++ t.b.newFaults cb im t.lostInCnt lostIn
      let s := (mergeFaults fa fb).foldl (fun s f => s.tripFault f.1 f.2.1 f.2.2 false) s
      let s := stuckA.foldl (fun s k => s.record 0x0A02 s.trip.safetyPart (0x100 + k.1) (BitVec.ofNat 32 k.1) (BitVec.ofNat 32 k.2) 0 0) s
      let s := (List.range 16).foldl (fun s k => if k ∈ ea ∨ k ∈ eb then s.resetEdge k (k ∈ ea) (k ∈ eb) else s) s
      let s := (List.range 16).foldl State.outputFaults s
      let s := { s with trip := s.trip.setEnables }
      (s.crossCheck (a.clockBad || b.clockBad)).tripDrive)

/-- An output's protection opens it: a checker-owned output latches with the cause; a partition-owned one tries again at most 3 times where RETRY is set, else it latches (R375, R387). -/
def State.protect (s : State) (m cause : Nat) : State :=
  let cfg := cfgOut s.trip.image m
  let own := outOwner cfg
  let n := tget 0 s.trip.retries m
  let s :=
    if own = 2 then s.latchOut m cause false
    else if own = 1 ∧ outRetry cfg ∧ n < 3 then s.after (.outputRetry m) (outRdelay cfg * 10 * msec)
    else if own = 1 then
      { s with trip := { s.trip with latch := tput s.trip.latch m (BitVec.ofNat 8 cause) } }
    else s
  { s with trip := s.trip.setEnables }.tripDrive

/-- OUTPUT_OVERLOAD (R375): more than 0.7 A for 100 µs. -/
def execOutputOverload (m : Fin 16) (s : State) : Host.Outcome State Fault Refusal :=
  .next ({ s with trip := { s.trip with ovl := s.trip.ovl ||| BitVec.twoPow 16 m } }.protect m 0x04)

/-- OUTPUT_OVERTEMP (R375): a driver junction above 150 °C. -/
def execOutputOvertemp (m : Fin 16) (s : State) : Host.Outcome State Fault Refusal :=
  .next ({ s with trip := { s.trip with ot := s.trip.ot ||| BitVec.twoPow 16 m } }.protect m 0x05)

/-- OUTPUT_RETRY (R375): RDELAY × 10 ms after the output opened, its junction below 130 °C, it closes again. -/
def execOutputRetry (m : Fin 16) (s : State) : Host.Outcome State Fault Refusal :=
  .next (if !s.expired (.outputRetry m) || s.trip.ot.getLsbD m then s
    else
      let s := s.disarm (.outputRetry m)
      let t := s.trip
      let off := ~~~(BitVec.twoPow 16 m)
      { s with trip := { t with retries := tput t.retries m (tget 0 t.retries m + 1), ovl := t.ovl &&& off } }.tripDrive)

/-- An output is due for its test pulse: TEST set, checker-owned and closed, 10 s after its last pulse and 1 ms after any other (R390). -/
def State.pulseDue (s : State) (m : Nat) : Bool :=
  let t := s.trip
  let cfg := cfgOut t.image m
  outTest cfg && decide (outOwner cfg = 2) && t.drive.getLsbD m && t.pulse.isNone
    && (match tfind t.lastPulse m with | some x => decide (10 * sec ≤ s.clk - x.1) | none => true)
    && (match t.pulseEndAt with | some x => decide (msec ≤ s.clk - x) | none => true)

/-- TEST_PULSE_START (R390): one checker opens the output for 200 µs, A and B in turn. -/
def execTestPulseStart (m : Fin 16) (s : State) : Host.Outcome State Fault Refusal :=
  .next (if !s.pulseDue m then s
    else
      let t := s.trip
      let byB := match tfind t.lastPulse m with
        | some x => !x.2
        | none => false
      let t := { t with pulse := some m.val, pulseB := byB, lastPulse := tput t.lastPulse m (s.clk, byB) }
      ({ s with trip := t.setEnables }.tripDrive).after .testPulseEnd (200 * usec))

/-- TEST_PULSE_END (R390): 200 µs later the output closes again; `opened` and `closed` say whether the readback followed within 100 µs. -/
def execTestPulseEnd (opened closed : Bool) (s : State) : Host.Outcome State Fault Refusal :=
  .next (match s.trip.pulse with
    | none => s
    | some m =>
      if !s.expired .testPulseEnd then s
      else
        let s := s.disarm .testPulseEnd
        let byB := s.trip.pulseB
        let s := { s with trip := { s.trip with pulse := none, pulseEndAt := some s.clk } }
        let s := if opened && closed then s else s.latchOut m 0x07 byB
        { s with trip := s.trip.setEnables }.tripDrive)

/-- SAFETY_PAIR_DIFF (R397): while the partners' in-force check values differ, every 60 s. -/
def execSafetyPairDiff (partner : W32) (s : State) : Host.Outcome State Fault Refusal :=
  .next (if s.trip.check = partner || s.unpaired || !s.due .safetyDiff then s
    else (s.record 0x0A05 s.trip.safetyPart 0 s.trip.check partner 0 0).after .safetyDiff (60 * sec))

end Sys2Proof.Machine
end

