-- ==== Sys2Proof/Machine/SafetyCmds.lean ====
section
/-! DEFINITION. Commands 0x0Axx (R333, R347, R392 to R397): safety login, parameters, confirmation and change log; and the Trip I/O registers (R399). -/
namespace Sys2Proof.Machine

/-! ### Login (R333, R394) -/

/-- The session of a request. -/
def State.sessionOf (s : State) (r : Request) : Option Session := s.session r.src r.tag

/-- 0+login (R333). -/
def State.sysLogin (s : State) (r : Request) : Bool × Status :=
  (decide (r.part = 0) && ((s.sessionOf r).map fun x => Session.loggedIn x s.clk).getD false, .denied)

def State.setLogin (s : State) (tag : W64) (t : Option Nat) : State :=
  { s with mb := { s.mb with sessions := s.mb.sessions.map fun (x : Session) => if x.tag = tag then { x with login := t } else x } }

/-- A command of the group keeps the login of its session alive (R333). -/
def State.touchLogin (s : State) (q : ReqSrc) (code : Nat) : State :=
  match s.reqOf q code with
  | some r => if ((s.sessionOf r).map fun x => Session.loggedIn x s.clk).getD false then s.setLogin r.tag (some s.clk) else s
  | none => s

/-- A command of the 0x0Axx group. -/
def State.safetyCmd (s : State) (q : ReqSrc) (code : Nat) (checks : State → Request → List (Bool × Status)) (body : Request → State → State) : State :=
  let s := s.touchLogin q code
  s.commandHere q code (checks s) body

/-! ### The change log (R397) -/

/-- The newest 64 entries stay. -/
def logMax : Nat := 64

/-- SOURCE: the session's partition, bit 15 for TLS. -/
def logSource (r : Request) : W16 :=
  BitVec.ofNat 16 (r.part + match r.src with | .tls _ => 2 ^ 15 | _ => 0)

/-- Adds an entry: KIND, RESULT and the check values before and after. -/
def State.safetyLog (s : State) (r : Request) (kind : Nat) (st : Status) (old new : W32) : State :=
  let t := s.trip
  let e : SafetyLog := { seq := t.logSeq, t := s.now, source := logSource r, kind := BitVec.ofNat 8 kind, result := BitVec.ofNat 8 st.num,
                         oldCheck := old, newCheck := new }
  let l := t.log ++ [e]
  { s with trip := { t with log := l.drop (l.length - logMax), logSeq := t.logSeq + 1 } }

def SafetyLog.bytes (e : SafetyLog) : List Byte :=
  leBytes 4 e.seq.toNat ++ leBytes 8 e.t.toNat ++ leBytes 2 e.source.toNat ++ [e.kind, e.result] ++ leBytes 4 e.oldCheck.toNat
    ++ leBytes 4 e.newCheck.toNat ++ leBytes 8 0

/-! ### Password (R394) -/

/-- The password is the one set; before the first SAFETY_PASSWORD_SET the empty one. -/
def Trip.passwordIs (t : Trip) (pw : List Byte) : Bool :=
  match t.password with
  | none => pw.isEmpty
  | some (salt, digest) => decide (sha384 (salt ++ pw) = digest)

/-- 1 to 16 characters from 0x20 to 0x7E. -/
def passwordOk (pw : List Byte) : Bool :=
  decide (1 ≤ pw.length) && decide (pw.length ≤ 16) && pw.all fun c => decide (0x20 ≤ c.toNat) && decide (c.toNat ≤ 0x7E)

/-- Logins are answered DENIED after 3 wrong passwords within 300 s. -/
def Trip.loginLocked (t : Trip) (clk : Nat) : Bool :=
  match t.pwLockUntil with
  | some x => decide (clk < x)
  | none => false

/-- A wrong password counts; the third within 300 s locks for 300 s. -/
def Trip.wrongPassword (t : Trip) (clk : Nat) : Trip :=
  let fails := (t.pwFails.filter fun x => decide (clk - x ≤ 300 * sec)) ++ [clk]
  if 3 ≤ fails.length then { t with pwFails := [], pwLockUntil := some (clk + 300 * sec) } else { t with pwFails := fails }

/-- SAFETY_LOGIN (R333, R394, R397). -/
def execSafetyLogin (q : ReqSrc) (password : List Byte) (s : State) : CmdAnswer :=
  .next (s.safetyCmd q 0x0A01 (fun _ r => [sys r]) fun r s =>
    let c := s.trip.check
    if s.trip.loginLocked s.clk then (s.safetyLog r 0x02 .denied c c).refuse r .denied
    else if s.trip.passwordIs password then ((s.setLogin r.tag (some s.clk)).safetyLog r 0x01 .ok c c).okay r []
    else ({ s with trip := s.trip.wrongPassword s.clk }.safetyLog r 0x02 .denied c c).refuse r .denied)

/-- SAFETY_LOGIN_EXPIRY (R333): 300 s without a command of the group. -/
def execSafetyLoginExpiry (tag : W64) (s : State) : Host.Outcome State Fault Refusal :=
  .next (if s.mb.sessions.any fun x => decide (x.tag = tag) && x.login.isSome && !Session.loggedIn x s.clk then s.setLogin tag none else s)

/-- SAFETY_PASSWORD_SET (R394, R397): only digest and salt are kept. -/
def execSafetyPasswordSet (q : ReqSrc) (password : List Byte) (s : State) : CmdAnswer :=
  .next (s.safetyCmd q 0x0A06 (fun s r => [s.sysLogin r, (passwordOk password, .checkFail)]) fun r s =>
    let (a, s) := s.draw
    let (b, s) := s.draw
    let salt := leBytes 8 a.toNat ++ leBytes 8 b.toNat
    let c := s.trip.check
    ({ s with trip := { s.trip with password := some (salt, sha384 (salt ++ password)) } }.safetyLog r 0x05 .ok c c).okay r [])

/-! ### Parameters (R392, R393, R395, R396) -/

/-- The check value over an image with the permits of the present plan. -/
def State.checkOver (s : State) (im : List Byte) (part : Nat) : W32 := checkValue im part (s.permits im)

/-- SAFETY_PARAM_SET (R392, R393, R397): the image becomes the pending one, or is refused and the refusal logged. -/
def execSafetyParamSet (q : ReqSrc) (image : List Byte) (s : State) : CmdAnswer :=
  .next (s.safetyCmd q 0x0A02 (fun s r => [(decide (image.length = 260), .badLen), s.sysLogin r]) fun r s =>
    let c := s.trip.check
    if imageOk image then
      ({ s with trip := { s.trip with pendImage := some image } }.safetyLog r 0x03 .ok c (s.checkOver image s.trip.safetyPart)).okay r []
    else (s.safetyLog r 0x03 .checkFail c c).refuse r .checkFail)

/-- The image that SAFETY_CONFIRM loads: the pending one, or the one in force (R396). -/
def Trip.toConfirm (t : Trip) : List Byte := t.pendImage.getD t.image

/-- Both checkers load an image at one sample: changed pairs start again (R391, R396). -/
def Checker.load (c : Checker) (old new : List Byte) (clk : Nat) : Checker :=
  (List.range 16).foldl (init := c) fun (c : Checker) k =>
    let cfg := cfgSp new k
    if cfg = cfgSp old k then c
    else
      let c := { c with seenLow := c.seenLow &&& ~~~(BitVec.twoPow 16 k), rose := terase c.rose k }
      if spReal cfg then
        let (h, d) := pairLevels (spKind cfg) c.deb k
        { c with pairs := tput c.pairs k (SpSt.start cfg h d clk) }
      else { c with pairs := terase c.pairs k }

/-- Outputs whose word or permit VID has changed open and latch until a valid reset edge (R396); such a latch has none of the causes of R387. -/
def Trip.latchChanged (t : Trip) (old new : List Byte) (oldPermits newPermits : List W32) : Trip :=
  (List.range 16).foldl (init := t) fun (t : Trip) m =>
    if cfgOut old m = cfgOut new m ∧ (oldPermits[m]?).getD 0 = (newPermits[m]?).getD 0 ∨ (tfind t.latch m).isSome then t
    else { t with latch := tput t.latch m 0 }

/-- The image is loaded (R396); one that fails the checkers' own rules raises PARAM (R393). -/
def State.loadImage (s : State) (im : List Byte) (part : Nat) : State :=
  if !imageOk im then s.latchAll 0x0B false
  else
    let t := s.trip
    let new := s.permits im
    let t := t.latchChanged t.image im t.permitVids new
    let t := { t with a := t.a.load t.image im s.clk, b := t.b.load t.image im s.clk, image := im, pendImage := none, safetyPart := part,
                      permitVids := new, cfgValid := true }
    { s with trip := t.setEnables }.tripDrive

/-- SAFETY_CONFIRM (R347, R394 to R396). -/
def execSafetyConfirm (q : ReqSrc) (s : State) : CmdAnswer :=
  .next (s.safetyCmd q 0x0A03 (fun s r =>
    let p := field r.payload 0 2
    let im := s.trip.toConfirm
    [lenIs r 8, own r p, (decide ((s.part? p).map (·.cfg.crit) = some .p), .denied),
     (s.trip.password.isSome || !(List.range 16).any fun m => decide (outOwner (cfgOut im m) = 2), .denied),
     (!im.isEmpty && decide (field r.payload 4 4 = (s.checkOver im p).toNat), .checkFail)]) fun r s =>
    let p := field r.payload 0 2
    let old := s.trip.check
    let s := s.loadImage s.trip.toConfirm p
    let s := s.record 0x0A06 p 0 s.trip.check (BitVec.ofNat 32 p) 0 0
    (s.safetyLog r 0x04 .ok old s.trip.check).okay r [])

/-! ### Registers (R399) -/

/-- TIO_SP_STATE of checker A. -/
def Trip.spWord (t : Trip) : Nat :=
  (List.range 16).foldl (init := 0) fun n k =>
    match (tfind t.a.pairs k).map (fun (p : SpSt) => p.st) with
    | some .demand => n + 4 ^ k
    | some .ready => n + 2 * 4 ^ k
    | some .fault => n + 3 * 4 ^ k
    | _ => n

def Trip.latchWord (t : Trip) : Nat := (List.range 16).foldl (fun n m => if t.latched m then n + 2 ^ m else n) 0

def Trip.stat (t : Trip) : Nat :=
  bit (!t.global.isEmpty) * 16 + bit t.pendImage.isSome * 8 + bit t.cfgValid * 4 + bit t.running * 2 + bit t.running

/-- TIO_PEND_CHECK: 0 while no image is pending. -/
def State.pendCheck (s : State) : W32 :=
  match s.trip.pendImage with
  | some im => s.checkOver im s.trip.safetyPart
  | none => 0

/-- A Trip I/O register as a service core reads it; configuration reads 0 until the checkers have loaded a set. -/
def State.tripReg (s : State) (off : Nat) : W32 :=
  let t := s.trip
  let n (x : Nat) : W32 := BitVec.ofNat 32 x
  let im := if t.cfgValid && t.running then t.image else []
  match off with
  | 0x000 => n t.stat
  | 0x004 => t.a.raw
  | 0x008 => t.a.deb
  | 0x00C => t.a.ow
  | 0x010 => t.a.inOt
  | 0x014 => t.rb ++ t.drive
  | 0x018 => t.ot ++ t.ovl
  | 0x01C => n t.latchWord
  | 0x020 => n t.spWord
  | 0x024 => t.check
  | 0x028 => s.pendCheck
  | 0x02C => t.fltInfo
  | 0x034 => n (field im 0 4)
  | _ => if 0x100 ≤ off ∧ off < 0x200 ∧ off % 4 = 0 then n (field im (4 + (off - 0x100)) 4) else 0

/-- A write: only TIO_FLT_INFO.VALID answers to one. -/
def State.writeTrip (s : State) (off : Nat) (v : W32) : State :=
  if off = 0x02C ∧ v.msb then { s with trip := { s.trip with fltInfo := s.trip.fltInfo &&& 0x7FFFFFFF } } else s

/-- SAFETY_STATUS (R335): checker and pair states, latches, check value. -/
def execSafetyStatus (q : ReqSrc) (s : State) : CmdAnswer :=
  .next (s.safetyCmd q 0x0A04 (fun _ r => [lenIs r 0]) fun r s =>
    s.okay r (leBytes 4 s.trip.stat ++ leBytes 4 s.trip.spWord ++ leBytes 4 s.trip.latchWord ++ leBytes 4 s.trip.check.toNat))

/-- SAFETY_LOG_READ (R397). -/
def execSafetyLogRead (q : ReqSrc) (s : State) : CmdAnswer :=
  .next (s.safetyCmd q 0x0A05 (fun _ r => [lenIs r 0, sys r]) fun r s => s.okay r (s.trip.log.flatMap SafetyLog.bytes))

end Sys2Proof.Machine
end

