-- ==== Sys2Proof/Machine/Clock.lean ====
section
/-! DEFINITION. What one CLK_LANE clock does when no command is waiting (log 1): T_CNT counts, the lanes that are not gated count L_CLK, and the Counter Unit counts them. -/
namespace Sys2Proof.Machine

/-- L_CLK of one lane after a clock: it counts while EN is 1 and the lane is not gated (R97). -/
def Lane.tick (l : Lane) : Lane := if l.gated || !l.en then l else { l with clk := l.clk + 1 }

/-- The counter event 0x01 of each lane that is not gated (R436). -/
def countLaneClocks (c : Ctr) (lanes : Table Lane) : Ctr :=
  lanes.foldl (init := c) fun c p =>
    if p.2.gated then c
    else c.count { ctrEv 0x01 1 p.1 with priv := p.2.mode, part := p.2.task.toNat / 2 ^ 23 }

/-- One clock of CLK_LANE with no command: it reaches the Time Unit and the lanes while the clocks run (R349, R448, R449). -/
def tick (s : State) : State :=
  if s.powered then
    { s with clk := s.clk + 1, time := { s.time with cnt := s.time.cnt + 1 },
             ctr := countLaneClocks s.ctr s.lanes, lanes := s.lanes.map fun p => (p.1, p.2.tick) }
  else { s with clk := s.clk + 1 }

end Sys2Proof.Machine
end

