-- ==== Sys2Proof/Machine/StationUnit.lean ====
section
/-! DEFINITION. The station ports (R412 to R416): links, gratuitous ARP, frames for the IP stack, PRP, commands 0x0B05 to 0x0B07, the registers of block 0x1A; and what an idle clock does to the buses. -/
namespace Sys2Proof.Machine

def State.setStn (s : State) (x : Station) : State := { s with stn := x }

/-! ### Links (R412, R415) -/

/-- A port's link and its speed. -/
def Station.setLink (x : Station) (port : Nat) (up : Bool) (speed : Nat) : Station :=
  if port = 0 then { x with link1 := up, spd1 := BitVec.ofNat 2 speed } else { x with link2 := up, spd2 := BitVec.ofNat 2 speed }

/-- Settings of item 0x0004 are in force from the next link-up on (R338). -/
def State.applyIp (s : State) : State :=
  match s.nv.pendIp with
  | some (ip, mask, gate) => { s with stn := { s.stn with ip := ip, ipMask := mask, ipGate := gate }, nv := { s.nv with pendIp := none } }
  | none => s

/-- A link is down: no ARP is owed on it. -/
def State.linkLost (s : State) (port : Nat) : State :=
  (s.setStn { s.stn.setLink port false 0 with arp := terase s.stn.arp port }).disarm (.arp port)

/-- A link is up: three gratuitous ARPs are owed, 1 s apart (R415). -/
def State.linkGained (s : State) (port speed : Nat) : State :=
  let s := (s.setStn (s.stn.setLink port true speed)).applyIp
  (s.setStn { s.stn with arp := tput s.stn.arp port 3 }).after (.arp port) 0

/-- STATION_LINK_UP (R286, R338, R412, R415): only full duplex counts; RECOVERY runs SP-ETH1 alone. -/
def execStationLinkUp (port : Fin 2) (speed : Fin 3) (fullDuplex : Bool) (s : State) : Host.Outcome State Fault Refusal :=
  .next (if !s.powered || (decide (s.mod.st = .recovery) && decide (port.val = 1)) then s
    else if fullDuplex then s.linkGained port speed
    else s.linkLost port)

/-- STATION_LINK_DOWN (R412). -/
def execStationLinkDown (port : Fin 2) (s : State) : Host.Outcome State Fault Refusal := .next (s.linkLost port)

/-- The IP stack has the port: not in SINGLE on SP-ETH2 (R413); in RECOVERY on SP-ETH1 (R286). -/
def State.stackOn (s : State) (port : Nat) : Bool :=
  (if port = 0 then s.stn.link1 else s.stn.link2) && s.powered
    && (if s.mod.st = .recovery then decide (port = 0)
        else decide (s.stn.mode = 2) || (decide (s.stn.mode = 1) && decide (port = 0)))

/-- GRATUITOUS_ARP (R415). -/
def execGratuitousArp (port : Fin 2) (s : State) : Host.Outcome State Fault Refusal :=
  .next (
    let n := tget 0 s.stn.arp port
    if n = 0 ∨ !s.expired (.arp port) then s
    else
      let s := if s.stackOn port then s.send (.arp port) else s
      let s := s.setStn { s.stn with arp := if n = 1 then terase s.stn.arp port else tput s.stn.arp port (n - 1) }
      if n = 1 then s.disarm (.arp port) else s.after (.arp port) sec)

/-! ### Frames (R412, R413) -/

/-- Entries of the duplicate table live 400 ms; 512 sources at most, the one heard longest ago gives way (R413). -/
def Station.forget (x : Station) (clk src : Nat) : List (Nat × Nat × Nat) :=
  let live := x.seen.filter fun e => decide (clk - e.2.2 < 400 * msec)
  let srcs := (live.map (·.1)).eraseDups
  if src ∈ srcs ∨ srcs.length < 512 then live
  else match live.getLast? with
    | some e => live.filter fun y => decide (y.1 ≠ e.1)
    | none => live

/-- A frame with an RCT: a wrong LAN is counted; a second one of the same source and number is a duplicate. The table is newest first. -/
def Station.dedup (x : Station) (port clk src : Nat) (rct : Nat × Bool) : Station × Bool :=
  let wrong := rct.2 != decide (port = 0)
  let x := if !wrong then x else if port = 0 then { x with errA := x.errA + 1 } else { x with errB := x.errB + 1 }
  let live := x.forget clk src
  if live.any fun e => decide (e.1 = src) && decide (e.2.1 = rct.1) then ({ x with seen := live, dup := x.dup + 1 }, true)
  else ({ x with seen := (src, rct.1, clk) :: live }, false)

/-- The limit of 20,000 frames in each second of a port (R412). -/
def Station.limit (x : Station) (port clk : Nat) : Station × Bool :=
  let now := clk / sec
  let n := match tfind x.rxCnt port with
    | some (t, n) => if t = now then n else 0
    | none => 0
  if n < 20000 then ({ x with rxCnt := tput x.rxCnt port (now, n + 1) }, true) else ({ x with rxDrop := x.rxDrop + 1 }, false)

/-- The IP stack processes a frame, or drops it over the limit; it answers ARP and ICMP echo requests (R412). -/
def State.process (s : State) (x : Station) (port : Nat) (fr : EthFrame) : State :=
  let (x, taken) := x.limit port s.clk
  let s := s.setStn x
  if taken ∧ fr.asks ≠ .other then s.send (.ethReply port fr.src fr.asks) else s

/-- STATION_FRAME_RECEIVED (R412, R413): PTP frames have their own rows and are exempt. -/
def execStationFrameReceived (port : Fin 2) (fr : EthFrame) (s : State) : Host.Outcome State Fault Refusal :=
  .next (if !s.stackOn port || fr.ptp || fr.vlanTagged || !fr.toStack then s
    else
      let prp := decide (s.stn.mode = 2) && decide (s.mod.st ≠ .recovery)
      match fr.rct with
      | some rct =>
        if !prp then s.process s.stn port fr
        else
          let (x, dup) := s.stn.dedup port s.clk fr.src rct
          if dup then s.setStn x else s.process x port fr
      | none => s.process s.stn port fr)

/-- PRP_SUPERVISION_SEND (R413): every 2 s. -/
def execPrpSupervisionSend (s : State) : Host.Outcome State Fault Refusal :=
  .next (if !s.due .prp || decide (s.stn.mode ≠ 2) || decide (s.mod.st = .recovery) || !(s.stackOn 0 || s.stackOn 1) then s
    else (s.send .prpSupervision).again .prp (2 * sec))

/-! ### Commands -/

/-- STATION_CONFIG (R338, R354, R412, R413). -/
def execStationConfig (q : ReqSrc) (cfg : StationCfg) (s : State) : CmdAnswer :=
  .next (s.commandHere q 0x0B05 (fun r => [sys r, (decide (cfg.mode ≠ 3) && decide (cfg.ptpDomain < 256), .checkFail)]) fun r s =>
    { s with stn := { s.stn with mode := cfg.mode }, time := { s.time with ptpDomain := cfg.ptpDomain },
             nv := { s.nv with pendIp := cfg.ipv4.orElse fun _ => s.nv.pendIp } }.okay r [])

/-- A publication may be set: R414's ranges. -/
def pubOk (p : StationPub) : Bool :=
  decide (p.cls < 8) && decide (1 ≤ p.every) && decide (p.every ≤ 255) && decide (1 ≤ p.vids.length) && decide (p.vids.length ≤ 88)

/-- The publication with this number. -/
def Station.pub? (x : Station) (id : W32) : Option (StationPub × W32 × Nat) := x.pubs.find? fun q => decide (q.1.id = id)

/-- STATION_PUB_SET (R414): up to 32 publications; SEQ of a number goes on when it is set again. -/
def execStationPubSet (q : ReqSrc) (pub : StationPub) (s : State) : CmdAnswer :=
  .next (s.commandHere q 0x0B06 (fun r =>
    [own r pub.part, (match s.stn.pub? pub.id with | some x => (own r x.1.part).1 | none => true, .denied), s.epochIs r,
     (pubOk pub, .checkFail), s.partThere pub.part, ((s.stn.pub? pub.id).isSome || decide (s.stn.pubs.length < 32), .noRoom)]) fun r s =>
    let seq := ((s.stn.pub? pub.id).map (·.2.1)).getD 0
    let pub := { pub with dstPort := if pub.dstPort = 0 then 4721 else pub.dstPort }
    let rest := s.stn.pubs.filter fun x => decide (x.1.id ≠ pub.id)
    (s.setStn { s.stn with pubs := rest ++ [(pub, seq, 0)] }).okay r [])

/-! ### Registers (R416) -/

/-- A register of block 0x1A. -/
def Station.reg (x : Station) (off : Nat) : W32 :=
  match off with
  | 0x000 => x.mode.setWidth 32
  | 0x004 => BitVec.ofNat 32 (bit x.link2 * 128 + x.spd2.toNat * 32 + bit x.link1 * 8 + x.spd1.toNat * 2 + bit (decide (x.mode = 2)))
  | 0x008 => x.dup
  | 0x00C => x.errA
  | 0x010 => x.errB
  | 0x014 => x.rxDrop
  | _ => 0

/-- A write: STP_CTL.MODE is the only RW field; its encoding 3 is reserved (R5, R416). -/
def Station.write (x : Station) (off : Nat) (v : W32) : Station :=
  if off = 0x000 ∧ bitsAt v.toNat 0 2 ≠ 3 then { x with mode := v.setWidth 2 } else x

/-- STATION_STATUS (R335, R416). -/
def execStationStatus (q : ReqSrc) (s : State) : CmdAnswer :=
  .next (s.commandHere q 0x0B07 (fun r => [lenIs r 0]) fun r s =>
    s.okay r ((List.range 6).flatMap fun i => leBytes 4 (s.stn.reg (4 * i)).toNat))

/-! ### The idle clock -/

/-- One clock with no command (log 1): time and lanes go on, held VC2 frames leave, outputs go on, pending CAN frames start on free buses, the application store moves on (R195, R258, R408). -/
def State.idle (s : State) : State := (tick s).leaveAllVc2.drainAll.canStart.moveEntry

end Sys2Proof.Machine
end

