-- ==== Sys2Proof/Machine/RegMap.lean ====
section
/-! DEFINITION. What the service cores reach through the 40-bit address map: memory, lane windows and peripheral blocks (R26, R27, R97), the default map of privileged accesses (R301), and writes of registers by their access codes (R4, R5, R89, R131, R305, R351, R369, R399, R416, R431, R435, R441, R462). -/
namespace Sys2Proof.Machine

/-! ### The map (R26, R27) -/

/-- What lies at an address: byte memory, a lane's control registers, a peripheral block, the Recovery ROM, or nothing. -/
inductive Region where
  | bytes
  | lane (l off : Nat)
  | block (n off : Nat)
  | rom
  | unpopulated
deriving DecidableEq, Repr

/-- A lane window: IM, DM, control registers; the rest is unpopulated (R26). -/
def windowRegion (l off : Nat) : Region :=
  if off < 0x20000 ∨ (0x40000 ≤ off ∧ off < 0x60000) then .bytes
  else if 0x80000 ≤ off ∧ off < 0x81000 then .lane l (off - 0x80000)
  else .unpopulated

/-- R26 and R27. -/
def regionOf (a : Nat) : Region :=
  if a < 0x200000000 then .bytes
  else if 0x4000000000 ≤ a ∧ a < 0x4001000000 then .bytes
  else if 0x4100000000 ≤ a ∧ a < 0x4110000000 then windowRegion ((a - 0x4100000000) / 0x100000) (a % 0x100000)
  else if 0x5000000000 ≤ a ∧ a < 0x5008000000 then .bytes
  else if 0x6000000000 ≤ a ∧ a < 0x6000210000 then .block ((a - 0x6000000000) / 0x10000) (a % 0x10000)
  else if 0x7FFFF00000 ≤ a ∧ a < 0x7FFFF40000 then .rom
  else .unpopulated

/-- The service cores may execute from DRAM, the firmware slots and the Recovery ROM (R267, R301). -/
def executable (a : Nat) : Bool :=
  decide (a < 0x200000000) || (decide (0x5000000000 ≤ a) && decide (a < 0x5003000000)) || decide (regionOf a = .rom)

/-! ### Lane control registers from the service cores (R97, R131) -/

/-- EN = 0 holds the lane in reset and gated: nothing runs, and the next run starts at the reset PC (R97). -/
def Lane.held (x : Lane) : Lane :=
  { x with en := false, gated := true, run := false, wait := false, kind := false, pass := false, mode := false, eclass := 0,
           pc := Lane.reset.pc, bun := Bundles.reset, hold := Bundles.reset, inNormal := false, saved := none }

/-- L_CTL: BGTEST, RETIRE, EN (R97). -/
def Lane.writeCtl (x : Lane) (v : W32) : Lane :=
  let x := { x with bgtest := v.getLsbD 2, retire := v.getLsbD 1 }
  if v.getLsbD 0 then { x with en := true } else x.held

/-- A write of a lane control register by a service core; RO fields and reserved offsets ignore it (R97, R131). -/
def State.writeLaneReg (s : State) (l off : Nat) (v : W32) : State :=
  if off = 0x008 then
    let s := s.setLane l ((s.lane l).writeCtl v)
    if !(s.lane l).en || (s.lane l).retire then s.dropWake l else s.wakeIfDue l
  else if off ∈ supWrites then (s.laneCtlWrite l off v).wakeIfDue l
  else s

/-! ### Comparator registers (R89) -/

/-- L_PC_STAT. -/
def Cmp.stat (u : Cmp) : Nat :=
  bit u.faulted * 2 ^ 31 + bit u.fltValid * 2 ^ 30 + min u.queue.length 16 * 2 ^ 16 + u.last.toNat * 16 + bit (!u.queue.isEmpty) * 8

/-- A comparator register (R89). -/
def Cmp.reg (u : Cmp) (off : Nat) : W32 :=
  let n (x : Nat) : W32 := BitVec.ofNat 32 x
  match off with
  | 0x000 => n (u.target.toNat * 16 + bit u.subst * 8 + bit u.shadow * 4 + bit u.test * 2 + bit u.en)
  | 0x004 => n u.stat
  | 0x008 => u.fltInfo
  | 0x00C => u.fltTask
  | 0x010 => lo32 u.fltPri
  | 0x014 => hi32 u.fltPri
  | 0x018 => lo32 u.fltCod
  | 0x01C => hi32 u.fltCod
  | 0x020 => u.ncmp
  | 0x024 => u.nmism
  | 0x028 => n (u.round.toNat * 2 ^ 24 + u.vector.toNat * 2 ^ 8 + bit u.fail * 2 + bit u.done)
  | _ => 0

/-- TEST may be set: on the spare while SUBST is 0, on cluster c while the spare serves it (R89). -/
def State.mayTest (s : State) (u : Nat) : Bool :=
  let sp := s.cmpOf 16
  if u = 16 then !sp.subst else sp.subst && decide (sp.target.toNat = u)

/-- A write of L_PC_CTL or L_PC_STAT; TARGET and SUBST are the spare's only, FLT_VALID is cleared by 1 (R89). -/
def State.writeCmp (s : State) (u off : Nat) (v : W32) : State :=
  let c := s.cmpOf u
  match off with
  | 0x000 =>
    let c := { c with shadow := v.getLsbD 2, en := v.getLsbD 0 }
    let c := if u = 16 then { c with target := (v >>> 4).setWidth 4, subst := v.getLsbD 3 } else c
    let s := s.setCmp u c
    s.setCmp u { c with test := v.getLsbD 1 && (c.test || s.mayTest u) }
  | 0x004 => if v.getLsbD 30 then s.setCmp u { c with fltValid := false } else s
  | _ => s

/-! ### Peripheral blocks (R27) -/

/-- A register of a peripheral block takes a write. -/
def State.writeBlock (s : State) (n off : Nat) (v : W32) : State :=
  if n = 0x00 then s.writeTime off v
  else if n = 0x01 then { s with guard := s.guard.write off v }
  else if 0x04 ≤ n ∧ n ≤ 0x14 then s.writeCmp (n - 0x04) off v
  else if n = 0x15 then s.writeTrip off v
  else if 0x16 ≤ n ∧ n ≤ 0x19 then s.writeCan (n - 0x16) off v
  else if n = 0x1A then { s with stn := s.stn.write off v }
  else if n = 0x1C then s.writeView 0 off v
  else if n = 0x1D then { s with ctr := s.ctr.write off v }
  else if n = 0x1F then s.writePwr off v
  else s

/-- A register of a peripheral block is read: its value, with what the read latches, releases or clears (R304, R312, R369, R439). -/
def State.readBlock (s : State) (n off : Nat) : W32 × State :=
  let viaWindow (a : Nat) : W32 × State := let (v, s) := s.readWord a .service; (v.getD 0, s)
  if n = 0x00 then viaWindow (0x780000 + off)
  else if n = 0x01 then (s.guard.reg off, if off = 0x048 then { s with guard := { s.guard with nmiss := 0 } } else s)
  else if 0x04 ≤ n ∧ n ≤ 0x14 then ((s.cmpView (n - 0x04)).reg off, s)
  else if n = 0x15 then (s.tripReg off, s)
  else if 0x16 ≤ n ∧ n ≤ 0x19 then (s.canReg (n - 0x16) off, s)
  else if n = 0x1A then (s.stn.reg off, s)
  else if n = 0x1C then (if off < 0x800 then ((s.view 0).reg off).getD 0 else 0, s)
  else if n = 0x1D then viaWindow (0x740000 + off)
  else if n = 0x1F then (if off = 0x010 then s.inputPower.setWidth 32 else s.pwr.reg off, s)
  else (0, s)

/-- A 32-bit register at an aligned address takes a write. -/
def State.writeReg (s : State) (a : Nat) (v : W32) : State :=
  match regionOf a with
  | .lane l off => s.writeLaneReg l off v
  | .block n off => s.writeBlock n off v
  | _ => s

/-- REGISTER_WRITE (R4, R5): a service core writes a register at its address of R26. -/
def execRegisterWrite (addr : BitVec 40) (v : W32) (s : State) : Host.Outcome State Fault Refusal :=
  .next (if s.powered && decide (addr.toNat % 4 = 0) then s.writeReg addr.toNat v else s)

/-! ### Bytes (R26, R96, R250, R301) -/

/-- A protected word is met by an access: a single error is corrected and counted, an uncorrectable one of Image Memory or DRAM is evidence (R96, R230, R250). -/
def State.meetEcc (s : State) (a : Nat) : State :=
  match s.eccOf a with
  | some .single =>
    let s := if 0x4100000000 ≤ a ∧ a < 0x4110000000 then
        let l := (a - 0x4100000000) / 0x100000
        let x := s.lane l
        s.setLane l (if a % 0x100000 < 0x40000 then { x with imCorr := sat16 x.imCorr } else { x with dmCorr := sat16 x.dmCorr })
      else s
    s.countCe
  | some .uncorrectable => if inImage a then s.imageError else if inDram a then s.dramError else s
  | none => s

/-- The protected words an access of n bytes touches: their first addresses. -/
def eccWords (a n : Nat) : List Nat := (List.range ((a + max n 1 - 1) / 8 - a / 8 + 1)).map fun i => 8 * (a / 8 + i)

/-- The errors of the byte memory an access meets. -/
def State.meetAll (s : State) (a n : Nat) : State :=
  (eccWords a n).foldl (init := s) fun s w => if regionOf w = .bytes then s.meetEcc w else s

/-- Words written whole, or whose single error was corrected, hold none afterwards (R96, R250). -/
def State.healEcc (s : State) (a n : Nat) : State :=
  (eccWords a n).foldl (init := s) fun s w =>
    if regionOf w = .bytes ∧ ((a ≤ w ∧ w + 8 ≤ a + n) ∨ s.eccOf w = some .single) then s.clearEcc w else s

/-- The word of a register, and what reading it does; of other addresses nothing. -/
def State.readReg (s : State) (a : Nat) : W32 × State :=
  match regionOf a with
  | .lane l off => let (v, x) := (s.lane l).ctlRead l off false; (v, s.setLane l x)
  | .block n off => s.readBlock n off
  | _ => (0, s)

/-- Reads n bytes of the map; the recorder's records stand in its MRAM region (R423), an unpopulated address reads 0, and a register's read has its effect with the last byte read of it (R26, R301). -/
def readMap : Nat → Nat → State → List Byte × State
  | 0, _, s => ([], s)
  | n + 1, a, s =>
    let (b, s) : Byte × State := match regionOf a with
      | .bytes => ((s.rcd.byteAt a).getD (Mem.rd s.mem a), s)
      | .rom => (Config.romByte (a - 0x7FFFF00000), s)
      | .unpopulated => (0, s)
      | _ =>
        let (v, t) := s.readReg (a - a % 4)
        ((v >>> (8 * (a % 4))).setWidth 8, if a % 4 = 3 ∨ n = 0 then t else s)
    let (r, s) := readMap n (a + 1) s
    (b :: r, s)

/-- Writes bytes to the map; registers take whole aligned words, the ROM and unpopulated addresses nothing (R26, R301). -/
def writeMap : List Byte → Nat → State → State
  | [], _, s => s
  | b :: r, a, s =>
    let s := match regionOf a with
      | .bytes => match s.rcd.placeOf a with
        | some p => { s with rcd := s.rcd.poke p b }
        | none => { s with mem := Mem.wr s.mem a b }
      | .lane _ _ | .block _ _ => if a % 4 = 0 ∧ 3 ≤ r.length then s.writeReg a (BitVec.ofNat 32 (leNat ((b :: r).take 4))) else s
      | _ => s
    writeMap r (a + 1) s

/-! ### Privileged accesses (R288, R301) -/

/-- What the default map refuses of an access, or finds unpopulated (R301). -/
def mapRefuses (kind : AccessKind) (a n : Nat) : Bool :=
  (List.range (max n 1)).any fun i =>
    match kind with
    | .x => !executable (a + i)
    | .w => decide (regionOf (a + i) = .unpopulated) || decide (regionOf (a + i) = .rom)
    | _ => decide (regionOf (a + i) = .unpopulated)

/-- G_STAT.PRIVF, with a GUARD_PRIV record at most once per second (R301, R420). -/
def State.privf (s : State) (core a : Nat) (kind : AccessKind) : State :=
  let s := { s with guard := { s.guard with privf := true } }
  if s.oncePer 7 0 sec then
    (s.record 0x0903 0 (Master.service.code * 256 + core) (BitVec.ofNat 32 (kindCode kind)) (BitVec.ofNat 32 a) (BitVec.ofNat 32 (a / 2 ^ 32)) 0).markOnce 7 0
  else s

/-- An access to DRAM is an event of the Counter Unit (R436). -/
def State.countDram (s : State) (core part a : Nat) (priv : Bool) (kind : AccessKind) : State :=
  if inDram a then
    s.count { ({ part := part, master := .service, kind := kind, source := core, addr := a, len := 1 } : Access).ev (if kind = .w then 0x13 else 0x12) with
              priv := priv }
  else s

/-- An access the default map has allowed or refused takes its effect (R26, R301). -/
def State.mapAccess (s : State) (core part a : Nat) (priv : Bool) (kind : AccessKind) (data : List Byte) : State :=
  let n := data.length
  let bad := mapRefuses kind a n
  let s := if bad then s.privf core a kind else s
  if kind = .x ∧ bad then if s.resettable then s.warmReset 0x41 else s
  else
    let s := (s.countDram core part a priv kind).meetAll a n
    if kind = .w then writeMap data a (s.healEcc a n)
    else
      let (bs, s) := readMap n a s
      s.send (.core core bs)

/-- An access of a service core: at the level of the partition it acts for, else privileged (R287, R288, R301, R302). -/
def State.coreAccess (s : State) (core a : Nat) (kind : AccessKind) (data : List Byte) : State :=
  let act := tget 0 s.guard.act core
  if act.msb then
    let x : Access := { part := act.toNat % 512, master := .service, kind := kind, source := core, addr := a, len := data.length }
    let (ok, s) := s.guardCheck x
    if ok then s.mapAccess core x.part a false (if kind = .x then .r else kind) data else s.recordDeny x
  else s.mapAccess core 0 a true kind data

/-- PRIVILEGED_ACCESS (R26, R288, R301): `data` is what is written; of a read it gives the length. -/
def execPrivilegedAccess (core : Fin 4) (addr : BitVec 40) (kind : AccessKind) (data : List Byte) (s : State) : Host.Outcome State Fault Refusal :=
  .next (if s.powered then s.coreAccess core addr.toNat kind data else s)

end Sys2Proof.Machine
end

