-- ==== Sys2Proof/Machine/SessionCmds.lean ====
section
/-! DEFINITION. Commands 0x01xx (R323, R335, R337, R338, R345): sessions, module information, configuration items, host keys and certificates. -/
namespace Sys2Proof.Machine

/-! ### OPEN_SESSION and CLOSE_SESSION (R323, R337) -/

/-- A new session with a fresh tag; on a mailbox it takes the place of the previous one (R323). -/
def State.openTag (s : State) (r : Request) (part : Nat) : State :=
  let (x, s) := s.draw
  let tag := freshFrom s.mb.issued (s.mb.issued.length + 2) x
  let old := match r.src with
    | .mailbox _ => s.mb.sessions.filter fun (y : Session) => decide (y.src = r.src)
    | _ => []
  let s := old.foldl (fun (s : State) y => (s.sessionClosed y 2).endSession y) s
  let new : Session := { tag := tag, part := part, src := r.src, last := s.clk, idle := s.nv.idle, login := none }
  let s := { s with mb := { s.mb with sessions := s.mb.sessions ++ [new], issued := tag :: s.mb.issued } }
  s.okay r (leBytes 8 tag.toNat ++ leBytes 4 s.nv.idle)

/-- A failed attempt: AUTH_FAIL and DENIED (R323, R337). -/
def State.openFails (s : State) (r : Request) (part : Nat) : State := (s.authFail (srcIx r.src) part).refuse r .denied

/-- STEP 1: a challenge that serves one STEP 2 within 10 s (R337). -/
def State.challenge (s : State) (r : Request) : State :=
  let (t, s) := s.draw
  let (a, s) := s.draw
  let (b, s) := s.draw
  let (c, s) := s.draw
  let (d, s) := s.draw
  let bs := leBytes 8 a.toNat ++ leBytes 8 b.toNat ++ leBytes 8 c.toNat ++ leBytes 8 d.toNat
  let s := { s with mb := { s.mb with chal := tput s.mb.chal (srcIx r.src) (lo32 t, bs, s.clk + 10 * sec) } }
  s.okay r (leBytes 4 (lo32 t).toNat ++ bs)

/-- The host key of a partition, if it has one (R323, R335). -/
def State.hostKey (s : State) (part : Nat) : Option (List Byte) :=
  match tfind s.nv.keys part with
  | some k => some k
  | none => if part = 0 then some Config.systemKey else none

/-- STEP 2: the proof under the partition's host key (R337). -/
def State.proofOk (s : State) (r : Request) (part : Nat) : Bool :=
  match tfind s.mb.chal (srcIx r.src), s.hostKey part with
  | some (tag, chal, till), some key =>
    decide (field r.payload 4 4 = tag.toNat) && decide (s.clk < till)
      && decide ((r.payload.drop 8).take 32 = hmac256 key (chal ++ leBytes 2 part ++ leBytes 8 Config.serial.toNat))
  | _, _ => false

/-- The client certificate of a connection is mapped to a partition (R323, R327). -/
def State.certFor (s : State) (c part : Nat) : Bool :=
  s.mb.tls.any fun t => decide (t.conn = c) && match s.nv.certs with
    | some x => decide ((t.cert, part) ∈ x.map)
    | none => false

/-- OPEN_SESSION is of a form its source has: steps 1 and 2 at a mailbox for its own partition, step 0 over TLS (R337). -/
def openForm (r : Request) : Bool × Status :=
  let step := field r.payload 0 1
  (match r.src with
    | .mailbox n => (decide (step = 1) || decide (step = 2)) && decide (field r.payload 2 2 = n.val)
    | .tls _ => decide (step = 0) && decide (field r.payload 2 2 < 512)
    | .forwarded _ _ _ => false, .checkFail)

/-- OPEN_SESSION (R323, R337). -/
def State.openSession (r : Request) (s : State) : State :=
  let ix := srcIx r.src
  let part := field r.payload 2 2
  let step := field r.payload 0 1
  let s' := if step = 2 then { s with mb := { s.mb with chal := terase s.mb.chal ix } } else s
  if step = 1 then (if s.locked ix then s.refuse r .denied else s.challenge r)
  else if s.locked ix then s'.openFails r part
  else if step = 2 then (if s.proofOk r part then s'.openTag r part else s'.openFails r part)
  else if s.certFor (ix - 512) part then s.openTag r part
  else s.openFails r part

def execOpenSession (q : ReqSrc) (s : State) : CmdAnswer :=
  .next (s.commandHere q 0x0101 (fun r => [lenIs r 40, openForm r]) State.openSession)

/-- CLOSE_SESSION (R323): no payload, no SESSION_CLOSED. -/
def execCloseSession (q : ReqSrc) (s : State) : CmdAnswer :=
  .next (s.commandHere q 0x0102 (fun r => [lenIs r 0]) fun r s =>
    ((s.mb.sessions.filter fun x => decide (x.tag = r.tag)).foldl (fun (s : State) x => s.endSession x) s).okay r [])

/-! ### The module (R335, R345) -/

def SlotSt.num : SlotSt → Nat | .confirmed => 0 | .trial => 1 | .valid => 2 | .invalid => 3

/-- MODULE_INFO (R335): H_ID, H_REV, serial, state, slot states, LEVEL. -/
def execModuleInfo (q : ReqSrc) (s : State) : CmdAnswer :=
  .next (s.commandHere q 0x0103 (fun r => [lenIs r 0]) fun r s =>
    s.okay r (leBytes 4 ((s.hostCtl 0).getD 0).toNat ++ leBytes 4 ((s.hostCtl 4).getD 0).toNat ++ leBytes 8 Config.serial.toNat
      ++ [BitVec.ofNat 8 s.mod.st.code, BitVec.ofNat 8 (SlotSt.num s.nv.slotA.st), BitVec.ofNat 8 (SlotSt.num s.nv.slotB.st), (s.healthReport[1]?).getD 0]))

/-- MODULE_RESET (R345): an ACTIVE module needs STOP_OK. -/
def execModuleReset (q : ReqSrc) (s : State) : CmdAnswer :=
  .next (s.commandHere q 0x0104 (fun r => [lenIs r 4, sys r, flagsOk r, (decide (s.mod.st ≠ .active) || r.stopOk, .notNow)]) fun r s => s.resetBy r 0x20)

/-! ### Configuration items (R338) -/

/-- Items of a CONFIG_SET payload: ITEM, LEN, value, padding to a multiple of 4. `none` where the structure does not fit. -/
def parseItems : Nat → List Byte → Option (List (Nat × List Byte))
  | 0, bs => if bs.isEmpty then some [] else none
  | n + 1, bs =>
    if bs.isEmpty then some []
    else
      let len := field bs 2 2
      let total := 4 + (len + 3) / 4 * 4
      if bs.length < total then none
      else (parseItems n (bs.drop total)).map fun r => (field bs 0 2, (bs.drop 4).take len) :: r

/-- The items of a request. -/
def Request.items (r : Request) : Option (List (Nat × List Byte)) := parseItems r.payload.length r.payload

/-- Length of each item's value (R338). -/
def itemLen (i : Nat) : Option Nat :=
  match i with
  | 1 => some 4
  | 2 => some 3
  | 3 => some 4
  | 4 => some 12
  | 5 => some 4
  | _ => none

/-- Items whose scope is the domain (R338). -/
def domainItem (i : Nat) : Bool := decide (i ∈ [1, 2, 5])

/-- The value of an item is in its range (R8, R10, R338, R489). -/
def State.itemOk (s : State) (x : Nat × List Byte) : Bool :=
  let f := field x.2
  decide (itemLen x.1 = some x.2.length) && match x.1 with
    | 1 => decide (1 ≤ f 2 1) && decide (f 2 1 ≤ 64) && decide (2 ≤ f 3 1) && decide (f 3 1 ≤ 64) && decide (f 3 1 % 2 = 0)
    | 2 => decide (f 0 1 < 2) && decide (f 1 2 ∈ s.pairs)
    | 3 => decide (10 ≤ f 0 4) && decide (f 0 4 ≤ 86400)
    | 4 => true
    | 5 => (s.part? (f 0 2)).isSome && decide (f 2 2 < 16)
    | _ => false

/-- The domain size changes only while no partition of the domain is RUNNING (R338). -/
def State.itemNow (s : State) (x : Nat × List Byte) : Bool := decide (x.1 ≠ 1) || !s.parts.any fun p => decide (p.2.state = .running)

/-- An item takes effect or waits for its instant (R338). -/
def State.setItem (s : State) (x : Nat × List Byte) : State :=
  let f := field x.2
  let flag (i : Nat) : Bool := decide (bitsAt (f 2 2) i 1 = 1)
  let nv := s.nv
  match x.1 with
  | 1 => { s with nv := { nv with pendDomain := some (BitVec.ofNat 16 (f 0 2), f 2 1, f 3 1) } }
  | 2 => { s with nv := { nv with preferOdd := if f 0 1 = 1 then tput nv.preferOdd (f 1 2) true else terase nv.preferOdd (f 1 2) } }
  | 3 => { s with nv := { nv with idle := f 0 4 } }
  | 4 => { s with nv := { nv with pendIp := some (BitVec.ofNat 32 (f 0 4), BitVec.ofNat 32 (f 4 4), BitVec.ofNat 32 (f 8 4)) } }
  | 5 => if s.executor .leader then s.addWork (.flags (f 0 2) (flag 0) (flag 1) (flag 2) (flag 3)) none else s
  | _ => s

/-- Domain items act on the leader, others here (R335). -/
def Request.configActs (r : Request) : Acts := if (r.items.getD []).any fun x => domainItem x.1 then .leader else .here

/-- Checks of CONFIG_SET: every item first (R338, R489); items of both scopes in one request only on the leader itself. -/
def State.configChecks (s : State) (r : Request) : List (Bool × Status) :=
  let xs := r.items.getD []
  let mixed := xs.any (fun x => domainItem x.1) && xs.any fun x => !domainItem x.1
  [(r.items.isSome, .badLen), sys r, (xs.all s.itemOk && (!mixed || s.executor .leader), .checkFail), (xs.all s.itemNow, .notNow)]

/-- CONFIG_SET (R281, R338). -/
def execConfigSet (q : ReqSrc) (s : State) : CmdAnswer :=
  .next (s.command q 0x0105 Request.configActs s.configChecks fun r s =>
    let xs := r.items.getD []
    let s := xs.foldl (fun (s : State) x => s.setItem x) s
    (if xs.any fun x => domainItem x.1 then s.spread r [] else s).okay r [])

/-- An item as CONFIG_GET returns it. -/
def itemBytes (i : Nat) (v : List Byte) : List Byte := leBytes 2 i ++ leBytes 2 v.length ++ v ++ List.replicate ((v.length + 3) / 4 * 4 - v.length) 0

/-- The flags of item 0x0005. -/
def cfgFlags (c : PartCfg) : Nat := bit c.autostart + bit c.degradeOk * 2 + bit c.forceOk * 4 + bit c.recSepRow * 8

/-- CONFIG_GET (R335): the items a session may read; a user partition's are those of the module and its own flags. -/
def execConfigGet (q : ReqSrc) (s : State) : CmdAnswer :=
  .next (s.commandHere q 0x0106 (fun _ => []) fun r s =>
    let nv := s.nv
    let odd := if r.part = 0 then nv.preferOdd.flatMap fun x => itemBytes 2 ([BitVec.ofNat 8 (bit x.2)] ++ leBytes 2 x.1) else []
    let ps := s.parts.filter fun x => decide (r.part = 0) || decide (x.1 = r.part)
    s.okay r <| List.take 4064 (itemBytes 1 (leBytes 2 nv.domainId.toNat ++ [BitVec.ofNat 8 nv.nr, BitVec.ofNat 8 nv.nc]) ++ odd ++ itemBytes 3 (leBytes 4 nv.idle)
      ++ itemBytes 4 (leBytes 4 s.stn.ip.toNat ++ leBytes 4 s.stn.ipMask.toNat ++ leBytes 4 s.stn.ipGate.toNat)
      ++ ps.flatMap fun x => itemBytes 5 (leBytes 2 x.1 ++ leBytes 2 (cfgFlags x.2.cfg))))

/-! ### Keys and certificates (R323, R327, R335) -/

/-- HOSTKEY_SET (R323, R335): a 32-byte key of one partition, on both modules of the pair. -/
def execHostkeySet (q : ReqSrc) (part : Fin 512) (key : List Byte) (s : State) : CmdAnswer :=
  .next (s.command q 0x0107 (fun _ => .pair)
    (fun r => [(decide (key.length = 32), .badLen), sys r, (decide (part.val = 0) || (s.part? part).isSome, .checkFail)]) fun r s =>
    ({ s with nv := { s.nv with keys := tput s.nv.keys part key } }.mirrorCmd r []).okay r [])

/-- CERT_INSTALL (R327, R335): roots, device certificate and map, unless a chain does not verify. -/
def execCertInstall (q : ReqSrc) (certs : CertSet) (s : State) : CmdAnswer :=
  .next (s.command q 0x0108 (fun _ => .pair) (fun r => [sys r, (certs.chains, .checkFail)]) fun r s =>
    ({ s with nv := { s.nv with certs := some certs } }.mirrorCmd r []).okay r [])

end Sys2Proof.Machine
end

