-- ==== Sys2Proof/Machine/UpdateCmds.lean ====
section
/-! DEFINITION. Commands 0x09xx (R271 to R285, R345, R346): firmware update, trial, commit and recovery. -/
namespace Sys2Proof.Machine

/-! ### Slots and the update header (R270 to R273) -/

/-- Where a slot's image begins (R270); true is slot B. -/
def slotBase (b : Bool) : Nat := if b then 0x5001800000 else 0x5000000000

/-- A slot is 24 MiB; its last 4 KiB hold the header (R270, R271). -/
def slotSize : Nat := 0x1800000
def headerAt (b : Bool) : Nat := slotBase b + slotSize - 0x1000

/-- Fields of the header (R272). -/
def hdrFormat (h : List Byte) : Nat := field h 6 2
def hdrFull (h : List Byte) : Bool := decide (hdrFormat h = 2)
def hdrFrom (h : List Byte) : Nat := field h 16 4
def hdrBlocks (h : List Byte) : Nat := field h 28 4
def hdrLen (h : List Byte) : Nat := field h 32 4
def hdrOps (h : List Byte) : Nat := field h 36 4

/-- A version is four bytes, major first (R272); as a number the major is the most significant. -/
def versionAt (h : List Byte) (off : Nat) : W32 := BitVec.ofNat 32 (beNat ((h.drop off).take 4))

/-- The header's fields agree with R272 and R489. -/
def hdrOk (h : List Byte) : Bool :=
  decide (hdrFormat h = 1 ∨ hdrFormat h = 2) && decide (hdrLen h ≤ 25161728) && decide (hdrBlocks h = (hdrLen h + 65535) / 65536)
    && decide (hdrBlocks h ≤ 384)
    && (!hdrFull h || (decide (hdrOps h = hdrLen h) && decide (hdrFrom h = 0) && ((h.drop 40).take 48).all fun b => decide (b = 0)))

/-- The slot that an update is written into: the inactive one; in RECOVERY an INVALID slot, or the one that is not CONFIRMED (R274, R285). -/
def State.updateSlot (s : State) : Bool :=
  if s.mod.st = .recovery then
    if s.nv.slotA.st = .invalid then false
    else if s.nv.slotB.st = .invalid then true
    else decide (s.nv.slotA.st = .confirmed)
  else !s.nv.runB

/-- SHA-384 of the running image (R274; log 9). -/
def State.runningHash (s : State) : List Byte :=
  let n := (s.nv.slot s.nv.runB).len
  if n = 0 then Config.imageHash s.nv.runB else sha384 (Mem.rdN s.mem (slotBase s.nv.runB) n)

/-- Why UPDATE_BEGIN is refused under R274, by the reasons of UPDATE_REJECTED (R420); RECOVERY does not check FROM_HASH (R285). -/
def State.rejects (s : State) (h : List Byte) : Option Nat :=
  let serial := field h 8 8
  if h.take 4 ≠ [0x51#8, 0x44, 0x4C, 0x55] then some 1
  else if field h 4 2 ≠ 0x9256 then some 2
  else if serial ≠ 0 ∧ serial ≠ Config.serial.toNat then some 3
  else if hdrFormat h = 1 ∧ s.mod.st ≠ .recovery ∧ (h.drop 40).take 48 ≠ s.runningHash then some 4
  else if (versionAt h 20).toNat < s.nv.floor.toNat then some 5
  else none

/-- UPDATE_REJECTED (R420). -/
def State.rejected (s : State) (reason block : Nat) : State := s.record 0x0704 0 (bit s.updateSlot) (BitVec.ofNat 32 reason) (BitVec.ofNat 32 block) 0 0

def State.setUpdate (s : State) (u : Option Update) : State := { s with nv := { s.nv with update := u } }
def State.setSlot (s : State) (b : Bool) (x : Slot) : State := { s with nv := s.nv.setSlot b x }

/-! ### Delivery (R274 to R276, R346) -/

/-- The effect of UPDATE_BEGIN on a request whose length and fields are right: refused under R274, else the update is open. -/
def State.updateBegin (s : State) (r : Request) : State :=
  let h := r.payload.take 192
  let b := s.updateSlot
  match s.rejects h with
  | some reason => (s.rejected reason 0).refuse r .checkFail
  | none =>
    if s.nv.update.isSome then s.refuse r .busy
    else if (s.nv.slot b).st = .trial then s.refuse r .notNow
    else
      let crcs := (List.range (hdrBlocks h)).map fun i => BitVec.ofNat 32 (field r.payload (192 + 4 * i) 4)
      let s := s.setSlot b { st := .invalid, version := 0, floor := 0, len := 0 }
      (s.setUpdate (some { header := h, crcs := crcs, opsDone := 0, len := 0, blocks := 0 })).okay r []

/-- UPDATE_BEGIN (R274, R285, R346). -/
def execUpdateBegin (q : ReqSrc) (s : State) : CmdAnswer :=
  .next (s.commandHere q 0x0901 (fun r =>
    [(decide (192 ≤ r.payload.length) && decide (r.payload.length = 192 + 4 * hdrBlocks r.payload), .badLen), sys r,
     (hdrOk (r.payload.take 192) && (decide (s.mod.st ≠ .recovery) || hdrFull r.payload), .checkFail)]) fun r s => s.updateBegin r)

/-- Bytes of block i of a result (R275). -/
def blockEnd (h : List Byte) (i : Nat) : Nat := min (65536 * (i + 1)) (hdrLen h)

/-- The first complete block from `u.blocks` on that differs from its CRC; otherwise how many are done (R182, R275). -/
def State.checkBlocks (s : State) (b : Bool) (u : Update) : Nat → Sum Nat Nat
  | 0 => .inr u.blocks
  | n + 1 =>
    if hdrBlocks u.header ≤ u.blocks ∨ u.len < blockEnd u.header u.blocks then .inr u.blocks
    else
      let bs := Mem.rdN s.mem (slotBase b + 65536 * u.blocks) (blockEnd u.header u.blocks - 65536 * u.blocks)
      if u.crcs[u.blocks]? = some (crc32c bs) then s.checkBlocks b { u with blocks := u.blocks + 1 } n else .inl u.blocks

/-- Operations have been applied: their result is in the slot, complete blocks are checked (R275). -/
def State.updateData (s : State) (r : Request) (u : Update) (ops : Nat) (result : List Byte) : State :=
  let b := s.updateSlot
  let bs := result.take (hdrLen u.header - u.len)
  let s := s.wrBytes (slotBase b + u.len) bs
  let u := { u with opsDone := u.opsDone + ops, len := u.len + bs.length }
  match s.checkBlocks b u (hdrBlocks u.header) with
  | .inl i => ((s.rejected 6 i).setUpdate none).refuse r .checkFail
  | .inr n => (s.setUpdate (some { u with blocks := n })).okay r []

/-- UPDATE_DATA (R275, R346). `result` is what the operations of a difference bring; those of a full image are the image itself (R272). -/
def execUpdateData (q : ReqSrc) (result : List Byte) (s : State) : CmdAnswer :=
  .next (s.commandHere q 0x0902 (fun r =>
    let n := r.payload.length - 4
    [(decide (8 ≤ r.payload.length) && decide (n ≤ 4060), .badLen), sys r, (s.nv.update.isSome, .notNow),
     (match s.nv.update with | some u => decide (field r.payload 0 4 = u.opsDone) | none => true, .badLen),
     (match s.nv.update with | some u => decide (u.opsDone + n ≤ hdrOps u.header) | none => true, .checkFail)]) fun r s =>
    match s.nv.update with
    | some u => s.updateData r u (r.payload.length - 4) (if hdrFull u.header then r.payload.drop 4 else result)
    | none => s)

/-- The signature covers header bytes 0 to 87 and the image (R273). -/
def State.signed (s : State) (b : Bool) (u : Update) : Bool :=
  let z := beNat (sha384 (u.header.take 88 ++ Mem.rdN s.mem (slotBase b) (hdrLen u.header)))
  ecdsaOk Config.updateKeyX Config.updateKeyY z (field u.header 88 48) (field u.header 136 48)

/-- UPDATE_VERIFY (R273, R276): over the complete result. -/
def execUpdateVerify (q : ReqSrc) (s : State) : CmdAnswer :=
  .next (s.commandHere q 0x0903 (fun r =>
    [lenIs r 0, sys r, (match s.nv.update with | some u => decide (u.len = hdrLen u.header) | none => false, .notNow)]) fun r s =>
    match s.nv.update with
    | none => s
    | some u =>
      let b := s.updateSlot
      if s.signed b u then
        let s := (s.wrBytes (headerAt b) u.header).setSlot b
          { st := .valid, version := versionAt u.header 20, floor := versionAt u.header 24, len := hdrLen u.header }
        (s.setUpdate none).okay r []
      else ((s.rejected 7 0).setUpdate none).refuse r .checkFail)

/-! ### Trial, commit, rollback (R277 to R280) -/

/-- The slot that UPDATE_ACTIVATE starts: the VALID one. -/
def State.validSlot (s : State) : Option Bool :=
  if s.nv.slotA.st = .valid then some false else if s.nv.slotB.st = .valid then some true else none

/-- A VALID slot may be started: no lower than the version floor (R272, R277). -/
def State.activatable (s : State) : Bool :=
  match s.validSlot with
  | some b => decide (s.nv.floor.toNat ≤ (s.nv.slot b).version.toNat)
  | none => false

/-- UPDATE_ACTIVATE (R277, R345): the VALID slot becomes TRIAL, counted afresh, and the module resets. -/
def execUpdateActivate (q : ReqSrc) (s : State) : CmdAnswer :=
  .next (s.commandHere q 0x0904 (fun r => [lenIs r 4, sys r, flagsOk r, s.mayStop r, (s.activatable, .notNow)]) fun r s =>
    match s.validSlot with
    | none => s
    | some b =>
      let nv := s.nv.setSlot b { s.nv.slot b with st := .trial }
      { s with nv := { nv with failedBoots := 0, trialTime := 0, trialStart := none } }.resetBy r 0x30)

/-- COMMIT_UPDATE (R280). -/
def State.commitUpdate (s : State) : State :=
  let b := s.nv.runB
  let x := s.nv.slot b
  let y := s.nv.slot !b
  let nv := s.nv.setSlot b { x with st := .confirmed }
  let nv := nv.setSlot (!b) { y with st := if y.st = .invalid then .invalid else .valid }
  let s := { s with nv := { nv with floor := if s.nv.floor.toNat < x.floor.toNat then x.floor else s.nv.floor, cfgBoth := false,
                                    fallback := none, failedBoots := 0, trialTime := 0, trialStart := none } }
  ((s.disarm .trialSave).disarm .trialLimit).disarm .fallback

/-- The running slot is TRIAL (R280). -/
def State.onTrial (s : State) : Bool := decide ((s.nv.slot s.nv.runB).st = .trial)

def execCommitUpdate (q : ReqSrc) (s : State) : CmdAnswer :=
  .next (s.commandHere q 0x0905 (fun r => [lenIs r 0, sys r, (s.onTrial && s.mod.bootOk, .notNow)]) fun r s => s.commitUpdate.okay r [])

/-- UPDATE_ROLLBACK (R277, R279, R280, R345): the slot is no longer TRIAL, and the ROM starts the CONFIRMED one; an ACTIVE module hands over first, or waits until it can. -/
def execUpdateRollback (q : ReqSrc) (s : State) : CmdAnswer :=
  .next (s.commandHere q 0x0906 (fun r => [lenIs r 4, sys r, flagsOk r, (s.onTrial, .notNow), s.mayStop r]) fun r s =>
    let b := s.nv.runB
    let s := s.setSlot b { s.nv.slot b with st := .valid }
    let s := (s.disarm .trialSave).disarm .trialLimit
    if s.mod.st = .active then ({ s with nv := { s.nv with fallback := some 1 } }.after .fallback (10 * msec)).okay r []
    else s.resetBy r 0x30)

/-- UPDATE_STATUS (R276, R335): open update, blocks done, states of both slots. -/
def execUpdateStatus (q : ReqSrc) (s : State) : CmdAnswer :=
  .next (s.commandHere q 0x0907 (fun r => [lenIs r 0, sys r]) fun r s =>
    let u := s.nv.update
    s.okay r (leBytes 4 (bit u.isSome) ++ leBytes 4 ((u.map (·.blocks)).getD 0)
      ++ [BitVec.ofNat 8 (SlotSt.num s.nv.slotA.st), BitVec.ofNat 8 (SlotSt.num s.nv.slotB.st)]))

/-- ENTER_RECOVERY (R283, R345). -/
def execEnterRecovery (q : ReqSrc) (s : State) : CmdAnswer :=
  .next (s.commandHere q 0x0908 (fun r => [lenIs r 4, sys r, flagsOk r, s.mayStop r]) fun r s =>
    { s with nv := { s.nv with recReq := true } }.resetBy r 0x31)

end Sys2Proof.Machine
end

