-- ==== Sys2Proof/Machine/Dispatch.lean ====
section
/-! DEFINITION. The arm of every command: one direct call of its meaning, or a rejection by name. -/
namespace Sys2Proof.Machine
open Sys2Proof

/-- Runs a command on everything but the queue. -/
def exec (i : Instr) (s : State) : Host.Outcome State Fault Refusal :=
  match i with
  | .classBoundary k => Sys2Proof.Machine.execClassBoundary k s
  | .freezeCopyDone k => Sys2Proof.Machine.execFreezeCopyDone k s
  | .laneWakeGrant => Sys2Proof.Machine.execLaneWakeGrant s
  | .laneGateGrant => Sys2Proof.Machine.execLaneGateGrant s
  | .passVerdict c => Sys2Proof.Machine.execPassVerdict c s
  | .bundleCollected => Sys2Proof.Machine.execBundleCollected s
  | .classCycleCommit p k => Sys2Proof.Machine.execClassCycleCommit p k s
  | .sigLate p k task => Sys2Proof.Machine.execSigLate p k task s
  | .inputDeadline l lii => Sys2Proof.Machine.execInputDeadline l lii s
  | .timerEvent l => Sys2Proof.Machine.execTimerEvent l s
  | .laneDeadline l => Sys2Proof.Machine.execLaneDeadline l s
  | .eventEntry l => Sys2Proof.Machine.execEventEntry l s
  | .add l rd ra rb => Sys2Proof.Machine.execAdd l rd ra rb s
  | .sub l rd ra rb => Sys2Proof.Machine.execSub l rd ra rb s
  | .and l rd ra rb => Sys2Proof.Machine.execAnd l rd ra rb s
  | .or l rd ra rb => Sys2Proof.Machine.execOr l rd ra rb s
  | .xor l rd ra rb => Sys2Proof.Machine.execXor l rd ra rb s
  | .andn l rd ra rb => Sys2Proof.Machine.execAndn l rd ra rb s
  | .shl l rd ra rb => Sys2Proof.Machine.execShl l rd ra rb s
  | .shr l rd ra rb => Sys2Proof.Machine.execShr l rd ra rb s
  | .sar l rd ra rb => Sys2Proof.Machine.execSar l rd ra rb s
  | .lts l rd ra rb => Sys2Proof.Machine.execLts l rd ra rb s
  | .ltu l rd ra rb => Sys2Proof.Machine.execLtu l rd ra rb s
  | .addk l rd ra imm => Sys2Proof.Machine.execAddk l rd ra imm s
  | .andk l rd ra imm => Sys2Proof.Machine.execAndk l rd ra imm s
  | .ork l rd ra imm => Sys2Proof.Machine.execOrk l rd ra imm s
  | .xork l rd ra imm => Sys2Proof.Machine.execXork l rd ra imm s
  | .shlk l rd ra imm => Sys2Proof.Machine.execShlk l rd ra imm s
  | .shrk l rd ra imm => Sys2Proof.Machine.execShrk l rd ra imm s
  | .sark l rd ra imm => Sys2Proof.Machine.execSark l rd ra imm s
  | .ltsk l rd ra imm => Sys2Proof.Machine.execLtsk l rd ra imm s
  | .ldhi l rd imm => Sys2Proof.Machine.execLdhi l rd imm s
  | .mul l rd ra rb => Sys2Proof.Machine.execMul l rd ra rb s
  | .mulhs l rd ra rb => Sys2Proof.Machine.execMulhs l rd ra rb s
  | .divs l rd ra rb => Sys2Proof.Machine.execDivs l rd ra rb s
  | .divu l rd ra rb => Sys2Proof.Machine.execDivu l rd ra rb s
  | .rmds l rd ra rb => Sys2Proof.Machine.execRmds l rd ra rb s
  | .rmdu l rd ra rb => Sys2Proof.Machine.execRmdu l rd ra rb s
  | .cmul l rd ra rb => Sys2Proof.Machine.execCmul l rd ra rb s
  | .cdiv l rd ra rb => Sys2Proof.Machine.execCdiv l rd ra rb s
  | .cchk l rd ra rb => Sys2Proof.Machine.execCchk l rd ra rb s
  | .fadd64 l rd ra rb => Sys2Proof.Machine.execFadd64 l rd ra rb s
  | .fsub64 l rd ra rb => Sys2Proof.Machine.execFsub64 l rd ra rb s
  | .fmul64 l rd ra rb => Sys2Proof.Machine.execFmul64 l rd ra rb s
  | .fdiv64 l rd ra rb => Sys2Proof.Machine.execFdiv64 l rd ra rb s
  | .fsqrt64 l rd ra rb => Sys2Proof.Machine.execFsqrt64 l rd ra rb s
  | .fceq64 l rd ra rb => Sys2Proof.Machine.execFceq64 l rd ra rb s
  | .fclt64 l rd ra rb => Sys2Proof.Machine.execFclt64 l rd ra rb s
  | .fcle64 l rd ra rb => Sys2Proof.Machine.execFcle64 l rd ra rb s
  | .itof64 l rd ra rb => Sys2Proof.Machine.execItof64 l rd ra rb s
  | .ftoi64 l rd ra rb => Sys2Proof.Machine.execFtoi64 l rd ra rb s
  | .f64to32 l rd ra rb => Sys2Proof.Machine.execF64to32 l rd ra rb s
  | .fadd32 l rd ra rb => Sys2Proof.Machine.execFadd32 l rd ra rb s
  | .fsub32 l rd ra rb => Sys2Proof.Machine.execFsub32 l rd ra rb s
  | .fmul32 l rd ra rb => Sys2Proof.Machine.execFmul32 l rd ra rb s
  | .fdiv32 l rd ra rb => Sys2Proof.Machine.execFdiv32 l rd ra rb s
  | .fsqrt32 l rd ra rb => Sys2Proof.Machine.execFsqrt32 l rd ra rb s
  | .fceq32 l rd ra rb => Sys2Proof.Machine.execFceq32 l rd ra rb s
  | .fclt32 l rd ra rb => Sys2Proof.Machine.execFclt32 l rd ra rb s
  | .fcle32 l rd ra rb => Sys2Proof.Machine.execFcle32 l rd ra rb s
  | .itof32 l rd ra rb => Sys2Proof.Machine.execItof32 l rd ra rb s
  | .ftoi32 l rd ra rb => Sys2Proof.Machine.execFtoi32 l rd ra rb s
  | .f32to64 l rd ra rb => Sys2Proof.Machine.execF32to64 l rd ra rb s
  | .lds8 l rd ra imm => Sys2Proof.Machine.execLds8 l rd ra imm s
  | .ldu8 l rd ra imm => Sys2Proof.Machine.execLdu8 l rd ra imm s
  | .lds16 l rd ra imm => Sys2Proof.Machine.execLds16 l rd ra imm s
  | .ldu16 l rd ra imm => Sys2Proof.Machine.execLdu16 l rd ra imm s
  | .lds32 l rd ra imm => Sys2Proof.Machine.execLds32 l rd ra imm s
  | .ldu32 l rd ra imm => Sys2Proof.Machine.execLdu32 l rd ra imm s
  | .ld64 l rd ra imm => Sys2Proof.Machine.execLd64 l rd ra imm s
  | .st8 l rd ra imm => Sys2Proof.Machine.execSt8 l rd ra imm s
  | .st16 l rd ra imm => Sys2Proof.Machine.execSt16 l rd ra imm s
  | .st32 l rd ra imm => Sys2Proof.Machine.execSt32 l rd ra imm s
  | .st64 l rd ra imm => Sys2Proof.Machine.execSt64 l rd ra imm s
  | .imld l rd lii => Sys2Proof.Machine.execImld l rd lii s
  | .imst l rd lii => Sys2Proof.Machine.execImst l rd lii s
  | .imldx l rd ra imm => Sys2Proof.Machine.execImldx l rd ra imm s
  | .imstx l rd ra imm => Sys2Proof.Machine.execImstx l rd ra imm s
  | .breq l ra rb off => Sys2Proof.Machine.execBreq l ra rb off s
  | .brne l ra rb off => Sys2Proof.Machine.execBrne l ra rb off s
  | .brlts l ra rb off => Sys2Proof.Machine.execBrlts l ra rb off s
  | .brges l ra rb off => Sys2Proof.Machine.execBrges l ra rb off s
  | .brltu l ra rb off => Sys2Proof.Machine.execBrltu l ra rb off s
  | .brgeu l ra rb off => Sys2Proof.Machine.execBrgeu l ra rb off s
  | .jrel l rd imm => Sys2Proof.Machine.execJrel l rd imm s
  | .jind l rd ra imm => Sys2Proof.Machine.execJind l rd ra imm s
  | .waitev l rd ra rb => Sys2Proof.Machine.execWaitev l rd ra rb s
  | .retev l rd ra rb => Sys2Proof.Machine.execRetev l rd ra rb s
  | .rdtime l rd ra rb => Sys2Proof.Machine.execRdtime l rd ra rb s
  | .rdbnd l rd ra rb => Sys2Proof.Machine.execRdbnd l rd ra rb s
  | .rdctr l rd ra rb => Sys2Proof.Machine.execRdctr l rd ra rb s
  | .yieldPass l rd ra rb => Sys2Proof.Machine.execYieldPass l rd ra rb s
  | .blNop l f => Sys2Proof.Machine.execBlNop l f s
  | .blLd l f => Sys2Proof.Machine.execBlLd l f s
  | .blLdn l f => Sys2Proof.Machine.execBlLdn l f s
  | .blAnd l f => Sys2Proof.Machine.execBlAnd l f s
  | .blAndn l f => Sys2Proof.Machine.execBlAndn l f s
  | .blOr l f => Sys2Proof.Machine.execBlOr l f s
  | .blOrn l f => Sys2Proof.Machine.execBlOrn l f s
  | .blXor l f => Sys2Proof.Machine.execBlXor l f s
  | .blXnor l f => Sys2Proof.Machine.execBlXnor l f s
  | .blSt l f => Sys2Proof.Machine.execBlSt l f s
  | .blStn l f => Sys2Proof.Machine.execBlStn l f s
  | .blSet l f => Sys2Proof.Machine.execBlSet l f s
  | .blRst l f => Sys2Proof.Machine.execBlRst l f s
  | .blEp l f => Sys2Proof.Machine.execBlEp l f s
  | .blEn l f => Sys2Proof.Machine.execBlEn l f s
  | .blPush l f => Sys2Proof.Machine.execBlPush l f s
  | .blPopa l f => Sys2Proof.Machine.execBlPopa l f s
  | .blPopo l f => Sys2Proof.Machine.execBlPopo l f s
  | .blPop l f => Sys2Proof.Machine.execBlPop l f s
  | .blPeek l f => Sys2Proof.Machine.execBlPeek l f s
  | .blNot l f => Sys2Proof.Machine.execBlNot l f s
  | .blOne l f => Sys2Proof.Machine.execBlOne l f s
  | .blZero l f => Sys2Proof.Machine.execBlZero l f s
  | .blJc l f => Sys2Proof.Machine.execBlJc l f s
  | .blJcn l f => Sys2Proof.Machine.execBlJcn l f s
  | .blJmp l f => Sys2Proof.Machine.execBlJmp l f s
  | .blEnd l f => Sys2Proof.Machine.execBlEnd l f s
  | .lEvswiWrite l v => Sys2Proof.Machine.execLEvswiWrite l v s
  | .lClkLoRead l q => Sys2Proof.Machine.execLClkLoRead l q s
  | .lEccRead l => Sys2Proof.Machine.execLEccRead l s
  | .registerWrite addr v => Sys2Proof.Machine.execRegisterWrite addr v s
  | .imDmScrub l => Sys2Proof.Machine.execImDmScrub l s
  | .memoryScrub addr => Sys2Proof.Machine.execMemoryScrub addr s
  | .comparatorTestRound => Sys2Proof.Machine.execComparatorTestRound s
  | .cmpShadowPeriodEnd => Sys2Proof.Machine.execCmpShadowPeriodEnd s
  | .cmpVectorTestDone fail => Sys2Proof.Machine.execCmpVectorTestDone fail s
  | .backgroundTestComplete l passed => Sys2Proof.Machine.execBackgroundTestComplete l passed s
  | .beaconSend => Sys2Proof.Machine.execBeaconSend s
  | .healthFrameSend => Sys2Proof.Machine.execHealthFrameSend s
  | .beacon p f => Sys2Proof.Machine.execBeacon p f s
  | .beaconTimeout => Sys2Proof.Machine.execBeaconTimeout s
  | .leaderQueryTimeout => Sys2Proof.Machine.execLeaderQueryTimeout s
  | .healthReportFrame p f => Sys2Proof.Machine.execHealthReportFrame p f s
  | .epochIssue => Sys2Proof.Machine.execEpochIssue s
  | .prepare p f plan dom => Sys2Proof.Machine.execPrepare p f plan dom s
  | .ready p f => Sys2Proof.Machine.execReady p f s
  | .refuse p f => Sys2Proof.Machine.execRefuse p f s
  | .go p f => Sys2Proof.Machine.execGo p f s
  | .abandon p f => Sys2Proof.Machine.execAbandon p f s
  | .goRepeat => Sys2Proof.Machine.execGoRepeat s
  | .preparedEpochTimeout => Sys2Proof.Machine.execPreparedEpochTimeout s
  | .epochReadyTimeout => Sys2Proof.Machine.execEpochReadyTimeout s
  | .goCompareInstant => Sys2Proof.Machine.execGoCompareInstant s
  | .goCmp m => Sys2Proof.Machine.execGoCmp m s
  | .epochApply => Sys2Proof.Machine.execEpochApply s
  | .pairLostDetect pair => Sys2Proof.Machine.execPairLostDetect pair s
  | .migrationDelta p f d => Sys2Proof.Machine.execMigrationDelta p f d s
  | .deltaAgreement task partnerNewest => Sys2Proof.Machine.execDeltaAgreement task partnerNewest s
  | .heldFrameExpiry => Sys2Proof.Machine.execHeldFrameExpiry s
  | .safeNotice p f part entry code => Sys2Proof.Machine.execSafeNotice p f part entry code s
  | .ident p x => Sys2Proof.Machine.execIdent p x s
  | .identSend p => Sys2Proof.Machine.execIdentSend p s
  | .linkUp p => Sys2Proof.Machine.execLinkUp p s
  | .lockLoss p lane => Sys2Proof.Machine.execLockLoss p lane s
  | .identUpTimeout p => Sys2Proof.Machine.execIdentUpTimeout p s
  | .align p lane => Sys2Proof.Machine.execAlign p lane s
  | .alignSend p lane => Sys2Proof.Machine.execAlignSend p lane s
  | .credit p vc pool count => Sys2Proof.Machine.execCredit p vc pool count s
  | .preempt p vc pool => Sys2Proof.Machine.execPreempt p vc pool s
  | .resume p vc pool => Sys2Proof.Machine.execResume p vc pool s
  | .controlBlockUnknown p ty => Sys2Proof.Machine.execControlBlockUnknown p ty s
  | .pub p f => Sys2Proof.Machine.execPub p f s
  | .req p f m => Sys2Proof.Machine.execReq p f m s
  | .rsp p f m => Sys2Proof.Machine.execRsp p f m s
  | .reqRetry session seq => Sys2Proof.Machine.execReqRetry session seq s
  | .reqTimeout session seq => Sys2Proof.Machine.execReqTimeout session seq s
  | .ringBreak p f link => Sys2Proof.Machine.execRingBreak p f link s
  | .ringBreakRepeat p => Sys2Proof.Machine.execRingBreakRepeat p s
  | .ringMend p f link => Sys2Proof.Machine.execRingMend p f link s
  | .ringPlan p f links t0 => Sys2Proof.Machine.execRingPlan p f links t0 s
  | .ringPlanT0 => Sys2Proof.Machine.execRingPlanT0 s
  | .bypassOpen row => Sys2Proof.Machine.execBypassOpen row s
  | .bypassClose => Sys2Proof.Machine.execBypassClose s
  | .heartbeat b => Sys2Proof.Machine.execHeartbeat b s
  | .heartbeatSend => Sys2Proof.Machine.execHeartbeatSend s
  | .heartbeatMiss => Sys2Proof.Machine.execHeartbeatMiss s
  | .echo p f => Sys2Proof.Machine.execEcho p f s
  | .echoAnswer p f => Sys2Proof.Machine.execEchoAnswer p f s
  | .takeoverEvaluation => Sys2Proof.Machine.execTakeoverEvaluation s
  | .sig f => Sys2Proof.Machine.execSig f s
  | .bundleReq task bnd => Sys2Proof.Machine.execBundleReq task bnd s
  | .bundle task bnd words => Sys2Proof.Machine.execBundle task bnd words s
  | .adoptionTimeout task => Sys2Proof.Machine.execAdoptionTimeout task s
  | .mirror m => Sys2Proof.Machine.execMirror m s
  | .mirrorLate p k => Sys2Proof.Machine.execMirrorLate p k s
  | .force m => Sys2Proof.Machine.execForce m s
  | .forceRepeat => Sys2Proof.Machine.execForceRepeat s
  | .forceEffective => Sys2Proof.Machine.execForceEffective s
  | .role m => Sys2Proof.Machine.execRole m s
  | .takeBackEvaluation => Sys2Proof.Machine.execTakeBackEvaluation s
  | .handoverInstant => Sys2Proof.Machine.execHandoverInstant s
  | .placer m => Sys2Proof.Machine.execPlacer m s
  | .join m => Sys2Proof.Machine.execJoin m s
  | .syncComplete => Sys2Proof.Machine.execSyncComplete s
  | .joiningPartnerSilent => Sys2Proof.Machine.execJoiningPartnerSilent s
  | .healthReportTimer => Sys2Proof.Machine.execHealthReportTimer s
  | .tripWords k tripIn tripDiag => Sys2Proof.Machine.execTripWords k tripIn tripDiag s
  | .canWords k channel objs window => Sys2Proof.Machine.execCanWords k channel objs window s
  | .revertWindowEnd p => Sys2Proof.Machine.execRevertWindowEnd p s
  | .revertRetry p => Sys2Proof.Machine.execRevertRetry p s
  | .trialTimeLimit => Sys2Proof.Machine.execTrialTimeLimit s
  | .trialTimeSave => Sys2Proof.Machine.execTrialTimeSave s
  | .fallbackRetry => Sys2Proof.Machine.execFallbackRetry s
  | .gWdata3Write v => Sys2Proof.Machine.execGWdata3Write v s
  | .gCommitWrite v => Sys2Proof.Machine.execGCommitWrite v s
  | .guardCheckDone => Sys2Proof.Machine.execGuardCheckDone s
  | .gNmissRead => Sys2Proof.Machine.execGNmissRead s
  | .privilegedAccess core addr kind data => Sys2Proof.Machine.execPrivilegedAccess core addr kind data s
  | .read addr len => Sys2Proof.Machine.execRead addr len s
  | .write addr data => Sys2Proof.Machine.execWrite addr data s
  | .qread addr len => Sys2Proof.Machine.execQread addr len s
  | .qwrite addr data => Sys2Proof.Machine.execQwrite addr data s
  | .hostUnknownCommand cmd => Sys2Proof.Machine.execHostUnknownCommand cmd s
  | .hostLoRead addr q => Sys2Proof.Machine.execHostLoRead addr q s
  | .hCtlDozeWrite => Sys2Proof.Machine.execHCtlDozeWrite s
  | .irqModerationExpiry => Sys2Proof.Machine.execIrqModerationExpiry s
  | .submit n => Sys2Proof.Machine.execSubmit n s
  | .release n => Sys2Proof.Machine.execRelease n s
  | .responseFill n => Sys2Proof.Machine.execResponseFill n s
  | .tlsAccept port chains cert => Sys2Proof.Machine.execTlsAccept port chains cert s
  | .tlsRequest c bytes => Sys2Proof.Machine.execTlsRequest c bytes s
  | .tlsClose c => Sys2Proof.Machine.execTlsClose c s
  | .tlsNoSessionTimeout c => Sys2Proof.Machine.execTlsNoSessionTimeout c s
  | .sessionIdleExpiry tag => Sys2Proof.Machine.execSessionIdleExpiry tag s
  | .openSession q => Sys2Proof.Machine.execOpenSession q s
  | .closeSession q => Sys2Proof.Machine.execCloseSession q s
  | .moduleInfo q => Sys2Proof.Machine.execModuleInfo q s
  | .moduleReset q => Sys2Proof.Machine.execModuleReset q s
  | .configSet q => Sys2Proof.Machine.execConfigSet q s
  | .configGet q => Sys2Proof.Machine.execConfigGet q s
  | .hostkeySet q part key => Sys2Proof.Machine.execHostkeySet q part key s
  | .certInstall q certs => Sys2Proof.Machine.execCertInstall q certs s
  | .partitionCreate q cfg => Sys2Proof.Machine.execPartitionCreate q cfg s
  | .partitionRemove q part => Sys2Proof.Machine.execPartitionRemove q part s
  | .partitionStart q part => Sys2Proof.Machine.execPartitionStart q part s
  | .partitionStop q part => Sys2Proof.Machine.execPartitionStop q part s
  | .partitionSafe q part => Sys2Proof.Machine.execPartitionSafe q part s
  | .partitionSetProfile q => Sys2Proof.Machine.execPartitionSetProfile q s
  | .partitionSetPolicy q part mismatchSafe faultSafe limit => Sys2Proof.Machine.execPartitionSetPolicy q part mismatchSafe faultSafe limit s
  | .guardSet q rules => Sys2Proof.Machine.execGuardSet q rules s
  | .guardCommit q => Sys2Proof.Machine.execGuardCommit q s
  | .guardQuery q => Sys2Proof.Machine.execGuardQuery q s
  | .partitionStatus q part => Sys2Proof.Machine.execPartitionStatus q part s
  | .partitionSetReservation q part r => Sys2Proof.Machine.execPartitionSetReservation q part r s
  | .programLoad q pkgs => Sys2Proof.Machine.execProgramLoad q pkgs s
  | .programActivate q => Sys2Proof.Machine.execProgramActivate q s
  | .programConfirm q => Sys2Proof.Machine.execProgramConfirm q s
  | .programRevert q => Sys2Proof.Machine.execProgramRevert q s
  | .programStatus q part => Sys2Proof.Machine.execProgramStatus q part s
  | .programDiscard q => Sys2Proof.Machine.execProgramDiscard q s
  | .programData q => Sys2Proof.Machine.execProgramData q s
  | .classSet q k period phase => Sys2Proof.Machine.execClassSet q k period phase s
  | .classGet q => Sys2Proof.Machine.execClassGet q s
  | .placeQuery q => Sys2Proof.Machine.execPlaceQuery q s
  | .placeRebalance q parts => Sys2Proof.Machine.execPlaceRebalance q parts s
  | .pairStatus q => Sys2Proof.Machine.execPairStatus q s
  | .pairSwitch q => Sys2Proof.Machine.execPairSwitch q s
  | .pairRevertInhibit q => Sys2Proof.Machine.execPairRevertInhibit q s
  | .pairSetHold q => Sys2Proof.Machine.execPairSetHold q s
  | .pairService q => Sys2Proof.Machine.execPairService q s
  | .timeStatus q => Sys2Proof.Machine.execTimeStatus q s
  | .timeAcceptStep q => Sys2Proof.Machine.execTimeAcceptStep q s
  | .timeSet q cfg => Sys2Proof.Machine.execTimeSet q cfg s
  | .forceSet q => Sys2Proof.Machine.execForceSet q s
  | .forceClear q => Sys2Proof.Machine.execForceClear q s
  | .forceList q => Sys2Proof.Machine.execForceList q s
  | .varRead q vids => Sys2Proof.Machine.execVarRead q vids s
  | .forceClearAll q => Sys2Proof.Machine.execForceClearAll q s
  | .recRead q => Sys2Proof.Machine.execRecRead q s
  | .recClear q => Sys2Proof.Machine.execRecClear q s
  | .recSetMode q => Sys2Proof.Machine.execRecSetMode q s
  | .ctrSet q => Sys2Proof.Machine.execCtrSet q s
  | .ctrAclSet q => Sys2Proof.Machine.execCtrAclSet q s
  | .ctrRead q counters => Sys2Proof.Machine.execCtrRead q counters s
  | .updateBegin q => Sys2Proof.Machine.execUpdateBegin q s
  | .updateData q result => Sys2Proof.Machine.execUpdateData q result s
  | .updateVerify q => Sys2Proof.Machine.execUpdateVerify q s
  | .updateActivate q => Sys2Proof.Machine.execUpdateActivate q s
  | .commitUpdate q => Sys2Proof.Machine.execCommitUpdate q s
  | .updateRollback q => Sys2Proof.Machine.execUpdateRollback q s
  | .updateStatus q => Sys2Proof.Machine.execUpdateStatus q s
  | .enterRecovery q => Sys2Proof.Machine.execEnterRecovery q s
  | .safetyLogin q password => Sys2Proof.Machine.execSafetyLogin q password s
  | .safetyLoginExpiry tag => Sys2Proof.Machine.execSafetyLoginExpiry tag s
  | .safetyParamSet q image => Sys2Proof.Machine.execSafetyParamSet q image s
  | .safetyConfirm q => Sys2Proof.Machine.execSafetyConfirm q s
  | .safetyStatus q => Sys2Proof.Machine.execSafetyStatus q s
  | .safetyLogRead q => Sys2Proof.Machine.execSafetyLogRead q s
  | .safetyPasswordSet q password => Sys2Proof.Machine.execSafetyPasswordSet q password s
  | .canConfig q channel cfg => Sys2Proof.Machine.execCanConfig q channel cfg s
  | .canAbort q => Sys2Proof.Machine.execCanAbort q s
  | .canDetectRate q => Sys2Proof.Machine.execCanDetectRate q s
  | .canStatus q => Sys2Proof.Machine.execCanStatus q s
  | .stationConfig q cfg => Sys2Proof.Machine.execStationConfig q cfg s
  | .stationPubSet q pub => Sys2Proof.Machine.execStationPubSet q pub s
  | .stationStatus q => Sys2Proof.Machine.execStationStatus q s
  | .timeShadowApply => Sys2Proof.Machine.execTimeShadowApply s
  | .timeAnchor => Sys2Proof.Machine.execTimeAnchor s
  | .ptpSync port m => Sys2Proof.Machine.execPtpSync port m s
  | .ptpAnnounce port m d => Sys2Proof.Machine.execPtpAnnounce port m d s
  | .ptpPdelayReq port m => Sys2Proof.Machine.execPtpPdelayReq port m s
  | .ptpPdelayResp port m turnaround => Sys2Proof.Machine.execPtpPdelayResp port m turnaround s
  | .ptpPortSwitch => Sys2Proof.Machine.execPtpPortSwitch s
  | .ppsInEdge => Sys2Proof.Machine.execPpsInEdge s
  | .ppsOutPulse => Sys2Proof.Machine.execPpsOutPulse s
  | .ppsOutPulseEnd => Sys2Proof.Machine.execPpsOutPulseEnd s
  | .sync p f => Sys2Proof.Machine.execSync p f s
  | .syncSend => Sys2Proof.Machine.execSyncSend s
  | .announce p f => Sys2Proof.Machine.execAnnounce p f s
  | .announceSend => Sys2Proof.Machine.execAnnounceSend s
  | .pdelayReq p f => Sys2Proof.Machine.execPdelayReq p f s
  | .pdelayResp p f => Sys2Proof.Machine.execPdelayResp p f s
  | .pdelayReqSend p => Sys2Proof.Machine.execPdelayReqSend p s
  | .masterSyncTimeout => Sys2Proof.Machine.execMasterSyncTimeout s
  | .holdoverEntry => Sys2Proof.Machine.execHoldoverEntry s
  | .holdoverExpiry => Sys2Proof.Machine.execHoldoverExpiry s
  | .tripSample a b => Sys2Proof.Machine.execTripSample a b s
  | .tripWordLatch k => Sys2Proof.Machine.execTripWordLatch k s
  | .outputOverload m => Sys2Proof.Machine.execOutputOverload m s
  | .outputOvertemp m => Sys2Proof.Machine.execOutputOvertemp m s
  | .outputRetry m => Sys2Proof.Machine.execOutputRetry m s
  | .testPulseStart m => Sys2Proof.Machine.execTestPulseStart m s
  | .testPulseEnd opened closed => Sys2Proof.Machine.execTestPulseEnd opened closed s
  | .safetyPairDiff partner => Sys2Proof.Machine.execSafetyPairDiff partner s
  | .canFrameReceived c fr => Sys2Proof.Machine.execCanFrameReceived c fr s
  | .canFrameSent c slot => Sys2Proof.Machine.execCanFrameSent c slot s
  | .canTxRetransmit c slot inc => Sys2Proof.Machine.execCanTxRetransmit c slot inc s
  | .canBusOff c => Sys2Proof.Machine.execCanBusOff c s
  | .canBusOffRecovery c => Sys2Proof.Machine.execCanBusOffRecovery c s
  | .canDwellExpiry c => Sys2Proof.Machine.execCanDwellExpiry c s
  | .canSearchExpiry c => Sys2Proof.Machine.execCanSearchExpiry c s
  | .stationLinkUp port speed fullDuplex => Sys2Proof.Machine.execStationLinkUp port speed fullDuplex s
  | .stationLinkDown port => Sys2Proof.Machine.execStationLinkDown port s
  | .gratuitousArp port => Sys2Proof.Machine.execGratuitousArp port s
  | .stationFrameReceived port fr => Sys2Proof.Machine.execStationFrameReceived port fr s
  | .prpSupervisionSend => Sys2Proof.Machine.execPrpSupervisionSend s
  | .recorderMramWrite => Sys2Proof.Machine.execRecorderMramWrite s
  | .tokenRefill code part => Sys2Proof.Machine.execTokenRefill code part s
  | .suppressed code part => Sys2Proof.Machine.execSuppressed code part s
  | .eSessHiWrite n v => Sys2Proof.Machine.execESessHiWrite n v s
  | .load n ctl => Sys2Proof.Machine.execLoad n ctl s
  | .advance n ctl => Sys2Proof.Machine.execAdvance n ctl s
  | .unbind n ctl => Sys2Proof.Machine.execUnbind n ctl s
  | .snapshotReady n => Sys2Proof.Machine.execSnapshotReady n s
  | .cEnHiWrite v => Sys2Proof.Machine.execCEnHiWrite v s
  | .cUnlockHiWrite n v => Sys2Proof.Machine.execCUnlockHiWrite n v s
  | .ledtest => Sys2Proof.Machine.execLedtest s
  | .vinApplied mv => Sys2Proof.Machine.execVinApplied mv s
  | .powerLoss mv => Sys2Proof.Machine.execPowerLoss mv s
  | .startDelayExpiry => Sys2Proof.Machine.execStartDelayExpiry s
  | .holdupCharged => Sys2Proof.Machine.execHoldupCharged s
  | .strapChange addr addrp side recoveryN => Sys2Proof.Machine.execStrapChange addr addrp side recoveryN s
  | .rstNLow => Sys2Proof.Machine.execRstNLow s
  | .rstNHigh => Sys2Proof.Machine.execRstNHigh s
  | .presentNHigh => Sys2Proof.Machine.execPresentNHigh s
  | .presentNLow => Sys2Proof.Machine.execPresentNLow s
  | .stopInOrderWaitEnd => Sys2Proof.Machine.execStopInOrderWaitEnd s
  | .powerLossSequenceDone => Sys2Proof.Machine.execPowerLossSequenceDone s
  | .railOut5 rail => Sys2Proof.Machine.execRailOut5 rail s
  | .railFault rail => Sys2Proof.Machine.execRailFault rail s
  | .tempWarning tdie tinlet => Sys2Proof.Machine.execTempWarning tdie tinlet s
  | .tempFault tdie tinlet => Sys2Proof.Machine.execTempFault tdie tinlet s
  | .faultRestart tdie => Sys2Proof.Machine.execFaultRestart tdie s
  | .watchdogExpiry core => Sys2Proof.Machine.execWatchdogExpiry core s
  | .bootTimeout => Sys2Proof.Machine.execBootTimeout s
  | .clockMonitorFault => Sys2Proof.Machine.execClockMonitorFault s
  | .bootComplete r => Sys2Proof.Machine.execBootComplete r s
  | .blockLock p lane => Sys2Proof.Machine.execBlockLock p lane s
  | .mgmtQueryAnswer p f => Sys2Proof.Machine.execMgmtQueryAnswer p f s
  | .backgroundTestStart l => Sys2Proof.Machine.execBackgroundTestStart l s
  | .ptpPdelayReqSend port => Sys2Proof.Machine.execPtpPdelayReqSend port s
  | .canBusError c inc => Sys2Proof.Machine.execCanBusError c inc s
  | .canIntegration c => Sys2Proof.Machine.execCanIntegration c s
  | .tcxoValid => Sys2Proof.Machine.execTcxoValid s
  | .ledtestEnd => Sys2Proof.Machine.execLedtestEnd s
  | .commandTimeout q => Sys2Proof.Machine.execCommandTimeout q s
  | .delayedReset => Sys2Proof.Machine.execDelayedReset s

end Sys2Proof.Machine
end

