-- ==== Sys2Proof/Machine/Inventory.lean ====
section
/-! DEFINITION. The inventory EEPROM (R475): write-protected, so its bytes are the unit's and no state. -/
namespace Sys2Proof.Machine

/-- Its 7-bit address on INV_SCL and INV_SDA. -/
def eepromAddr : BitVec 7 := 0x50

/-- The ordering code (R3), ASCII. -/
def orderingCode : List Byte := "LZC-9256-".toList.map (fun c => BitVec.ofNat 8 c.toNat) ++ (if Config.conformal then [0x43#8, 0x30, 0x30] else [0x41#8, 0x30, 0x30])

/-- Bytes 0 to 251: MAGIC, TYPE, ISSUE, VARIANT, SERIAL, the ordering code in 16 bytes, and 0xFF in the reserved ones. -/
def eepromFields : List Byte :=
  [0x51#8, 0x44, 0x4C, 0x49] ++ leBytes 2 (bitsAt Config.hid.toNat 0 16) ++ [Config.issue, BitVec.ofNat 8 (bit Config.conformal)]
    ++ leBytes 8 Config.serial.toNat ++ (orderingCode ++ List.replicate 4 0) ++ List.replicate 220 0xFF

/-- The first 256 bytes, with their CRC-32C. -/
def eeprom : List Byte := eepromFields ++ leBytes 4 (crc32c eepromFields).toNat

/-- What a read through the INV contacts gives while INV_3V3 is supplied, whatever the module does: a byte at the EEPROM's address, below 256; what stands above the spec does not say (log 68). -/
def eepromRead (inv3v3 : Bool) (addr : BitVec 7) (off : Nat) : Option Byte :=
  if inv3v3 ∧ addr = eepromAddr then eeprom[off]? else none

/-- A write changes nothing: the EEPROM is write-protected. -/
def State.eepromWrite (_addr : BitVec 7) (_off : Nat) (_v : Byte) (s : State) : State := s

end Sys2Proof.Machine
end

