-- ==== Sys2Proof/Safety.lean ====
section
/-! DEFINITION. The terms the statements are written in: when an instruction of a lane runs, the state a retired instruction leaves, what a command answers, the invariant of the block, and what it means that a part of the state is unchanged. -/
namespace Sys2Proof.Machine

/-! ### Lanes -/

/-- A lane issues the word at PC: it runs, is enabled, awake and not halted, takes no event first (R97, R126, R130), and the word can be fetched without an error (R96, R99, R115) and is defined in the encoding of the pass (R99, R103, R117). -/
abbrev State.CanIssue (s : State) (l : Nat) : Prop :=
  (s.lane l).run = true ∧ (s.lane l).en = true ∧ (s.lane l).gated = false ∧ (s.lane l).wait = false ∧ (s.lane l).takeable = none
    ∧ (s.lane l).fetchOk = true ∧ s.eccOf (imAddr l (s.lane l).pc.toNat) = none ∧ s.wordOk l = true

/-- The lane decodes the word at PC as a native instruction, or in a bit-logic pass as a bit-logic instruction (R103). -/
abbrev State.NativeReady (s : State) (l : Nat) : Prop := s.CanIssue l ∧ ((s.lane l).kind && !(s.lane l).mode) = false
abbrev State.BitReady (s : State) (l : Nat) : Prop := s.CanIssue l ∧ ((s.lane l).kind && !(s.lane l).mode) = true

/-- The Counter Unit after events of a lane, in order (R436, R438). -/
def State.counts (s : State) (l : Nat) (codes : List Nat) : Ctr :=
  codes.foldl (fun c e => c.count { ctrEv e 1 l with priv := (s.lane l).mode, part := taskPart (s.lane l).task }) s.ctr

/-- The state in which lane l is x and the counters have counted; nothing else differs. -/
def State.laneNext (s : State) (l : Nat) (codes : List Nat) (x : Lane) : State :=
  { s with lanes := tput s.lanes l x, ctr := s.counts l codes }

/-- An instruction that retires with the lane changed by f: it counts as event 0x02 (and the events before it), PC moves on by 4. -/
def State.ranOn (s : State) (l : Nat) (codes : List Nat) (f : Lane → Lane) : State :=
  s.laneNext l (codes ++ [2]) { f (s.lane l) with pc := (s.lane l).pc + 4 }

/-- An instruction that retires with v in rd. -/
def State.wrote (s : State) (l : Nat) (rd : BitVec 5) (v : W64) : State := s.ranOn l [] fun x => x.setReg rd v

/-- An instruction that transfers control to a target: events 0x02 and 0x05. -/
def State.jumped (s : State) (l : Nat) (f : Lane → Lane) (target : W64) : State :=
  s.laneNext l [2, 5] { f (s.lane l) with pc := target }

/-- Everything but lanes and counters is the same, and of the lanes only l differs. -/
def LaneOnly (s t : State) (l : Nat) : Prop :=
  t = { s with lanes := t.lanes, ctr := t.ctr } ∧ ∀ k, k ≠ l → t.lane k = s.lane k

/-- Of a lane only general registers, PC and the sticky floating-point flags differ. -/
def RegsOnly (x y : Lane) : Prop := y = { x with w := y.w, pc := y.pc, fpstat := y.fpstat }

/-- A data access of n bytes at a lane-local address reaches DM: inside DM, naturally aligned, inside L_DWIN in USR mode (R94, R95, R97), and the word holds no error (R96). -/
abbrev State.DmReady (s : State) (l ea n : Nat) : Prop :=
  0x20000 ≤ ea ∧ ea < 0x40000 ∧ ea % n = 0
    ∧ ((s.lane l).mode = true ∨ inWindow (s.lane l).dwin (ea - 0x20000) = true ∧ inWindow (s.lane l).dwin (ea - 0x20000 + n - 1) = true)
    ∧ s.eccOf (dmAddr l ea) = none

/-- The state after n bytes of DM have been stored and the instruction has retired (counter events 0x06 and 0x02). -/
def State.stored (s : State) (l ea n : Nat) (v : W64) : State :=
  { s.ranOn l [6] id with mem := Mem.wrN s.mem (dmAddr l ea) (leBytes n v.toNat) }

/-- The class of the running task's cycle, and the image word an LII names in it: the bank it reads (R26, R47). -/
def State.taskClass (s : State) (l : Nat) : Nat := ((s.findTask (s.lane l).task).map (·.cls)).getD (((s.lane l).curCls).getD 0)

/-- The access the Access Guard checks for an image word of a bank (R300). -/
abbrev State.laneAccess (s : State) (l : Nat) (k : AccessKind) (bank lii : Nat) : Access :=
  { part := taskPart (s.lane l).task, master := .lane, kind := k, source := l, addr := imgAddr bank lii, len := 8 }

/-- The running task reads LII by its class view: the LII has an entry, is no same-class input, is granted by the Access Guard, and its word holds no error (R47, R96, R107, R300). -/
abbrev State.ImageReady (s : State) (l lii : Nat) (e : LiiEntry) : Prop :=
  lii < 0x100000 ∧ s.liiEntry (s.taskClass l) lii = some e ∧ s.sameClass (s.findTask (s.lane l).task) lii = none
    ∧ s.guard.allows (s.laneAccess l .r (s.curBank e.cls) lii) = true
    ∧ s.eccOf (imgAddr (s.curBank e.cls) lii) = none

/-- The value it reads: the word of CURRENT, a force substituted (R54, R107). -/
def State.imageValue (s : State) (l lii : Nat) (e : LiiEntry) : W64 :=
  s.subst e.vid (s.lane l).bnd (s.rdImg (s.curBank e.cls) lii)

/-- The running task may store to LII: it is the writer, the Access Guard grants NEXT, and the bundle has room for the word (R108, R300). -/
abbrev State.ImageWritable (s : State) (l lii : Nat) (e : LiiEntry) : Prop :=
  lii < 0x100000 ∧ s.liiEntry (s.taskClass l) lii = some e ∧ e.writer = (s.lane l).task
    ∧ s.guard.allows (s.laneAccess l .w (s.nextBank e.cls) lii) = true
    ∧ ((s.lane l).curBundle.length < 128 ∨ (s.lane l).curBundle.length ≤ 128 ∧ ∃ w ∈ (s.lane l).curBundle, w.lii = lii)

/-- The bit an operand names: of S, or of a BITS word of the image, complemented in the coded pass (R116 to R118, R120). -/
def State.OperandBit (s : State) (l : Nat) (f : BitVec 26) (b : Bool) : Prop :=
  (blLii f = 0xFFFFF ∧ b = (s.lane l).scratch.getLsbD (blBit f))
    ∨ (blLii f ≠ 0xFFFFF ∧ ∃ e, s.ImageReady l (blLii f) e ∧ e.tag = .bits
        ∧ b = ((s.imageValue l (blLii f) e).getLsbD (blBit f) != (s.lane l).pass))

/-- A bit-logic store may write the operand: its word was preloaded for this pass and the task may store to it (R119, R121, R300). -/
def State.OperandWritable (s : State) (l : Nat) (f : BitVec 26) : Prop :=
  blLii f ≠ 0xFFFFF ∧ blLii f ∈ (s.lane l).bun.pre ∧ ∃ e, s.ImageWritable l (blLii f) e

/-- An outcome is a next state in which only lane l and the counters differ, the lane being x. -/
def LaneBecomes (o : Host.Outcome State Fault Refusal) (s : State) (l : Nat) (x : Lane) : Prop :=
  ∃ t, o = .next t ∧ LaneOnly s t l ∧ t.lane l = x

/-- What a pass that ends leaves of the lane and its comparator (R76, R93, R129): the dispatcher runs in SUP mode with the next pass loaded; unless a coded pass follows, the bundles are handed over. -/
def PassEnds (s t : State) (l : Nat) : Prop :=
  let x := s.lane l
  let codedNext := !x.pass && ((s.findTask x.task).map fun t => s.codedRuns t x.bnd).getD false
  (t.lane l).mode = true ∧ (t.lane l).kind = false ∧ (t.lane l).pass = false ∧ (t.lane l).pc = (x.dspent &&& 0x1FFFC).setWidth 64
    ∧ (t.lane l).eclass = x.eclass ∧ t.mem = s.mem
    ∧ (match s.nextPass l codedNext with
       | some (u, coded) => (t.lane l).task = u.task ∧ (t.lane l).runPass = coded ∧ (t.lane l).runKind = u.bitLogic ∧ (t.lane l).tarm = true
       | none => (t.lane l).task = x.task ∧ (t.lane l).runPass = x.runPass ∧ (t.lane l).runKind = x.runKind)
    ∧ (if codedNext then (t.lane l).bun = x.bun ∧ t.cmp = s.cmp
       else (t.lane l).bun = Bundles.reset
        ∧ (tget (Cmp.reset (l / 16)) t.cmp (l / 16)).queue = (tget (Cmp.reset (l / 16)) s.cmp (l / 16)).queue
            ++ [{ lane := l, task := x.task, cls := s.taskClass l, bnd := x.bnd, p := x.bun.p, k := x.bun.k, coded := x.pass, trap := none }])

/-! ### Frames, timers and answers -/

/-- The member delivers the frame to itself (R180, R185, R190); `body` is what it carries of internal layout. -/
abbrev State.Delivers (s : State) (p : Port) (f : Frame) (body : Option Msg := none) : Prop := (s.receiveAs p f body).deliver = true

/-- What the port makes of a frame that is not delivered here, or is none of its row's. -/
def State.afterPort (s : State) (p : Port) (f : Frame) (body : Option Msg := none) : State := (s.receiveAs p f body).s

/-- The state in which a delivered frame is acted on. -/
def State.afterFrame (s : State) (p : Port) (f : Frame) (body : Option Msg := none) : State := (s.receiveAs p f body).s.alive f

/-- A frame of SCOPE module or pair leaves on the port that its route gives, where that output is free; to the module's own pair it goes across the Pair Link with PAIRX (R189, R190). -/
def State.Routes (s t : State) (f : Frame) (b : Option Msg) : Prop :=
  f.scope < 2 → f.dirset = false → f.crc = f.goodCrc →
    ((f.scope = 0 → f.dstMod ≠ s.module) → (f.scope = 1 → pairOf f.dstMod ≠ pairOf s.module) → ∀ q, s.route f.dstMod f.scope = some (q, false) →
      s.clear q f = true → Tx.out q ⟨f, b, none⟩ ∈ t.out) ∧
    (f.scope = 1 → pairOf f.dstMod = pairOf s.module →
      let g : Frame := { f with flags := f.flags ||| 0x04 }
      let h : Frame := { g with crc := g.goodCrc }
      s.clear .pl h = true → Tx.out .pl ⟨h, b, none⟩ ∈ t.out)

/-- A domain broadcast leaves in both directions of the row, where the ring goes on and the output is free (R192). -/
def State.Floods (s t : State) (f : Frame) (b : Option Msg) : Prop :=
  ∀ d, 0 < reach (s.ringSize true) (s.outLinks true (rowOf s.module)) (colOf s.module) d → s.clear (portTo true d) f = true →
    Tx.out (portTo true d) ⟨f, b, none⟩ ∈ t.out

/-- The liveness queries of R137 and R164 leave in all four directions, where the output is free. -/
def State.Queries (s t : State) (m : Nat) : Prop :=
  m < 4096 → m ≠ s.module → ∀ d, d < 4 →
    let f := s.mkFrame 6 (0x10 + 0x20 * d) m 0 s.now32 (leBytes 4 (Config.mgmtWord 2).toNat)
    s.plannedOut (dirPort d) = false → s.clear (dirPort d) f = true → .frame (dirPort d) f ∈ t.out

/-- A pair message leaves on the Pair Link, where that output is free (R219). -/
def State.Tells (s t : State) (m : Msg) : Prop := s.clear .pl (s.pairFrame m) = true → Out.msg .pl (s.pairFrame m) m ∈ t.out

/-- ECHO queries to the partner leave both ways on the row, where the outputs are free (R237). -/
def State.Echoes (s t : State) : Prop :=
  let q : Nat → Frame := fun d => s.mkFrame 6 (0x10 + 0x20 * d) s.partner 0 s.now32 (leBytes 4 (Config.mgmtWord 0).toNat)
  (s.clear .e (q 0) = true → Out.frame .e (q 0) ∈ t.out) ∧ (s.clear .w (q 1) = true → Out.frame .w (q 1) ∈ t.out)

/-- A PLACE frame of this module, with no plan records (R151). -/
def State.placeFrame (s : State) (dst kind : Nat) (loss : Bool) (epoch apply : W32) (reason : Nat) : Frame :=
  s.mkFrame 5 0 dst 0 s.now32 (pad4 (placePayload kind loss s.module epoch apply (crc32c []) reason 0))

/-- READY or REFUSE to the sender of a PLACE frame: its epoch, and the leader as this module knows it (R151, R152). -/
def State.placeAnswer (s : State) (f : Frame) (kind reason : Nat) : Frame :=
  s.mkFrame 5 0 f.srcMod 0 s.now32 (pad4 (placePayload kind (placeLoss f) (s.leaderModule f.srcMod) (placeEpoch f) 0 (crc32c []) reason 0))

/-- The first module of a list that is another one. -/
def State.firstOther (s : State) (ms : List Nat) (m : Nat) : Prop := (ms.filter fun x => decide (x ≠ s.module)).head? = some m

/-- An outcome is a next state with a property. -/
def Answers (o : Host.Outcome State Fault Refusal) (p : State → Prop) : Prop := ∃ t, o = .next t ∧ p t

/-- The final answer to a request stands at t as R318, R322, R325, R326 and R331 give it: the last response of its mailbox or open connection, or an RSP for the module it came from; the request waits no more. -/
def Answered (s t : State) (r : Request) (st : Status) (detail : Nat) (payload : List Byte) : Prop :=
  (∀ x ∈ t.mb.queue, x.key ≠ r.key) ∧
    match r.src with
    | .forwarded o _ _ => (o.val, ⟨r.tag, r.cmd, r.seq, false, BitVec.ofNat 16 st.num, BitVec.ofNat 32 detail, payload, none⟩) ∈ t.mb.rsps
    | src => (∀ c, src = .tls c → ∃ y ∈ s.mb.tls, y.conn = c.val) → tfind t.mb.last (srcIx src) = some
        ⟨r.cmd, r.seq, BitVec.ofNat 16 st.num, 0, BitVec.ofNat 32 detail, t.now32, t.pl.epoch, payload, r.noirq, r.tag⟩

/-- An answer changes the mailboxes, their timers and what is sent; where the request came from another module the RSP also passes the ring unit, and may be counted and recorded there (R331). -/
def State.AnswerOf (s t : State) (r : Request) : Prop :=
  t = { s with mb := t.mb, timers := t.timers, out := t.out, ctr := t.ctr, rcd := t.rcd, ring := t.ring } ∧
    (ReqSrc.isForwarded r.src = false → t.ctr = s.ctr ∧ t.rcd = s.rcd ∧ t.ring = s.ring)

/-- A command that answers OK at once and has no effect but the answer. -/
def AnswersOnly (o : Host.Outcome State Fault Refusal) (s : State) (r : Request) (payload : List Byte) : Prop :=
  Answers o fun t => Answered s t r .ok 0 payload ∧ s.AnswerOf t r

/-- A command that is refused with a status and has no effect but the answer (R324). -/
def Refuses (o : Host.Outcome State Fault Refusal) (s : State) (r : Request) (st : Status) : Prop :=
  Answers o fun t => Answered s t r st 0 [] ∧ s.AnswerOf t r

/-- A command that goes on to the module or pair that executes it: the request has started, a REQ leaves for it, to be repeated after 10 ms and given up after 1 s (R330, R331). -/
def Forwards (o : Host.Outcome State Fault Refusal) (s : State) (r : Request) (dst : Nat) : Prop :=
  Answers o fun t =>
    let m : Msg := .req (s.reqMsg r none)
    t.mb = { (s.started r).mb with fwd := s.mb.fwd ++ [(r, dst)] } ∧
    tdue t.timers (.reqRetry r.tag.toNat r.seq.toNat) = some (s.clk + 10000000) ∧ tdue t.timers (.reqTimeout r.tag.toNat r.seq.toNat) = some (s.clk + 1000000000) ∧
    s.Routes t (s.msgFrame 2 (bitsAt dst 0 12) (bitsAt dst 14 2) m) (some m) ∧
    t = { s with mb := t.mb, timers := t.timers, out := t.out, ctr := t.ctr, rcd := t.rcd, ring := t.ring }

/-- A command that has passed its checks: executed where it acts (R330), also where its executor has sent it on to be followed; forwarded from any other module, and refused there where it came forwarded or where its executor is not known. -/
def ActsAt (o : Host.Outcome State Fault Refusal) (s : State) (r : Request) (a : Acts) (effect : Prop) : Prop :=
  (s.executor a = true ∨ s.follows a r = true → effect) ∧
  (s.executor a = false → s.follows a r = false →
    (ReqSrc.isForwarded r.src = true ∨ s.dstOf a = none → Refuses o s r .notNow) ∧
    (ReqSrc.isForwarded r.src = false → ∀ d, s.dstOf a = some d → Forwards o s r d))

/-- One command: the first check that fails refuses it, in the order of R324; passed, it acts. -/
def Runs (o : Host.Outcome State Fault Refusal) (s : State) (r : Request) (checks : List (Bool × Status)) (a : Acts) (effect : Prop) : Prop :=
  (∀ st, firstFail checks = some st → Refuses o s r st) ∧ (firstFail checks = none → ActsAt o s r a effect)

/-- The ACTIVE module sends a command it executes for the pair to its standby, with what it has decided behind the payload (R330). -/
def State.Mirrors (s t : State) (r : Request) (extra : List Byte) : Prop :=
  s.active = true → s.partnerStandby = true →
    let m : Msg := .req { s.reqMsg r none with payload := r.payload ++ extra }
    s.Routes t (s.msgFrame 2 (bitsAt s.partner 0 12) (bitsAt s.partner 14 2) m) (some m)

/-- The leader carries a command it executes for the domain to the other modules, with what it has decided behind the payload; said of the first of them (R330). -/
def State.Carries (s t : State) (r : Request) (extra : List Byte) : Prop :=
  s.executor .leader = true → ∀ x, s.firstOther (s.pl.dom.mods.map (·.1)) x →
    let m : Msg := .req { s.reqMsg r none with payload := r.payload ++ extra }
    s.Routes t (s.msgFrame 2 (bitsAt x 0 12) (bitsAt x 14 2) m) (some m)

/-- The epoch field of a request is 0 or the current epoch (R324 step 6). -/
def State.EpochFits (s : State) (r : Request) : Prop := field r.payload 0 4 = 0 ∨ field r.payload 0 4 = s.pl.epoch.toNat

/-- The leader has taken a command up as work that an epoch answers (R330, R336): the work joins the list, the request waits for its answer, and nothing else changes. -/
def WorkTaken (o : Host.Outcome State Fault Refusal) (s : State) (r : Request) (w : Work) : Prop :=
  ∃ t, o = .next t ∧ t.pl.todo = s.pl.todo ++ [(w, some r.key)] ∧ t.mb = (s.started r).mb ∧
    t = { s with pl := { s.pl with todo := t.pl.todo }, mb := t.mb }

/-! ### The invariant -/

/-- Memory is in its canonical form: addresses strictly rising, no listed byte equal to what an unlisted one reads as. -/
def State.Inv (s : State) : Prop := Mem.wf s.mem = true

end Sys2Proof.Machine

namespace Sys2Proof

/-- The lane of an instruction row, and whether its word is in the bit-logic encoding (R102, R117). -/
def Instr.laneWord : Instr → Option (Fin 256 × Bool)
  | .add l _ _ _
  | .sub l _ _ _
  | .and l _ _ _
  | .or l _ _ _
  | .xor l _ _ _
  | .andn l _ _ _
  | .shl l _ _ _
  | .shr l _ _ _
  | .sar l _ _ _
  | .lts l _ _ _
  | .ltu l _ _ _
  | .addk l _ _ _
  | .andk l _ _ _
  | .ork l _ _ _
  | .xork l _ _ _
  | .shlk l _ _ _
  | .shrk l _ _ _
  | .sark l _ _ _
  | .ltsk l _ _ _
  | .ldhi l _ _
  | .mul l _ _ _
  | .mulhs l _ _ _
  | .divs l _ _ _
  | .divu l _ _ _
  | .rmds l _ _ _
  | .rmdu l _ _ _
  | .cmul l _ _ _
  | .cdiv l _ _ _
  | .cchk l _ _ _
  | .fadd64 l _ _ _
  | .fsub64 l _ _ _
  | .fmul64 l _ _ _
  | .fdiv64 l _ _ _
  | .fsqrt64 l _ _ _
  | .fceq64 l _ _ _
  | .fclt64 l _ _ _
  | .fcle64 l _ _ _
  | .itof64 l _ _ _
  | .ftoi64 l _ _ _
  | .f64to32 l _ _ _
  | .fadd32 l _ _ _
  | .fsub32 l _ _ _
  | .fmul32 l _ _ _
  | .fdiv32 l _ _ _
  | .fsqrt32 l _ _ _
  | .fceq32 l _ _ _
  | .fclt32 l _ _ _
  | .fcle32 l _ _ _
  | .itof32 l _ _ _
  | .ftoi32 l _ _ _
  | .f32to64 l _ _ _
  | .lds8 l _ _ _
  | .ldu8 l _ _ _
  | .lds16 l _ _ _
  | .ldu16 l _ _ _
  | .lds32 l _ _ _
  | .ldu32 l _ _ _
  | .ld64 l _ _ _
  | .st8 l _ _ _
  | .st16 l _ _ _
  | .st32 l _ _ _
  | .st64 l _ _ _
  | .imld l _ _
  | .imst l _ _
  | .imldx l _ _ _
  | .imstx l _ _ _
  | .breq l _ _ _
  | .brne l _ _ _
  | .brlts l _ _ _
  | .brges l _ _ _
  | .brltu l _ _ _
  | .brgeu l _ _ _
  | .jrel l _ _
  | .jind l _ _ _
  | .waitev l _ _ _
  | .retev l _ _ _
  | .rdtime l _ _ _
  | .rdbnd l _ _ _
  | .rdctr l _ _ _
  | .yieldPass l _ _ _ => some (l, false)
  | .blNop l _
  | .blLd l _
  | .blLdn l _
  | .blAnd l _
  | .blAndn l _
  | .blOr l _
  | .blOrn l _
  | .blXor l _
  | .blXnor l _
  | .blSt l _
  | .blStn l _
  | .blSet l _
  | .blRst l _
  | .blEp l _
  | .blEn l _
  | .blPush l _
  | .blPopa l _
  | .blPopo l _
  | .blPop l _
  | .blPeek l _
  | .blNot l _
  | .blOne l _
  | .blZero l _
  | .blJc l _
  | .blJcn l _
  | .blJmp l _
  | .blEnd l _ => some (l, true)
  | _ => none

/-- The command rows (R335): the code, and the mailbox, connection or module whose request the row runs. -/
def Instr.command : Instr → Option (Nat × ReqSrc)
  | .openSession q => some (0x0101, q)
  | .closeSession q => some (0x0102, q)
  | .moduleInfo q => some (0x0103, q)
  | .moduleReset q => some (0x0104, q)
  | .configSet q => some (0x0105, q)
  | .configGet q => some (0x0106, q)
  | .hostkeySet q _ _ => some (0x0107, q)
  | .certInstall q _ => some (0x0108, q)
  | .partitionCreate q _ => some (0x0201, q)
  | .partitionRemove q _ => some (0x0202, q)
  | .partitionStart q _ => some (0x0203, q)
  | .partitionStop q _ => some (0x0204, q)
  | .partitionSafe q _ => some (0x0205, q)
  | .partitionSetProfile q => some (0x0206, q)
  | .partitionSetPolicy q _ _ _ _ => some (0x0207, q)
  | .guardSet q _ => some (0x0208, q)
  | .guardCommit q => some (0x0209, q)
  | .guardQuery q => some (0x020A, q)
  | .partitionStatus q _ => some (0x020B, q)
  | .partitionSetReservation q _ _ => some (0x020C, q)
  | .programLoad q _ => some (0x0301, q)
  | .programActivate q => some (0x0302, q)
  | .programConfirm q => some (0x0303, q)
  | .programRevert q => some (0x0304, q)
  | .programStatus q _ => some (0x0305, q)
  | .programDiscard q => some (0x0306, q)
  | .programData q => some (0x0307, q)
  | .classSet q _ _ _ => some (0x0401, q)
  | .classGet q => some (0x0402, q)
  | .placeQuery q => some (0x0403, q)
  | .placeRebalance q _ => some (0x0404, q)
  | .pairStatus q => some (0x0501, q)
  | .pairSwitch q => some (0x0502, q)
  | .pairRevertInhibit q => some (0x0503, q)
  | .pairSetHold q => some (0x0504, q)
  | .pairService q => some (0x0505, q)
  | .timeStatus q => some (0x0601, q)
  | .timeAcceptStep q => some (0x0602, q)
  | .timeSet q _ => some (0x0603, q)
  | .forceSet q => some (0x0701, q)
  | .forceClear q => some (0x0702, q)
  | .forceList q => some (0x0703, q)
  | .varRead q _ => some (0x0704, q)
  | .forceClearAll q => some (0x0705, q)
  | .recRead q => some (0x0801, q)
  | .recClear q => some (0x0802, q)
  | .recSetMode q => some (0x0803, q)
  | .ctrSet q => some (0x0804, q)
  | .ctrAclSet q => some (0x0805, q)
  | .ctrRead q _ => some (0x0806, q)
  | .updateBegin q => some (0x0901, q)
  | .updateData q _ => some (0x0902, q)
  | .updateVerify q => some (0x0903, q)
  | .updateActivate q => some (0x0904, q)
  | .commitUpdate q => some (0x0905, q)
  | .updateRollback q => some (0x0906, q)
  | .updateStatus q => some (0x0907, q)
  | .enterRecovery q => some (0x0908, q)
  | .safetyLogin q _ => some (0x0A01, q)
  | .safetyParamSet q _ => some (0x0A02, q)
  | .safetyConfirm q => some (0x0A03, q)
  | .safetyStatus q => some (0x0A04, q)
  | .safetyLogRead q => some (0x0A05, q)
  | .safetyPasswordSet q _ => some (0x0A06, q)
  | .canConfig q _ _ => some (0x0B01, q)
  | .canAbort q => some (0x0B02, q)
  | .canDetectRate q => some (0x0B03, q)
  | .canStatus q => some (0x0B04, q)
  | .stationConfig q _ => some (0x0B05, q)
  | .stationPubSet q _ => some (0x0B06, q)
  | .stationStatus q => some (0x0B07, q)
  | _ => none

/-! ### What a command may change -/

/-- Commands that may write memory: stores of a lane or a service core to DM, collection, adoption, mirroring and boundaries to the image, transfers of a program, an update or a plan (an RSP may bring the plan of a missed epoch), boot and resets. -/
def Instr.writesMemory : Instr → Bool
  | .classBoundary _ | .bundleCollected | .st8 _ _ _ _ | .st16 _ _ _ _ | .st32 _ _ _ _ | .st64 _ _ _ _ | .epochIssue | .prepare _ _ _ _ | .bypassClose
  | .bundle _ _ _ | .mirror _ | .join _ | .rsp _ _ _ | .privilegedAccess _ _ _ _ | .programData _ | .updateData _ _ | .updateVerify _ | .vinApplied _ | .powerLoss _
  | .rstNLow | .presentNLow | .powerLossSequenceDone | .watchdogExpiry _ | .bootTimeout | .clockMonitorFault | .bootComplete _ => true
  | _ => false

/-- Commands that may set, clear or apply a force: the force rows, a boundary, an epoch, a JOIN, and resets. -/
def Instr.setsForces : Instr → Bool
  | .classBoundary _ | .epochApply | .bypassClose | .force _ | .join _ | .privilegedAccess _ _ _ _ | .forceSet _ | .forceClear _ | .forceClearAll _
  | .vinApplied _ | .powerLoss _ | .rstNLow | .presentNLow | .powerLossSequenceDone | .watchdogExpiry _ | .bootTimeout | .clockMonitorFault => true
  | _ => false

/-- Commands that may change the time unit: boundaries (class time grid), its own rows and registers, station settings, and resets. -/
def Instr.setsTime : Instr → Bool
  | .classBoundary _ | .registerWrite _ _ | .bypassClose | .privilegedAccess _ _ _ _ | .timeAcceptStep _ | .timeSet _ _ | .stationConfig _ _
  | .timeShadowApply | .timeAnchor | .ptpSync _ _ | .ptpAnnounce _ _ _ | .ptpPdelayResp _ _ _ | .ptpPortSwitch | .ppsInEdge | .ppsOutPulse | .sync _ _
  | .syncSend | .announce _ _ | .announceSend | .pdelayResp _ _ | .pdelayReqSend _ | .masterSyncTimeout | .holdoverEntry | .holdoverExpiry
  | .vinApplied _ | .powerLoss _ | .rstNLow | .presentNLow | .powerLossSequenceDone | .watchdogExpiry _ | .bootTimeout | .clockMonitorFault
  | .ptpPdelayReqSend _ => true
  | _ => false

/-- Commands that may change a class: its boundary and freeze, an epoch, a JOIN, and resets. -/
def Instr.setsClasses : Instr → Bool
  | .classBoundary _ | .freezeCopyDone _ | .epochApply | .bypassClose | .join _ | .privilegedAccess _ _ _ _ | .vinApplied _ | .powerLoss _ | .rstNLow
  | .presentNLow | .powerLossSequenceDone | .watchdogExpiry _ | .bootTimeout | .clockMonitorFault => true
  | _ => false

/-- Commands that may change the configuration store: settings, updates, epochs, a JOIN, and what starts or resets the module. -/
def Instr.setsConfig : Instr → Bool
  | .epochApply | .bypassClose | .join _ | .trialTimeLimit | .trialTimeSave | .fallbackRetry | .privilegedAccess _ _ _ _ | .configSet _
  | .hostkeySet _ _ _ | .certInstall _ _ | .pairRevertInhibit _ | .pairSetHold _ | .updateBegin _ | .updateData _ _ | .updateVerify _
  | .updateActivate _ | .commitUpdate _ | .updateRollback _ | .enterRecovery _ | .stationConfig _ _ | .stationLinkUp _ _ _ | .vinApplied _
  | .powerLoss _ | .startDelayExpiry | .rstNLow | .presentNLow | .powerLossSequenceDone | .watchdogExpiry _ | .bootTimeout | .clockMonitorFault
  | .bootComplete _ => true
  | _ => false

end Sys2Proof
end

