-- ==== Sys2Proof/Certificates/Slice0/Obligations.lean ====
section
/-! DEFINITION. The statements for the provers, one `Obligations.<Name>` each; OBLIGATIONS.json gives their titles and the rules they rest on. -/
open Sys2Proof Sys2Proof.Machine

/-! ### Steps -/

/-- A step with command c at the front of the queue is exec of c on the state with the queue's rest. -/
def Obligations.StepRunsFrontCommand : Prop := ∀ (c : Instr) (rest : List Instr) (s : State), s.pending = c :: rest → step s = exec c { s with pending := rest }

/-- On an empty queue one CLK_LANE clock passes (log 1, the model's choice): the clock advances, T_CNT counts while the module has power, the queue stays empty, no partition, mailbox or pair state changes, and the application store changes only while a move into its committed half is open: an entry is written beside the old one, and once it reads back the old one goes (R258, log 41). -/
def Obligations.IdleStepCountsOneClock : Prop :=
  ∀ (s : State), s.pending = [] →
    ∃ t, step s = .next t ∧ t.pending = [] ∧ t.clk = s.clk + 1 ∧
      t.time.cnt = (if s.powered then s.time.cnt + 1 else s.time.cnt) ∧
      t.mem = s.mem ∧ t.parts = s.parts ∧ t.mb = s.mb ∧ t.pair = s.pair ∧ t.pins = s.pins ∧
      t.nv = { s.nv with app := t.nv.app, moves := t.nv.moves } ∧ (s.nv.moves = [] ∨ s.mod.st ∈ [.off, .bypass, .boot, .recovery] → t.nv = s.nv) ∧
      (s.mod.st ∉ [.off, .bypass, .boot, .recovery] → ∀ m rest e es, s.nv.moves = m :: rest → m.left = e :: es →
        (m.written = false → t.nv = { s.nv with app := s.nv.app ++ [e], moves := { m with written := true } :: rest }) ∧
        (m.written = true → s.nv.app.getLast? = some e → t.nv =
          { s.nv with app := (s.nv.app.filter fun g => decide (g.task.task ≠ e.task.task)) ++ [e], moves := { m with left := es, written := false } :: rest }))

/-- Every command answers a next state, leaves the commands that wait as they are, and lets no time of the model's clock pass (log 1). -/
def Obligations.CommandsKeepQueueAndClock : Prop := ∀ (c : Instr) (s : State), ∃ t, exec c s = .next t ∧ t.pending = s.pending ∧ t.clk = s.clk

/-- R91, R97, R131, R303, R314, R349, R366, R435, R453: what reset leaves where the spec gives the value: the module in BYPASS with its bypasses closed and its outputs open, every lane held, gated and with its registers at their reset values, the time unit at 0 and UNSYNC, the Access Guard's table empty, the counters 0 and disabled, H_IRQ_STAT.BOOT set, no command waiting. -/
def Obligations.ResetValues : Prop :=
  let s := State.reset
  s.pending = [] ∧ s.mod.st = .bypass ∧ s.pins.bypEW = true ∧ s.pins.bypNS = true ∧ s.pins.hrdy = false ∧ s.pins.hirq = false ∧
  s.trip.value = 0 ∧ s.trip.drive = 0 ∧ s.trip.running = false ∧
  (∀ l : Fin 256, let x := s.lane l
    x.en = false ∧ x.gated = true ∧ x.run = false ∧ x.retire = false ∧ x.runKind = false ∧ x.runPass = false ∧ x.task = 0 ∧
    x.xwin = 0x01EF0000 ∧ x.dwin = 0x01EF0000 ∧ x.fpctl = 0 ∧ x.fpstat = 0 ∧ x.fltValid = false ∧ x.evpend = 0 ∧ x.evmask = 0 ∧
    x.evclass = 0x200 ∧ x.tarm = false ∧ x.gate = false ∧ x.evvecN = 0x1F000 ∧ x.evvecF = 0x1F080 ∧ x.clk = 0 ∧ x.curBundle = []) ∧
  (∀ u : Fin 17, (s.cmpOf u).en = decide (u.val ≠ 16) ∧ (s.cmpOf u).faulted = false ∧ (s.cmpOf u).queue = []) ∧
  s.time.cnt = 0 ∧ s.time.state = 2 ∧ s.time.applyArm = false ∧ s.guard.active = [] ∧ s.guard.fltValid = false ∧
  s.host.stBoot = true ∧ s.host.doze = false ∧ s.host.irqEn = false ∧ s.ctr.en = 0 ∧ s.ctr.halt = false ∧
  (∀ i : Fin 64, (tget Counter.reset s.ctr.cnt i).val = 0)

/-- The reset state has the memory invariant. -/
def Obligations.ResetHasInv : Prop := State.reset.Inv

/-- From every state whose memory is in canonical form a step, with any command at the front of the queue or with none, gives a state whose memory is in canonical form. -/
def Obligations.StepKeepsInv : Prop := ∀ (s t : State), s.Inv → step s = .next t → t.Inv

/-- R19, R23, R27, R28, R41, R225, R232, R265, R453: only these commands change memory: stores of lanes and service cores, collection, adoption, mirrors and boundaries, transfers of programs, plans and firmware, BOOT and resets. Every other command leaves every byte of Image Memory, lane memories, DRAM and MRAM as it was. -/
def Obligations.OnlyTheseCommandsWriteMemory : Prop := ∀ (c : Instr) (s t : State), c.writesMemory = false → exec c s = .next t → t.mem = s.mem

/-- R39, R54 to R57, R265, R270, R349: forces, classes, the configuration store and the time unit change only by the commands that their rules name (and by resets); every other command leaves all of each as it was. -/
def Obligations.OnlyTheseCommandsSet : Prop :=
  ∀ (c : Instr) (s t : State), exec c s = .next t →
    (c.setsForces = false → t.forces = s.forces) ∧ (c.setsClasses = false → t.cls = s.cls) ∧
    (c.setsConfig = false → t.nv = s.nv) ∧ (c.setsTime = false → t.time = s.time)

/-- R17, R28, R94, R108: an instruction of a lane changes no other lane, no byte of memory outside the DM of its own lane (no word of the image and no other lane's memory), and no force, class, CAN channel, station port, received set, collection or configuration. -/
def Obligations.LaneIsolation : Prop :=
  ∀ (i : Instr) (l : Fin 256) (bit : Bool) (s t : State), i.laneWord = some (l, bit) → exec i s = .next t →
    (∀ k : Nat, k ≠ l.val → t.lane k = s.lane k) ∧
    (∀ a, a < laneBase l + 0x40000 ∨ laneBase l + 0x60000 ≤ a → Mem.rd t.mem a = Mem.rd s.mem a) ∧
    t.forces = s.forces ∧ t.cls = s.cls ∧ t.can = s.can ∧ t.stn = s.stn ∧ t.setRx = s.setRx ∧ t.coll = s.coll ∧ t.inNext = s.inNext ∧ t.nv = s.nv ∧ t.time = s.time

/-- R349: corrected time is T_CNT + T_OFFSET + (((T_CNT − T_ANCHOR) × T_RATE) >> 40) modulo 2^64, with a signed difference, an exact product and a shift that rounds toward −∞. T_CNT is 0 after reset, no command writes it but a reset, and a clock counts it (one idle step is one clock: log 1). -/
def Obligations.CounterAndCorrectedTime : Prop :=
  State.reset.time.cnt = 0 ∧
  (∀ s : State, ∃ k : Int, 2 ^ 40 * k ≤ (s.time.cnt - s.time.anchor).toInt * s.time.rate.toInt ∧
    (s.time.cnt - s.time.anchor).toInt * s.time.rate.toInt < 2 ^ 40 * (k + 1) ∧
    s.now = BitVec.ofInt 64 (s.time.cnt.toNat + s.time.offset.toNat + k)) ∧
  (∀ (c : Instr) (s t : State), exec c s = .next t → t.time.cnt = s.time.cnt ∨ (t.time.cnt = 0 ∧ c.setsTime = true)) ∧
  (∀ s : State, s.pending = [] → s.powered = true → ∃ t, step s = .next t ∧ t.time.cnt = s.time.cnt + 1)

/-! ### Native instructions of a lane -/

/-- R104, R105: the integer operations of two registers. R91, R104: the integer operations with an immediate; a write to w0 is discarded and w0 reads 0; a constant shift with a nonzero bit in imm16[15:6] raises ILLEGAL. -/
def Obligations.IntegerResults : Prop :=
  (∀ (l : Fin 256) (rd ra rb : BitVec 5) (s : State), s.NativeReady l →
     let a := (s.lane l).reg ra
     let b := (s.lane l).reg rb
     let n := (b &&& 63#64).toNat
     exec (.add l rd ra rb) s = .next (s.wrote l rd (a + b)) ∧
     exec (.sub l rd ra rb) s = .next (s.wrote l rd (a - b)) ∧
     exec (.and l rd ra rb) s = .next (s.wrote l rd (a &&& b)) ∧
     exec (.or l rd ra rb) s = .next (s.wrote l rd (a ||| b)) ∧
     exec (.xor l rd ra rb) s = .next (s.wrote l rd (a ^^^ b)) ∧
     exec (.andn l rd ra rb) s = .next (s.wrote l rd (a &&& ~~~b)) ∧
     exec (.shl l rd ra rb) s = .next (s.wrote l rd (a <<< n)) ∧
     exec (.shr l rd ra rb) s = .next (s.wrote l rd (a >>> n)) ∧
     exec (.sar l rd ra rb) s = .next (s.wrote l rd (a.sshiftRight n)) ∧
     exec (.lts l rd ra rb) s = .next (s.wrote l rd (if a.toInt < b.toInt then 1 else 0)) ∧
     exec (.ltu l rd ra rb) s = .next (s.wrote l rd (if a.toNat < b.toNat then 1 else 0))) ∧
  (∀ (l : Fin 256) (rd ra : BitVec 5) (imm : W16) (imm21 : BitVec 21) (s : State), s.NativeReady l →
     let a := (s.lane l).reg ra
     exec (.addk l rd ra imm) s = .next (s.wrote l rd (a + imm.signExtend 64)) ∧
     exec (.andk l rd ra imm) s = .next (s.wrote l rd (a &&& imm.setWidth 64)) ∧
     exec (.ork l rd ra imm) s = .next (s.wrote l rd (a ||| imm.setWidth 64)) ∧
     exec (.xork l rd ra imm) s = .next (s.wrote l rd (a ^^^ imm.setWidth 64)) ∧
     exec (.ltsk l rd ra imm) s = .next (s.wrote l rd (if a.toInt < imm.toInt then 1 else 0)) ∧
     exec (.ldhi l rd imm21) s = .next (s.wrote l rd (imm21.signExtend 64 <<< 16)) ∧
     (imm.toNat < 64 →
       exec (.shlk l rd ra imm) s = .next (s.wrote l rd (a <<< imm.toNat)) ∧
       exec (.shrk l rd ra imm) s = .next (s.wrote l rd (a >>> imm.toNat)) ∧
       exec (.sark l rd ra imm) s = .next (s.wrote l rd (a.sshiftRight imm.toNat))) ∧
     (64 ≤ imm.toNat →
       exec (.shlk l rd ra imm) s = .next (s.laneFaultOpen l 0x01) ∧
       exec (.shrk l rd ra imm) s = .next (s.laneFaultOpen l 0x01) ∧
       exec (.sark l rd ra imm) s = .next (s.laneFaultOpen l 0x01)) ∧
     (∀ v : W64, s.wrote l 0 v = s.ranOn l [] id ∧ (s.lane l).reg 0 = 0))

/-- R104, R105: multiplication and division; a divisor of 0 raises DIV_ZERO. R105: DIVS of −2^63 by −1 gives −2^63 and RMDS gives 0. -/
def Obligations.MultiplyDivideResults : Prop :=
  (∀ (l : Fin 256) (rd ra rb : BitVec 5) (s : State), s.NativeReady l → (s.lane l).alu = false →
     let a := (s.lane l).reg ra
     let b := (s.lane l).reg rb
     exec (.mul l rd ra rb) s = .next (s.wrote l rd (a * b)) ∧
     exec (.mulhs l rd ra rb) s = .next (s.wrote l rd (BitVec.ofInt 64 (a.toInt * b.toInt / 2 ^ 64))) ∧
     (b ≠ 0 →
       exec (.divs l rd ra rb) s = .next (s.wrote l rd (BitVec.ofInt 64 (a.toInt.tdiv b.toInt))) ∧
       exec (.divu l rd ra rb) s = .next (s.wrote l rd (a / b)) ∧
       exec (.rmds l rd ra rb) s = .next (s.wrote l rd (BitVec.ofInt 64 (a.toInt.tmod b.toInt))) ∧
       exec (.rmdu l rd ra rb) s = .next (s.wrote l rd (a % b))) ∧
     (b = 0 →
       exec (.divs l rd ra rb) s = .next (s.laneFaultOpen l 0x06) ∧
       exec (.divu l rd ra rb) s = .next (s.laneFaultOpen l 0x06) ∧
       exec (.rmds l rd ra rb) s = .next (s.laneFaultOpen l 0x06) ∧
       exec (.rmdu l rd ra rb) s = .next (s.laneFaultOpen l 0x06))) ∧
  (∀ (l : Fin 256) (rd ra rb : BitVec 5) (s : State), s.NativeReady l → (s.lane l).alu = false →
     (s.lane l).reg ra = 0x8000000000000000 → (s.lane l).reg rb = 0xFFFFFFFFFFFFFFFF →
     exec (.divs l rd ra rb) s = .next (s.wrote l rd 0x8000000000000000) ∧
     exec (.rmds l rd ra rb) s = .next (s.wrote l rd 0))

/-- R71: coded multiply, divide and check: results, code traps and coded-range traps (with A = 65521). -/
def Obligations.CodedInstructionResults : Prop :=
  ∀ (l : Fin 256) (rd ra rb : BitVec 5) (s : State), s.NativeReady l → (s.lane l).alu = false →
    let a := ((s.lane l).reg ra).toInt
    let b := ((s.lane l).reg rb).toInt
    let wrote := fun v : Int => s.ranOn l [8] fun x => x.setReg rd (BitVec.ofInt 64 v)
    let codes := a % 65521 = 0 ∧ b % 65521 = 0
    (¬codes → exec (.cmul l rd ra rb) s = .next (s.laneFaultOpen l 0x09)) ∧
    (codes → 2 ^ 47 * 65521 ^ 2 ≤ (a * b).natAbs → exec (.cmul l rd ra rb) s = .next (s.laneFaultOpen l 0x0A)) ∧
    (codes → (a * b).natAbs < 2 ^ 47 * 65521 ^ 2 → exec (.cmul l rd ra rb) s = .next (wrote (a * b / 65521))) ∧
    (¬codes ∨ b = 0 → exec (.cdiv l rd ra rb) s = .next (s.laneFaultOpen l 0x09)) ∧
    (codes → b ≠ 0 → exec (.cdiv l rd ra rb) s = .next (wrote (a.tdiv b * 65521))) ∧
    (a % 65521 ≠ 0 → exec (.cchk l rd ra 0) s = .next (s.laneFaultOpen l 0x09)) ∧
    (a % 65521 = 0 → 2 ^ 47 ≤ (a / 65521).natAbs → exec (.cchk l rd ra 0) s = .next (s.laneFaultOpen l 0x0A)) ∧
    (a % 65521 = 0 → (a / 65521).natAbs < 2 ^ 47 → exec (.cchk l rd ra 0) s = .next (wrote (a / 65521))) ∧
    (rb ≠ 0 → exec (.cchk l rd ra rb) s = .next (s.laneFaultOpen l 0x01))

/-- R104, R106: the floating-point instructions of two operands retire with the result of the operation on the operands as the format reads them and its sticky flags; binary32 reads bits [31:0]. R104, R106: the floating-point instructions of one operand; a nonzero rb field raises ILLEGAL (R103). -/
def Obligations.FloatResults : Prop :=
  (∀ (l : Fin 256) (rd ra rb : BitVec 5) (s : State), s.NativeReady l → (s.lane l).alu = false →
     let v := (s.lane l).fpEnv
     let a := ((s.lane l).reg ra).toNat
     let b := ((s.lane l).reg rb).toNat
     let a32 := ((s.lane l).reg ra).toNat % 2 ^ 32
     let b32 := ((s.lane l).reg rb).toNat % 2 ^ 32
     let wrote := fun r : Nat × Fp.Flags => s.ranOn l [7] fun x => (x.setFp r.2).setReg rd (BitVec.ofNat 64 r.1)
     exec (.fadd64 l rd ra rb) s = .next (wrote (Fp.fadd Fp.b64 v a b)) ∧
     exec (.fsub64 l rd ra rb) s = .next (wrote (Fp.fsub Fp.b64 v a b)) ∧
     exec (.fmul64 l rd ra rb) s = .next (wrote (Fp.fmul Fp.b64 v a b)) ∧
     exec (.fdiv64 l rd ra rb) s = .next (wrote (Fp.fdiv Fp.b64 v a b)) ∧
     exec (.fceq64 l rd ra rb) s = .next (wrote (Fp.fcmp Fp.b64 v Fp.isEq a b)) ∧
     exec (.fclt64 l rd ra rb) s = .next (wrote (Fp.fcmp Fp.b64 v Fp.isLt a b)) ∧
     exec (.fcle64 l rd ra rb) s = .next (wrote (Fp.fcmp Fp.b64 v Fp.isLe a b)) ∧
     exec (.fadd32 l rd ra rb) s = .next (wrote (Fp.fadd Fp.b32 v a32 b32)) ∧
     exec (.fsub32 l rd ra rb) s = .next (wrote (Fp.fsub Fp.b32 v a32 b32)) ∧
     exec (.fmul32 l rd ra rb) s = .next (wrote (Fp.fmul Fp.b32 v a32 b32)) ∧
     exec (.fdiv32 l rd ra rb) s = .next (wrote (Fp.fdiv Fp.b32 v a32 b32)) ∧
     exec (.fceq32 l rd ra rb) s = .next (wrote (Fp.fcmp Fp.b32 v Fp.isEq a32 b32)) ∧
     exec (.fclt32 l rd ra rb) s = .next (wrote (Fp.fcmp Fp.b32 v Fp.isLt a32 b32)) ∧
     exec (.fcle32 l rd ra rb) s = .next (wrote (Fp.fcmp Fp.b32 v Fp.isLe a32 b32))) ∧
  (∀ (l : Fin 256) (rd ra : BitVec 5) (s : State), s.NativeReady l → (s.lane l).alu = false →
     let v := (s.lane l).fpEnv
     let a := (s.lane l).reg ra
     let wrote := fun (r : W64) (f : Fp.Flags) => s.ranOn l [7] fun x => (x.setFp f).setReg rd r
     let num := fun r : Nat × Fp.Flags => wrote (BitVec.ofNat 64 r.1) r.2
     let int := fun r : Int × Fp.Flags => wrote (BitVec.ofInt 64 r.1) r.2
     exec (.fsqrt64 l rd ra 0) s = .next (num (Fp.fsqrt Fp.b64 v a.toNat)) ∧
     exec (.itof64 l rd ra 0) s = .next (num (Fp.itof Fp.b64 v a.toInt)) ∧
     exec (.ftoi64 l rd ra 0) s = .next (int (Fp.ftoi Fp.b64 v a.toNat)) ∧
     exec (.f64to32 l rd ra 0) s = .next (num (Fp.convert Fp.b64 Fp.b32 v a.toNat)) ∧
     exec (.fsqrt32 l rd ra 0) s = .next (num (Fp.fsqrt Fp.b32 v (a.toNat % 2 ^ 32))) ∧
     exec (.itof32 l rd ra 0) s = .next (num (Fp.itof Fp.b32 v a.toInt)) ∧
     exec (.ftoi32 l rd ra 0) s = .next (int (Fp.ftoi Fp.b32 v (a.toNat % 2 ^ 32))) ∧
     exec (.f32to64 l rd ra 0) s = .next (num (Fp.convert Fp.b32 Fp.b64 v (a.toNat % 2 ^ 32))) ∧
     ∀ rb : BitVec 5, rb ≠ 0 →
       exec (.fsqrt64 l rd ra rb) s = .next (s.laneFaultOpen l 0x01) ∧ exec (.itof64 l rd ra rb) s = .next (s.laneFaultOpen l 0x01) ∧
       exec (.ftoi64 l rd ra rb) s = .next (s.laneFaultOpen l 0x01) ∧ exec (.f64to32 l rd ra rb) s = .next (s.laneFaultOpen l 0x01) ∧
       exec (.fsqrt32 l rd ra rb) s = .next (s.laneFaultOpen l 0x01) ∧ exec (.itof32 l rd ra rb) s = .next (s.laneFaultOpen l 0x01) ∧
       exec (.ftoi32 l rd ra rb) s = .next (s.laneFaultOpen l 0x01) ∧ exec (.f32to64 l rd ra rb) s = .next (s.laneFaultOpen l 0x01))

/-- R106: with a NaN operand, arithmetic gives the canonical NaN and sets NV only if a NaN operand signals; a comparison gives 0 and sets NV; a conversion to an integer gives 0 and sets NV. No payload is propagated. -/
def Obligations.FloatNanResults : Prop :=
  ∀ (l : Fin 256) (rd ra rb : BitVec 5) (s : State), s.NativeReady l → (s.lane l).alu = false →
    let a := (s.lane l).reg ra
    let b := (s.lane l).reg rb
    let isNan := fun x : W64 => x.extractLsb' 52 11 = 0x7FF ∧ x.extractLsb' 0 52 ≠ 0
    let signals := fun x : W64 => isNan x ∧ x.getLsbD 51 = false
    let wrote := fun (r : W64) (f : Fp.Flags) => s.ranOn l [7] fun x => (x.setFp f).setReg rd r
    let nv := fun p : Bool => { Fp.noFlags with nv := p }
    (isNan a ∨ isNan b → ∀ sig : Bool, (sig = true ↔ signals a ∨ signals b) →
      exec (.fadd64 l rd ra rb) s = .next (wrote 0x7FF8000000000000 (nv sig)) ∧
      exec (.fsub64 l rd ra rb) s = .next (wrote 0x7FF8000000000000 (nv sig)) ∧
      exec (.fmul64 l rd ra rb) s = .next (wrote 0x7FF8000000000000 (nv sig)) ∧
      exec (.fdiv64 l rd ra rb) s = .next (wrote 0x7FF8000000000000 (nv sig)) ∧
      exec (.fceq64 l rd ra rb) s = .next (wrote 0 (nv true)) ∧
      exec (.fclt64 l rd ra rb) s = .next (wrote 0 (nv true)) ∧
      exec (.fcle64 l rd ra rb) s = .next (wrote 0 (nv true))) ∧
    (isNan a → ∀ sig : Bool, (sig = true ↔ signals a) →
      exec (.fsqrt64 l rd ra 0) s = .next (wrote 0x7FF8000000000000 (nv sig)) ∧
      exec (.f64to32 l rd ra 0) s = .next (wrote 0x7FC00000 (nv sig)) ∧
      exec (.ftoi64 l rd ra 0) s = .next (wrote 0 (nv true)))

/-- R94, R97, R104: loads from DM, sign- or zero-extended; counter event 0x06 (R436). R94, R97, R104: stores write the low bytes of the source register at the effective address and no other byte; counter event 0x06 (R436). -/
def Obligations.LoadsAndStoresOfDm : Prop :=
  (∀ (l : Fin 256) (rd ra : BitVec 5) (imm : W16) (s : State), s.NativeReady l →
     let ea := ((s.lane l).reg ra + imm.signExtend 64).toNat
     let m := fun n => s.rdMem (dmAddr l ea) n
     let wrote := fun v : W64 => s.ranOn l [6] fun x => x.setReg rd v
     (s.DmReady l ea 1 →
       exec (.lds8 l rd ra imm) s = .next (wrote ((BitVec.ofNat 8 (m 1)).signExtend 64)) ∧
       exec (.ldu8 l rd ra imm) s = .next (wrote (BitVec.ofNat 64 (m 1)))) ∧
     (s.DmReady l ea 2 →
       exec (.lds16 l rd ra imm) s = .next (wrote ((BitVec.ofNat 16 (m 2)).signExtend 64)) ∧
       exec (.ldu16 l rd ra imm) s = .next (wrote (BitVec.ofNat 64 (m 2)))) ∧
     (s.DmReady l ea 4 →
       exec (.lds32 l rd ra imm) s = .next (wrote ((BitVec.ofNat 32 (m 4)).signExtend 64)) ∧
       exec (.ldu32 l rd ra imm) s = .next (wrote (BitVec.ofNat 64 (m 4)))) ∧
     (s.DmReady l ea 8 → exec (.ld64 l rd ra imm) s = .next (wrote (BitVec.ofNat 64 (m 8))))) ∧
  (∀ (l : Fin 256) (rs ra : BitVec 5) (imm : W16) (s : State), s.NativeReady l →
     let ea := ((s.lane l).reg ra + imm.signExtend 64).toNat
     let v := (s.lane l).reg rs
     (s.DmReady l ea 1 → exec (.st8 l rs ra imm) s = .next (s.stored l ea 1 v)) ∧
     (s.DmReady l ea 2 → exec (.st16 l rs ra imm) s = .next (s.stored l ea 2 v)) ∧
     (s.DmReady l ea 4 → exec (.st32 l rs ra imm) s = .next (s.stored l ea 4 v)) ∧
     (s.DmReady l ea 8 → exec (.st64 l rs ra imm) s = .next (s.stored l ea 8 v)) ∧
     ∀ n a, Mem.rd (s.stored l ea n v).mem a =
       if dmAddr l ea ≤ a ∧ a < dmAddr l ea + n then BitVec.ofNat 8 (v.toNat / 256 ^ (a - dmAddr l ea)) else Mem.rd s.mem a)

/-- R47, R107, R108: image loads return the word of the class view (in the coded pass its E), a same-class input the word that its producer has delivered in this cycle, image stores change only the lane's bundle; memory stays as it is. A same-class input that is neither delivered nor past its deadline holds the instruction. -/
def Obligations.ImageAccessResults : Prop :=
  ∀ (l : Fin 256) (rd ra : BitVec 5) (imm : W16) (lii : BitVec 21) (e : LiiEntry) (s : State), s.NativeReady l →
    let ea := ((s.lane l).reg ra + imm.signExtend 64).toNat
    let loads := fun (o : Host.Outcome State Fault Refusal) (i : Nat) => ∃ t, o = .next t ∧ LaneOnly s t l ∧
      t.lane l = { (s.lane l).setReg rd (if (s.lane l).pass && !(s.lane l).mode then encodeE e.tag (s.imageValue l i e)
                     else s.imageValue l i e) with pc := (s.lane l).pc + 4 }
    let stores := fun (o : Host.Outcome State Fault Refusal) (i : Nat) => ∃ t, o = .next t ∧ LaneOnly s t l ∧
      t.lane l = { (s.lane l).setBundle (bundlePut (s.lane l).curBundle { lii := i, tag := e.tag, val := (s.lane l).reg rd })
                     with pc := (s.lane l).pc + 4 }
    let coded := fun i => ((s.lane l).pass && !(s.lane l).mode) = true → tagInRange e.tag (s.imageValue l i e) = true
    (s.ImageReady l lii.toNat e → coded lii.toNat → loads (exec (.imld l rd lii) s) lii.toNat) ∧
    (s.ImageReady l ea e → coded ea → loads (exec (.imldx l rd ra imm) s) ea) ∧
    (s.ImageWritable l lii.toNat e → stores (exec (.imst l rd lii) s) lii.toNat) ∧
    (s.ImageWritable l ea e → stores (exec (.imstx l rd ra imm) s) ea) ∧
    (∀ v : InVar, lii.toNat < 0x100000 → s.liiEntry (s.taskClass l) lii.toNat = some e → s.sameClass (s.findTask (s.lane l).task) lii.toNat = some v →
      ((s.lane l).task, (s.lane l).bnd, lii.toNat) ∉ s.delays →
      ((v.producer, (s.lane l).bnd) ∈ s.inNext → s.guard.allows (s.laneAccess l .r (s.nextBank e.cls) lii.toNat) = true →
        s.eccOf (imgAddr (s.nextBank e.cls) lii.toNat) = none → ((s.lane l).pass && !(s.lane l).mode) = false →
        ∃ t, exec (.imld l rd lii) s = .next t ∧ LaneOnly s t l ∧ t.lane l =
          { (s.lane l).setReg rd (s.subst e.vid (s.lane l).bnd (s.rdImg (s.nextBank e.cls) lii.toNat)) with pc := (s.lane l).pc + 4 }) ∧
      ((v.producer, (s.lane l).bnd) ∉ s.inNext → s.guard.allows (s.laneAccess l .r (s.curBank e.cls) lii.toNat) = true →
        exec (.imld l rd lii) s = .next s))

/-- R99, R104: branches go to PC + 4 × sext(off16) when their condition holds and to PC + 4 otherwise. R99, R104: JREL and JIND write PC + 4 to rd and go to their target; a target whose bits [1:0] are not 0 raises FETCH and writes no link. -/
def Obligations.ControlTransfers : Prop :=
  (∀ (l : Fin 256) (ra rb : BitVec 5) (off : W16) (s : State), s.NativeReady l →
     let a := (s.lane l).reg ra
     let b := (s.lane l).reg rb
     let goes := fun p : Bool => if p then s.jumped l id ((s.lane l).pc + 4 * off.signExtend 64) else s.ranOn l [] id
     exec (.breq l ra rb off) s = .next (goes (decide (a = b))) ∧
     exec (.brne l ra rb off) s = .next (goes (decide (a ≠ b))) ∧
     exec (.brlts l ra rb off) s = .next (goes (decide (a.toInt < b.toInt))) ∧
     exec (.brges l ra rb off) s = .next (goes (decide (b.toInt ≤ a.toInt))) ∧
     exec (.brltu l ra rb off) s = .next (goes (decide (a.toNat < b.toNat))) ∧
     exec (.brgeu l ra rb off) s = .next (goes (decide (b.toNat ≤ a.toNat)))) ∧
  (∀ (l : Fin 256) (rd ra : BitVec 5) (imm : W16) (imm21 : BitVec 21) (s : State), s.NativeReady l →
     let pc := (s.lane l).pc
     let rel := pc + 4 * imm21.signExtend 64
     let ind := (s.lane l).reg ra + imm.signExtend 64
     let goes := fun t : W64 => s.jumped l (fun x => x.setReg rd (pc + 4)) t
     (rel.toNat % 4 = 0 → exec (.jrel l rd imm21) s = .next (goes rel)) ∧
     (rel.toNat % 4 ≠ 0 → exec (.jrel l rd imm21) s = .next (s.laneFault l 0x02 (rel.setWidth 32))) ∧
     (ind.toNat % 4 = 0 → exec (.jind l rd ra imm) s = .next (goes ind)) ∧
     (ind.toNat % 4 ≠ 0 → exec (.jind l rd ra imm) s = .next (s.laneFault l 0x02 (ind.setWidth 32))))

/-- R104, R109, R130: RDTIME, RDBND, RDCTR and WAITEV; a register field an instruction does not use must be 0 (R103). R128: RETEV leaves a handler: MODE, PASS, KIND and PC come from the return register of its class; outside a handler or in USR mode it raises ILLEGAL. -/
def Obligations.SystemInstructions : Prop :=
  (∀ (l : Fin 256) (rd ra rb : BitVec 5) (s : State), s.NativeReady l →
     let x := s.lane l
     let illegal := Host.Outcome.next (s.laneFaultOpen l 0x01)
     exec (.rdtime l rd 0 0) s = .next (s.wrote l rd ((lo32 s.now).setWidth 64)) ∧
     exec (.rdbnd l rd 0 0) s = .next (s.wrote l rd ((lo32 x.bnd).setWidth 64)) ∧
     exec (.rdctr l rd ra 0) s = .next (s.wrote l rd (s.ctr.rdctr (taskPart x.task) (x.reg ra))) ∧
     (x.mode = true → x.eclass = 0 → exec (.waitev l 0 0 0) s =
       .next { s.ranOn l [] (fun y => { y with wait := true, run := false }) with
         pwr := if x.gate then { s.pwr with gateQ := s.pwr.gateQ ++ [l.val] } else s.pwr }) ∧
     (x.mode = false ∨ x.eclass ≠ 0 → exec (.waitev l 0 0 0) s = illegal) ∧
     (ra ≠ 0 ∨ rb ≠ 0 → exec (.rdtime l rd ra rb) s = illegal ∧ exec (.rdbnd l rd ra rb) s = illegal) ∧
     (rb ≠ 0 → exec (.rdctr l rd ra rb) s = illegal) ∧
     (rd ≠ 0 ∨ ra ≠ 0 ∨ rb ≠ 0 → exec (.waitev l rd ra rb) s = illegal ∧ exec (.retev l rd ra rb) s = illegal) ∧
     (rd ≠ 0 ∨ rb ≠ 0 → exec (.yieldPass l rd ra rb) s = illegal)) ∧
  (∀ (l : Fin 256) (s : State), s.NativeReady l →
     let x := s.lane l
     (x.mode = true → x.eclass = 1 → ∃ t, exec (.retev l 0 0 0) s = .next t ∧ LaneOnly s t l ∧
       (t.lane l).eclass = 0 ∧ (t.lane l).mode = x.evretN.getLsbD 31 ∧ (t.lane l).pass = x.evretN.getLsbD 30 ∧
       (t.lane l).kind = x.evretN.getLsbD 29 ∧ (t.lane l).pc = (x.evretN &&& 0x1FFFC).setWidth 64 ∧
       (t.lane l).w = x.w ∧ (t.lane l).bun = x.bun) ∧
     (x.mode = true → x.eclass = 2 → ∃ t, exec (.retev l 0 0 0) s = .next t ∧ LaneOnly s t l ∧
       (t.lane l).eclass = (if x.inNormal then 1 else 0) ∧ (t.lane l).mode = x.evretF.getLsbD 31 ∧
       (t.lane l).pass = x.evretF.getLsbD 30 ∧ (t.lane l).kind = x.evretF.getLsbD 29 ∧
       (t.lane l).pc = (x.evretF &&& 0x1FFFC).setWidth 64 ∧ (t.lane l).bun = x.hold ∧ (t.lane l).hold = x.bun ∧
       (t.lane l).acc = x.alt.acc ∧ (t.lane l).stack = x.alt.stack ∧ (t.lane l).scratch = x.alt.scratch ∧
       (t.lane l).fpctl = x.alt.fpctl ∧ (t.lane l).fpstat = x.alt.fpstat) ∧
     (x.mode = false ∨ x.eclass = 0 → exec (.retev l 0 0 0) s = .next (s.laneFaultOpen l 0x01)))

/-- R93, R100, R104, R116, R119, R129: YIELD ends the pass in USR mode; in SUP mode it enters USR at w[ra] with w1 to w31, L_FPCTL and L_FPSTAT at 0 and the pass and kind of L_RUN; the coded pass of a task cycle that has ended does not start. BL_END ends a bit-logic pass as YIELD ends another. A misaligned w[ra] raises FETCH (the model's choice, log 74). -/
def Obligations.PassStartAndEnd : Prop :=
  ∀ (l : Fin 256) (ra : BitVec 5) (s : State),
    let x := s.lane l
    (s.NativeReady l → x.mode = false → ∃ t, exec (.yieldPass l 0 ra 0) s = .next t ∧ PassEnds s t l) ∧
    (s.BitReady l → ∃ t, exec (.blEnd l 0) s = .next t ∧ PassEnds s t l) ∧
    (s.NativeReady l → x.mode = true → (x.reg ra).toNat % 4 = 0 → s.passVoid l = false → ∃ t, exec (.yieldPass l 0 ra 0) s = .next t ∧ LaneOnly s t l ∧
      (t.lane l).mode = false ∧ (t.lane l).kind = x.runKind ∧ (t.lane l).pass = x.runPass ∧ (t.lane l).pc = x.reg ra ∧
      (∀ r, (t.lane l).reg r = 0) ∧ (t.lane l).fpctl = 0 ∧ (t.lane l).fpstat = 0 ∧ (t.lane l).stack = [] ∧
      (x.runKind = true → (t.lane l).acc = x.runPass ∧ ((t.lane l).scratch = if x.runPass then BitVec.allOnes 64 else 0) ∧
        (t.lane l).curBundle = s.preload (s.findTask x.task) x.runPass) ∧
      (x.runKind = false → (t.lane l).curBundle = [])) ∧
    (s.NativeReady l → x.mode = true → (x.reg ra).toNat % 4 = 0 → s.passVoid l = true → ∃ t, exec (.yieldPass l 0 ra 0) s = .next t ∧ LaneOnly s t l ∧
      (t.lane l).mode = true ∧ (t.lane l).pc = (x.dspent &&& 0x1FFFC).setWidth 64 ∧ (t.lane l).bun = x.bun) ∧
    (s.NativeReady l → x.mode = true → (x.reg ra).toNat % 4 ≠ 0 →
      exec (.yieldPass l 0 ra 0) s = .next (s.laneFault l 0x02 (lo32 (x.reg ra))))

/-- R116 to R118, R120: the bit-logic reads, on a bit of S or of an image word, in the primary and in the coded pass; a word that is not BITS raises GUARD_MISS. R117, R120, R123: the bit-logic operations without an operand; a nonzero operand field raises ILLEGAL, a full stack BSTACK_OVF, an empty one BSTACK_UNF. -/
def Obligations.BitLogicReadsAndStack : Prop :=
  (∀ (l : Fin 256) (f : BitVec 26) (b : Bool) (s : State), s.BitReady l → s.OperandBit l f b →
     let x := s.lane l
     let acc := fun (o : Host.Outcome State Fault Refusal) (primary coded : Bool) =>
       LaneBecomes o s l { x with acc := if x.pass then coded else primary, pc := x.pc + 4 }
     acc (exec (.blLd l f) s) b b ∧
     acc (exec (.blLdn l f) s) (!b) (!b) ∧
     acc (exec (.blAnd l f) s) (x.acc && b) (x.acc || b) ∧
     acc (exec (.blAndn l f) s) (x.acc && !b) (x.acc || !b) ∧
     acc (exec (.blOr l f) s) (x.acc || b) (x.acc && b) ∧
     acc (exec (.blOrn l f) s) (x.acc || !b) (x.acc && !b) ∧
     acc (exec (.blXor l f) s) (x.acc != b) (x.acc == b) ∧
     acc (exec (.blXnor l f) s) (x.acc == b) (x.acc != b)) ∧
  (∀ (l : Fin 256) (f : BitVec 26) (e : LiiEntry) (s : State), s.BitReady l → blLii f ≠ 0xFFFFF → s.ImageReady l (blLii f) e → e.tag ≠ .bits →
     (s.lane l).fltValid = false →
     ∀ i ∈ [Instr.blLd l f, .blLdn l f, .blAnd l f, .blAndn l f, .blOr l f, .blOrn l f, .blXor l f, .blXnor l f],
       Answers (exec i s) fun t => (t.lane l).fltCause = 0x05 ∧ (t.lane l).fltAddr = BitVec.ofNat 32 (blLii f) ∧ (t.lane l).bun = Bundles.reset) ∧
  (∀ (l : Fin 256) (s : State), s.BitReady l →
     let x := s.lane l
     let accIs := fun (o : Host.Outcome State Fault Refusal) (v : Bool) => o = .next (s.ranOn l [] fun y => { y with acc := v })
     let pops := fun (o : Host.Outcome State Fault Refusal) (v : Bool) (r : List Bool) =>
       o = .next (s.ranOn l [] fun y => { y with acc := v, stack := r })
     exec (.blNop l 0) s = .next (s.ranOn l [] id) ∧
     accIs (exec (.blNot l 0) s) (!x.acc) ∧
     accIs (exec (.blOne l 0) s) (!x.pass) ∧
     accIs (exec (.blZero l 0) s) x.pass ∧
     (x.stack.length < 16 → exec (.blPush l 0) s = .next (s.ranOn l [] fun y => { y with stack := y.acc :: y.stack })) ∧
     (16 ≤ x.stack.length → exec (.blPush l 0) s = .next (s.laneFaultOpen l 0x10)) ∧
     (∀ top rest, x.stack = top :: rest →
       pops (exec (.blPopa l 0) s) (if x.pass then top || x.acc else top && x.acc) rest ∧
       pops (exec (.blPopo l 0) s) (if x.pass then top && x.acc else top || x.acc) rest ∧
       pops (exec (.blPop l 0) s) top rest ∧
       pops (exec (.blPeek l 0) s) top (top :: rest)) ∧
     (x.stack = [] → ∀ i ∈ [Instr.blPopa l 0, .blPopo l 0, .blPop l 0, .blPeek l 0], exec i s = .next (s.laneFaultOpen l 0x11)) ∧
     ∀ f : BitVec 26, f ≠ 0 →
       ∀ i ∈ [Instr.blNop l f, .blNot l f, .blOne l f, .blZero l f, .blPush l f, .blPopa l f, .blPopo l f, .blPop l f, .blPeek l f, .blEnd l f],
         exec i s = .next (s.laneFaultOpen l 0x01))

/-- R119 to R121: the bit-logic stores, to S or to a preloaded bundle word; SET and RST leave the bit where their condition does not hold; EP and EN keep ACC in the memory bit. R122: the bit-logic jumps: to 4 × bits [25:6] when taken; a target outside IM or L_XWIN raises FETCH when the jump issues, taken or not, nonzero bits [5:0] ILLEGAL. -/
def Obligations.BitLogicStoresAndJumps : Prop :=
  (∀ (l : Fin 256) (f : BitVec 26) (s : State), s.BitReady l →
     let x := s.lane l
     let i := blBit f
     let writes := fun (o : Host.Outcome State Fault Refusal) (v : Option Bool) =>
       (blLii f = 0xFFFFF → LaneBecomes o s l { x with scratch := (v.map fun b => setBit64 x.scratch i b).getD x.scratch, pc := x.pc + 4 }) ∧
       (s.OperandWritable l f → LaneBecomes o s l { (v.map fun b => x.bundleBit (blLii f) i b).getD x with pc := x.pc + 4 })
     let m := (x.bundleWord (blLii f)).getLsbD i
     let edge := fun (o : Host.Outcome State Fault Refusal) (primary coded : Bool) =>
       (s.OperandWritable l f → LaneBecomes o s l
         { x.bundleBit (blLii f) i x.acc with acc := if x.pass then coded else primary, pc := x.pc + 4 }) ∧
       (blLii f = 0xFFFFF → o = .next (s.laneFaultOpen l 0x01))
     writes (exec (.blSt l f) s) (some x.acc) ∧
     writes (exec (.blStn l f) s) (some (!x.acc)) ∧
     writes (exec (.blSet l f) s) (if x.acc = x.pass then none else some (!x.pass)) ∧
     writes (exec (.blRst l f) s) (if x.acc = x.pass then none else some x.pass) ∧
     edge (exec (.blEp l f) s) (x.acc && !m) (!(!x.acc && m)) ∧
     edge (exec (.blEn l f) s) (!x.acc && m) (!(x.acc && !m))) ∧
  (∀ (l : Fin 256) (f : BitVec 26) (s : State), s.BitReady l →
     let x := s.lane l
     let target := 4 * (f.toNat / 64)
     let jumps := fun (o : Host.Outcome State Fault Refusal) (taken : Bool) =>
       (f.toNat % 64 = 0 → target < 0x20000 → inWindow x.xwin target = true →
         o = .next (if taken then s.jumped l id (BitVec.ofNat 64 target) else s.ranOn l [] id)) ∧
       (f.toNat % 64 = 0 → 0x20000 ≤ target ∨ inWindow x.xwin target = false →
         o = .next (s.laneFault l 0x02 (BitVec.ofNat 32 target))) ∧
       (f.toNat % 64 ≠ 0 → o = .next (s.laneFaultOpen l 0x01))
     jumps (exec (.blJc l f) s) (x.acc != x.pass) ∧ jumps (exec (.blJcn l f) s) (x.acc == x.pass) ∧ jumps (exec (.blJmp l f) s) true)

/-- R94, R95, R99: a data access outside DM and the control registers, or outside L_DWIN in USR mode, raises ACCESS, a misaligned one ALIGN; ACCESS wins. R96, R99, R103, R115, R117: a word outside IM or L_XWIN raises FETCH at its own address, an uncorrectable IM word ECC, a word that its encoding does not define ILLEGAL; the instruction itself does nothing. R97, R99, R100, R129: what a task fault in USR mode leaves of the lane: the first fault is captured, the bundle is discarded, and the dispatcher runs with ECLASS unchanged. -/
def Obligations.LaneFaults : Prop :=
  (∀ (l : Fin 256) (rd ra : BitVec 5) (imm : W16) (s : State), s.NativeReady l →
     let ea := ((s.lane l).reg ra + imm.signExtend 64).toNat
     let off := ea - 0x20000
     let fault := fun c : Byte => Host.Outcome.next (s.laneFault l c (BitVec.ofNat 32 ea))
     (ea < 0x20000 ∨ 0x41000 ≤ ea ∨
         (ea < 0x40000 ∧ (s.lane l).mode = false ∧ (inWindow (s.lane l).dwin off = false ∨ inWindow (s.lane l).dwin (off + 7) = false)) →
       exec (.ld64 l rd ra imm) s = fault 0x04 ∧ exec (.st64 l rd ra imm) s = fault 0x04) ∧
     (0x20000 ≤ ea → ea < 0x40000 → (s.lane l).mode = true → ea % 8 ≠ 0 →
       exec (.ld64 l rd ra imm) s = fault 0x03 ∧ exec (.st64 l rd ra imm) s = fault 0x03) ∧
     (0x20000 ≤ ea → ea < 0x40000 → (s.lane l).mode = true → ea % 4 ≠ 0 →
       exec (.lds32 l rd ra imm) s = fault 0x03 ∧ exec (.ldu32 l rd ra imm) s = fault 0x03 ∧ exec (.st32 l rd ra imm) s = fault 0x03) ∧
     (0x20000 ≤ ea → ea < 0x40000 → (s.lane l).mode = true → ea % 2 ≠ 0 →
       exec (.lds16 l rd ra imm) s = fault 0x03 ∧ exec (.ldu16 l rd ra imm) s = fault 0x03 ∧ exec (.st16 l rd ra imm) s = fault 0x03)) ∧
  (∀ (i : Instr) (l : Fin 256) (bit : Bool) (s : State), i.laneWord = some (l, bit) → (s.lane l).issues = true →
     ((s.lane l).kind && !(s.lane l).mode) = bit →
     let pc := (s.lane l).pc
     (0x20000 ≤ pc.toNat ∨ (s.lane l).mode = false ∧ inWindow (s.lane l).xwin pc.toNat = false →
       exec i s = .next (s.laneFault l 0x02 (pc.setWidth 32))) ∧
     ((s.lane l).fetchOk = true → s.eccOf (imAddr l pc.toNat) = some .uncorrectable →
       exec i s = .next (s.laneFault l 0x08 (pc.setWidth 32))) ∧
     ((s.lane l).fetchOk = true → s.eccOf (imAddr l pc.toNat) = none → wordDefined bit (s.imWord l) = false →
       exec i s = .next (s.laneFaultOpen l 0x01))) ∧
  (∀ (l : Nat) (cause : Byte) (addr : W32) (s : State), (s.lane l).mode = false →
     cause ∈ [0x01#8, 0x02#8, 0x03#8, 0x04#8, 0x05#8, 0x06#8, 0x07#8, 0x08#8, 0x10#8, 0x11#8] →
     let x := s.lane l
     let t := s.laneFault l cause addr
     (t.lane l).mode = true ∧ (t.lane l).pc = (x.dspent &&& 0x1FFFC).setWidth 64 ∧ (t.lane l).eclass = x.eclass ∧
       (t.lane l).bun = Bundles.reset ∧ (t.lane l).w = x.w ∧ t.mem = s.mem ∧
       (x.fltValid = false → (t.lane l).fltValid = true ∧ (t.lane l).fltCause = cause ∧ (t.lane l).fltPc = lo32 x.pc ∧
         (t.lane l).fltAddr = addr ∧ (t.lane l).fltPass = x.pass ∧ (t.lane l).fltMode = false) ∧
       (x.fltValid = true → (t.lane l).fltCause = x.fltCause ∧ (t.lane l).fltPc = x.fltPc ∧ (t.lane l).fltAddr = x.fltAddr))

/-- R103, R126, R130: a lane that does not issue (halted, gated, disabled, or about to take an event) leaves every instruction row without effect; so does a word of the other encoding. -/
def Obligations.HaltedLaneKeepsState : Prop :=
  ∀ (i : Instr) (l : Fin 256) (bit : Bool) (s : State), i.laneWord = some (l, bit) →
    ((s.lane l).issues = false ∨ ((s.lane l).kind && !(s.lane l).mode) ≠ bit) → exec i s = .next s

/-! ### Lane events, wakes, scrubbing and tests -/

/-- R124, R125, R131, R490: TIMER sets its pending bit and clears TARM, a write to L_EVSWI sets PEND bit 12; in a USR pass of a fast handler TIMER raises DEADLINE instead. Lanes other than l, memory and the rest keep their values; the lane may ask for its wake (R130). R16, R130, R452: a wake grant serves cycle starts first and the lowest lane of its group, which then runs; a gate grant gates the lowest waiting lane that still waits in WAITEV with no event to take; one that is owed a cycle start asks for its wake. -/
def Obligations.TimerWakesAndGates : Prop :=
  (∀ (l : Fin 256) (v : W32) (s : State),
     let x := s.lane l
     let met := x.tarm = true ∧ 0 ≤ (lo32 s.now - x.timer).toInt
     let inFast := x.eclass = 2 ∧ x.evclass.getLsbD 9 = true ∧ x.mode = false
     let becomes := fun (o : Host.Outcome State Fault Refusal) (y : Lane) => ∃ t, o = .next t ∧ t.lane l = y ∧
       t = { s with lanes := t.lanes, pwr := { s.pwr with wakeQ := t.pwr.wakeQ } } ∧ ∀ k, k ≠ l → t.lane k = s.lane k
     becomes (exec (.lEvswiWrite l v) s) { x with evpend := x.evpend ||| 0x1000 } ∧
     (met → ¬inFast → becomes (exec (.timerEvent l) s) { x with tarm := false, evpend := x.evpend ||| 0x200 }) ∧
     (met → inFast → exec (.laneDeadline l) s = .next ((s.setLane l { x with tarm := false }).laneFaultOpen l 0x0C)) ∧
     (¬met → exec (.timerEvent l) s = .next s ∧ exec (.laneDeadline l) s = .next s) ∧
     (inFast → exec (.timerEvent l) s = .next s) ∧ (¬inFast → exec (.laneDeadline l) s = .next s)) ∧
  (∀ (l : Fin 256) (s : State),
     (∀ w, (l.val, w) ∈ s.pwr.wakeQ → (∀ p ∈ s.pwr.wakeQ, p.2 = w → l.val ≤ p.1) → (w = .cycle ∨ ∀ p ∈ s.pwr.wakeQ, p.2 = .other) →
       ∃ t, exec .laneWakeGrant s = .next t ∧ (t.lane l).gated = false ∧ (t.lane l).run = !(s.lane l).wait ∧
         t.pwr.wakeQ = s.pwr.wakeQ.filter (fun p => decide (p.1 ≠ l.val)) ∧ ∀ k, k ≠ l → t.lane k = s.lane k) ∧
     (l.val ∈ s.pwr.gateQ → (∀ j ∈ s.pwr.gateQ, l.val ≤ j) →
       ∃ t, exec .laneGateGrant s = .next t ∧ t.pwr.gateQ = s.pwr.gateQ.filter (fun j => decide (j ≠ l.val)) ∧
         t.lane l = { s.lane l with gated := (s.lane l).gated || ((s.lane l).wait && (s.lane l).gate && (s.lane l).takeable.isNone) } ∧
         ((s.lane l).wait = true → (s.lane l).gate = true → (s.lane l).takeable = none → (s.lane l).en = true → (s.lane l).retire = false →
           (s.lane l).owed ≠ 0 → (l.val, .cycle) ∈ t.pwr.wakeQ) ∧
         ∀ k, k ≠ l → t.lane k = s.lane k) ∧
     (s.pwr.wakeQ = [] → exec .laneWakeGrant s = .next s) ∧ (s.pwr.gateQ = [] → exec .laneGateGrant s = .next s))

/-- R36, R50, R109, R126, R127, R131: entry into the handler of the event the lane takes next: return state saved, ECLASS set, SUP mode at the vector, the pending bit cleared (unless the level of REPL or CDONE rises with the entry); a fast event switches the bank and exchanges the bundle buffers; a cycle start gives the handler its class and boundary. The fast TIMER event past a task's end deadline abandons the task first. A vector outside 0x1_F000 to 0x1_FFFC raises FETCH in SUP mode, which retires the lane. A lane that takes no event, or does not run, stays as it is. -/
def Obligations.EventEntry : Prop :=
  ∀ (l : Fin 256) (s : State),
    let x := s.lane l
    let runs := x.en = true ∧ x.gated = false ∧ (x.run = true ∨ x.wait = true)
    (x.takeable = none ∨ x.en = false ∨ x.gated = true ∨ (x.run = false ∧ x.wait = false) → exec (.eventEntry l) s = .next s) ∧
    ∀ i : Nat, x.takeable = some i → runs →
      let fast := x.evclass.getLsbD i
      let vec := if fast then x.evvecF else x.evvecN
      let inRange := 0x1F000 ≤ vec.toNat ∧ vec.toNat ≤ 0x1FFFC
      let entered := fun t : State => t.mem = s.mem ∧ (∀ k, k ≠ l → t.lane k = s.lane k) ∧
        (t.lane l).mode = true ∧ (t.lane l).kind = false ∧ (t.lane l).pass = false ∧ (t.lane l).run = true ∧ (t.lane l).wait = false ∧
        (t.lane l).pc = (vec &&& 0x1FFFC).setWidth 64 ∧ (t.lane l).eclass = (if fast then 2 else 1) ∧
        (i ≠ 8 ∨ x.lvlRepl = true → i ≠ 11 ∨ x.lvlCdone = true → (t.lane l).evpend.getLsbD i = false)
      (inRange → s.abandonDue l i = false → ∃ t, exec (.eventEntry l) s = .next t ∧ entered t ∧ t = { s with lanes := t.lanes, ctr := t.ctr } ∧
        (i < 8 → (t.lane l).curFast = fast ∧ (t.lane l).bnd = ((s.cls_ i).bnd).getD 0 ∧ (t.lane l).curCls = some i) ∧
        (fast = false → (t.lane l).evretN = evret x.mode x.pass x.kind x.pc ∧ (t.lane l).w = x.w ∧ (t.lane l).bun = x.bun ∧
          (t.lane l).acc = x.acc ∧ (t.lane l).stack = x.stack ∧ (t.lane l).scratch = x.scratch ∧ (t.lane l).fpctl = x.fpctl ∧ (t.lane l).fpstat = x.fpstat) ∧
        (fast = true → (t.lane l).evretF = evret x.mode x.pass x.kind x.pc ∧ (t.lane l).bun = x.hold ∧
          (t.lane l).hold = x.bun ∧ (t.lane l).acc = x.alt.acc ∧ (t.lane l).stack = x.alt.stack ∧ (t.lane l).scratch = x.alt.scratch ∧
          (t.lane l).fpctl = x.alt.fpctl ∧ (t.lane l).fpstat = x.alt.fpstat ∧ (t.lane l).w = (x.w.filter fun p => decide (p.1 < 24)) ++ x.alt.w ∧
          (t.lane l).inNormal = decide (x.eclass = 1))) ∧
      (inRange → s.abandonDue l i = true → ∃ t, exec (.eventEntry l) s = .next t ∧ entered t ∧ (t.lane l).eclass = 2 ∧ (t.lane l).hold = Bundles.reset ∧
        (t.lane l).bun = x.hold ∧ (t.lane l).evretF = evret true false false ((x.dspent &&& 0x1FFFC).setWidth 64)) ∧
      (¬inRange → ∃ t, exec (.eventEntry l) s = .next t ∧ t.mem = s.mem ∧ (∀ k, k ≠ l → t.lane k = s.lane k) ∧
        (t.lane l).run = false ∧ (t.lane l).retire = true ∧ (x.fltValid = false → (t.lane l).fltValid = true ∧ (t.lane l).fltCause = 0x02 ∧
          (t.lane l).fltAddr = (vec &&& 0x1FFFC).setWidth 32 ∧ (t.lane l).fltMode = true))

/-- R98: a read of L_CLK_LO latches the high half for its requester, a read of L_CLK_HI returns the latched half and releases it, or the live one; the lane's latch and the service cores' are separate. -/
def Obligations.ClockHalvesLatched : Prop :=
  ∀ (l : Fin 256) (n : Nat) (s : State),
    let x := s.lane l
    exec (.lClkLoRead l .lane) s = .next (s.setLane l { x with shLane := some (hi32 x.clk) }) ∧
    exec (.lClkLoRead l .service) s = .next (s.setLane l { x with shSvc := some (hi32 x.clk) }) ∧
    exec (.lClkLoRead l .host) s = .next s ∧ exec (.lClkLoRead l .tls) s = .next s ∧
    (∀ h, x.shLane = some h → x.ctlRead n 0x03C true = (h, { x with shLane := none })) ∧
    (x.shLane = none → x.ctlRead n 0x03C true = (hi32 x.clk, x)) ∧
    (∀ h, x.shSvc = some h → x.ctlRead n 0x03C false = (h, { x with shSvc := none })) ∧
    (x.shSvc = none → x.ctlRead n 0x03C false = (hi32 x.clk, x))

/-- R96, R97, R250: every 1,024 lane clocks a word of IM and one of DM are scrubbed; a scrubbed single-bit error is corrected and counted and memory keeps its contents, an uncorrectable one of Image Memory or DRAM is module-level evidence; reading L_ECC clears both counts. R249: a background test runs on a lane that executes no task; a failure retires the lane and counts, three passes in succession bring a retired lane back. -/
def Obligations.ScrubbingAndBackgroundTests : Prop :=
  (∀ (l : Fin 256) (a : BitVec 40) (s : State),
     let x := s.lane l
     let im := imAddr l (8 * x.scrub)
     let dm := dmAddr l (0x20000 + 8 * x.scrub)
     let next := fun (t : State) => tdue t.timers (.scrubLane l) = some (s.clk + 1024) ∧ t.mem = s.mem
     let more := fun n : W16 => if n = 0xFFFF then 0xFFFF else n + 1
     exec (.lEccRead l) s = .next (s.setLane l { x with imCorr := 0, dmCorr := 0 }) ∧
     (s.due (.scrubLane l) = false → exec (.imDmScrub l) s = .next s) ∧
     (s.due (.scrubLane l) = true →
       (s.eccOf im ≠ some .single → s.eccOf dm ≠ some .single → Answers (exec (.imDmScrub l) s) fun t => next t ∧
         t.lane l = { x with scrub := (x.scrub + 1) % 0x4000 } ∧ t.memErr = s.memErr ∧ t.mod = s.mod) ∧
       (s.eccOf im = some .single → s.eccOf dm ≠ some .single → Answers (exec (.imDmScrub l) s) fun t => next t ∧ t.eccOf im = none ∧
         t.mod.ce = s.mod.ce + 1 ∧ t.lane l = { x with imCorr := more x.imCorr, scrub := (x.scrub + 1) % 0x4000 }) ∧
       (s.eccOf im ≠ some .single → s.eccOf dm = some .single → Answers (exec (.imDmScrub l) s) fun t => next t ∧ t.eccOf dm = none ∧
         t.mod.ce = s.mod.ce + 1 ∧ t.lane l = { x with dmCorr := more x.dmCorr, scrub := (x.scrub + 1) % 0x4000 })) ∧
     (inImage a.toNat = false → inDram a.toNat = false → exec (.memoryScrub a) s = .next s) ∧
     (inImage a.toNat = true ∨ inDram a.toNat = true →
       (s.eccOf a.toNat = none → exec (.memoryScrub a) s = .next s) ∧
       (s.eccOf a.toNat = some .single → ∃ t, exec (.memoryScrub a) s = .next t ∧ t.eccOf a.toNat = none ∧ t.mem = s.mem ∧ t.mod.ce = s.mod.ce + 1)) ∧
     (s.eccOf a.toNat = some .uncorrectable →
       (inImage a.toNat = true → ∃ t, exec (.memoryScrub a) s = .next t ∧ t.mod.imgEccAt = some s.clk ∧ t.mem = s.mem) ∧
       (inDram a.toNat = true → ∃ t, exec (.memoryScrub a) s = .next t ∧ t.mod.dramEccAt = some s.clk ∧ t.mem = s.mem))) ∧
  (∀ (l : Fin 256) (passed : Bool) (s : State),
     let x := s.lane l
     (s.laneFree l = true → x.bgtest = false → ∃ t, exec (.backgroundTestStart l) s = .next t ∧ t.lane l = { x with bgtest := true } ∧
       tdue t.timers (.bgTest l) = some (s.clk + 20000000) ∧ ∀ k, k ≠ l → t.lane k = s.lane k) ∧
     (s.laneFree l = false ∨ x.bgtest = true → exec (.backgroundTestStart l) s = .next s) ∧
     (x.bgtest = true → ∃ t, exec (.backgroundTestComplete l true) s = .next t ∧ (t.lane l).bgtest = false ∧
       (t.lane l).retire = (x.retire && !decide (3 ≤ x.bgPasses + 1)) ∧ t.mod.bgFail = s.mod.bgFail) ∧
     (x.bgtest = true → ∃ t, exec (.backgroundTestComplete l false) s = .next t ∧ (t.lane l).bgtest = false ∧
       (t.lane l).retire = true ∧ (t.lane l).bgPasses = 0 ∧ t.mod.bgFail = s.mod.bgFail + 1 ∧ t.mod.bgFailAt = some s.clk) ∧
     (x.bgtest = false → exec (.backgroundTestComplete l passed) s = .next s))

/-- R76, R77, R79, R81, R88, R89: the lowest lane's hand-over of a cluster is judged by the unit that serves it: with PASS it waits for collection, with any other verdict it is not collected and the mismatch is counted in the unit; on a cluster without a comparator a hand-over of WINTER or AUTUMN gets COMPARATOR. R85 to R88: a unit without a defect meets all 144 vectors; a test round goes from the spare through every cluster: spare in place, in shadow, substituting while the cluster's own unit is tested, in shadow again; a failed unit is FAULTED and rounds stop. With L_PC_CTL.EN = 0 a hand-over waits (the model's choice, log 73). -/
def Obligations.ComparatorsJudgeAndAreTested : Prop :=
  (∀ (c : Fin 16) (s : State), (s.cmpOf c).queue = [] → exec (.passVerdict c) s = .next s) ∧
  (∀ (c : Fin 16) (h : HandOver) (s : State), lowestLane (s.cmpOf c).queue = some h →
     let u := s.serving c
     let v := (verdictOf h.trap h.coded h.p h.k).1
     (s.noComparator c h = true → ∃ t, exec (.passVerdict c) s = .next t ∧ (t.cmpOf c).queue = (s.cmpOf c).queue.erase h ∧
       (t.cmpOf c).nmism = (s.cmpOf c).nmism + 1 ∧ (t.cmpOf c).last = 0xF ∧ t.coll = s.coll ∧ t.mem = s.mem) ∧
     (s.noComparator c h = false → (s.cmpOf u).en = false → exec (.passVerdict c) s = .next s) ∧
     (s.noComparator c h = false → (s.cmpOf u).en = true → (s.cmpOf u).defect = none → (∀ x, s.shadowing c = some x → (s.cmpOf x).defect = none) →
       ∃ t, exec (.passVerdict c) s = .next t ∧ (t.cmpOf c).queue = (s.cmpOf c).queue.erase h ∧
         (t.cmpOf u).ncmp = (s.cmpOf u).ncmp + 1 ∧ (t.cmpOf u).last = BitVec.ofNat 4 v.num ∧ t.mem = s.mem ∧ t.rnd = s.rnd ∧
         (v = .pass → t.coll.waiting = s.coll.waiting ++ [h] ∧ (t.cmpOf u).nmism = (s.cmpOf u).nmism) ∧
         (v ≠ .pass → t.coll = s.coll ∧ (t.cmpOf u).nmism = (s.cmpOf u).nmism + 1))) ∧
  (∀ (u : Nat) (s : State), (s.cmpOf u).defect = none → s.firstFailing u = none) ∧
  (∀ (c : Fin 16) (v : Fin 144) (s : State),
     (s.booted = true → s.rnd.stopped = false → s.rnd.step = none → s.due .cmpRound = true → ∃ t, exec .comparatorTestRound s = .next t ∧
       t.rnd.step = some .spare ∧ (t.cmpOf 16).test = true ∧ tdue t.timers .cmpRound = some (s.clk + 10000000000)) ∧
     (s.booted = false ∨ s.rnd.stopped = true ∨ s.rnd.step ≠ none ∨ s.due .cmpRound = false → exec .comparatorTestRound s = .next s) ∧
     (s.rnd.step = some .spare → (s.cmpOf 16).defect = none → ∃ t, exec (.cmpVectorTestDone none) s = .next t ∧ (t.cmpOf 16).fail = false ∧
       (t.cmpOf 16).done = true ∧ (t.cmpOf 16).vector = 0xFF ∧ t.rnd.step = some (.before (if s.rnd.retest then s.rnd.cluster else 0)) ∧
       tdue t.timers .cmpShadow = some (s.clk + 100000)) ∧
     (s.rnd.step = some (.before c) → s.expired .cmpShadow = true → ∃ t, exec .cmpShadowPeriodEnd s = .next t ∧
       t.rnd.step = some (.vectors c) ∧ (t.cmpOf 16).subst = true ∧ (t.cmpOf 16).shadow = false ∧ (t.cmpOf c).test = true) ∧
     (s.rnd.step = some (.vectors c) → (s.cmpOf c).defect = none → ∃ t, exec (.cmpVectorTestDone none) s = .next t ∧ t.rnd.step = some (.after c) ∧
       (t.cmpOf c).test = false ∧ (t.cmpOf c).fail = false ∧ (t.cmpOf c).shadow = true) ∧
     (s.rnd.step = some (.vectors c) → (s.cmpOf c).defect = none → ∃ t, exec (.cmpVectorTestDone (some v)) s = .next t ∧ (t.cmpOf c).faulted = true ∧
       (t.cmpOf c).vector = BitVec.ofNat 8 v.val ∧ t.rnd.stopped = true ∧ t.rnd.step = none ∧ t.mod.cmpFlag = true) ∧
     (s.rnd.step = some (.after c) → s.expired .cmpShadow = true → s.rnd.retest = false → ∃ t, exec .cmpShadowPeriodEnd s = .next t ∧
       (t.cmpOf 16).subst = false ∧ (t.cmpOf c).shadow = false ∧
       t.rnd.step = (if c.val < 15 then some (.before (c + 1 : Nat)) else none) ∧ (c.val = 15 → t.rnd.rounds = s.rnd.rounds + 1)) ∧
     (s.expired .cmpShadow = false → exec .cmpShadowPeriodEnd s = .next s))

/-! ### One control cycle -/

/-- R31: the slowest class of a set is the one with the longest period; of two equal periods the class with the higher number counts as slower. -/
def Obligations.SlowestClass : Prop :=
  ∀ (ks : List Nat) (k : Nat) (s : State), s.slowest ks = some k ↔
    (k ∈ ks ∧ ∀ j ∈ ks, (s.cls_ j).period < (s.cls_ k).period ∨ ((s.cls_ j).period = (s.cls_ k).period ∧ j ≤ k))

/-- R12: a boundary of a class is due at a corrected time T with T mod period = phase, on a module that runs cycles and has not begun that cycle. R12, R13, R23, R25: at its boundary a class begins the cycle of that boundary: banks swap, and the freeze of the boundary begins, those of the lower classes that have passed theirs before it; without a boundary nothing happens. R15, R16, R25: when the freeze copy is complete, each lane that is awake and owed the cycle start of the class gets its event; a gated one keeps waiting for its wake. -/
def Obligations.BoundariesAndFreeze : Prop :=
  (∀ (k : Nat) (s : State), s.joined = true → (s.cls_ k).period ≠ 0 → (s.cls_ k).phase < (s.cls_ k).period →
     tfind s.time.grid k = none → (s.cls_ k).bnd ≠ some s.now →
     (s.now.toNat % (1000 * (s.cls_ k).period) = 1000 * (s.cls_ k).phase → s.boundaryDue k = some (s.now, true))) ∧
  (∀ (k : Fin 8) (b : W64) (s : State),
     (s.boundaryDue k = some (b, true) → (s.cls_ k).frozen ≠ some b →
       ∃ t, exec (.classBoundary k) s = .next t ∧ (t.cls_ k).bnd = some b ∧ (t.cls_ k).prevBnd = (s.cls_ k).bnd ∧
         (t.cls_ k).cur = !(s.cls_ k).cur ∧ (t.cls_ k).frozen = some b ∧ (∃ e, (t.cls_ k).freezing = some e ∧ s.clk ≤ e) ∧
         (t.cls_ k).count = (s.cls_ k).count + 1 ∧ (t.cls_ k).period = (s.cls_ k).period ∧ (t.cls_ k).phase = (s.cls_ k).phase ∧
         ∀ j, j ≤ k.val → ∀ x, (t.cls_ j).bnd = some x → (t.cls_ j).frozen = some x) ∧
     (s.boundaryDue k = none → ((s.cls_ k).bnd = none ∨ (s.cls_ k).bnd = (s.cls_ k).frozen) → exec (.classBoundary k) s = .next s)) ∧
  (∀ (k : Fin 8) (at_ : Nat) (s : State), (s.cls_ k).freezing = some at_ → at_ ≤ s.clk →
     ∃ t, exec (.freezeCopyDone k) s = .next t ∧ (t.cls_ k).freezing = none ∧ t.mem = s.mem ∧
       ∀ l : Fin 256,
         ((s.lane l).owed.getLsbD k = true → (s.lane l).gated = false →
           (t.lane l).evpend.getLsbD k = true ∧ (t.lane l).owed.getLsbD k = false) ∧
         ((s.lane l).gated = false → ∀ j, k.val < j →
           (t.lane l).evpend.getLsbD j = (s.lane l).evpend.getLsbD j ∧ (t.lane l).owed.getLsbD j = (s.lane l).owed.getLsbD j) ∧
         ((s.lane l).owed = 0 ∨ (s.lane l).gated = true → t.lane l = s.lane l))

/-- R19, R23, R221: a collected bundle is written whole into NEXT, the task's bundle counts as in NEXT for its cycle and its signature entry is made; a bundle of a cycle that has ended is discarded. R21, R22, R211: a class cycle of a partition that may be committed is committed, and the SEQ of its publication sets rises; one that may not be keeps the state. R47, R228: a consumer whose same-class input is late past its input deadline proceeds with the previous value; a partner's entry 20 µs late is taken as missing, one that is not late leaves the state. -/
def Obligations.CollectionAndCommit : Prop :=
  (∀ (h : HandOver) (s : State), s.coll.grant = some h →
     ((s.cls_ h.cls).bnd = some h.bnd → (h.p.map (·.lii)).Nodup →
       ∃ t, exec .bundleCollected s = .next t ∧ t.coll.last = h.lane / 16 ∧ t.coll.waiting = s.coll.waiting.erase h ∧
         (h.task, h.bnd) ∈ t.inNext ∧ (∀ w ∈ h.p, t.rdImg (s.nextBank h.cls) w.lii = w.val) ∧
         ((s.cycle (taskPart h.task) h.cls h.bnd).ownOf h.task = none →
           ((t.cycle (taskPart h.task) h.cls h.bnd).ownOf h.task).map (·.sig) = some (signature h.p))) ∧
     ((s.cls_ h.cls).bnd ≠ some h.bnd →
       exec .bundleCollected s = .next { s with coll := { s.coll with last := h.lane / 16, waiting := s.coll.waiting.erase h } })) ∧
  (∀ s : State, s.coll.grant = none → exec .bundleCollected s = .next s) ∧
  (∀ (p : Fin 512) (k : Fin 8) (b : W64) (s : State), (s.cls_ k).bnd = some b →
     (s.mayCommit p k b = true → ∃ t, exec (.classCycleCommit p k) s = .next t ∧ (t.cycle p k b).committed = true ∧
       (s.active = true → t.mod.firstCommit = true) ∧ t.mem = s.mem ∧
       (((s.planOf k).sets.map (·.set)).Nodup → ∀ x ∈ (s.planOf k).sets, x.part = p.val → x.cls = k.val → x.io = false →
         tget 0 t.pubSeq x.set.toNat = tget 0 s.pubSeq x.set.toNat + 1)) ∧
     (s.mayCommit p k b = false → exec (.classCycleCommit p k) s = .next s)) ∧
  (∀ (l : Fin 256) (lii : Nat) (t : TaskPlan) (b : W64) (p : Fin 512) (k : Fin 8) (e : SigEntry) (s : State),
     (∃ u, exec (.inputDeadline l lii) s = .next u ∧ u = { s with delays := u.delays } ∧
       (t ∈ s.tasksOf t.cls → t.cls < 8 → (s.cls_ t.cls).bnd = some b → t.lane = l.val → s.awaits t lii b = true →
         reached (b + BitVec.ofNat 64 (t.inputDl * usec)) s.now = true → (t.task, b, lii) ∈ u.delays)) ∧
     ((s.cls_ k).bnd = some b → (s.cycle p k b).ownOf t.task = some e →
       let late := (s.cycle p k b).partnerOf t.task = none ∧ s.comparing p k b = true ∧ e.at_ + 20000 < s.clk ∧ s.pair.misses = 0 ∧
         (s.cycle p k b).isSettled t.task = false ∧ t.task ∉ (s.cycle p k b).latePartner ∧ taskPart t.task = p.val
       (late → ∃ u, exec (.sigLate p k t.task) s = .next u ∧ t.task ∈ (u.cycle p k b).latePartner) ∧
       (¬late → exec (.sigLate p k t.task) s = .next s)) ∧
     ((s.cls_ k).bnd = none ∨ ((s.cls_ k).bnd = some b ∧ (s.cycle p k b).ownOf t.task = none) → exec (.sigLate p k t.task) s = .next s))

/-! ### Trip I/O, recorder and counters -/

/-- R371, R372, R374, R376, R385: a sample is taken by both checkers while they run and it is due: thresholds with hysteresis, debounce, read-back, the enables of the outputs and what closes them; at any other time it changes nothing. R375: overload and overtemperature of output m set its fault bit and open it; a retry closes it again and counts, once the junction is cool. R390, R396: a test pulse opens one checker's enable of a closed output for 200 µs, the checkers alternating; a read-back that does not follow latches the output. Differing safety sets of a pair are recorded once a minute. -/
def Obligations.TripInputsAndOutputs : Prop :=
  (∀ (a b : Sample) (s : State),
     ((s.trip.running = false ∨ s.due .tripSample = false) → exec (.tripSample a b) s = .next s) ∧
     (s.trip.running = true → s.due .tripSample = true → ∃ t, exec (.tripSample a b) s = .next t ∧ t.trip.rb = a.readback ∧ t.trip.running = true ∧
       t.trip.image = s.trip.image ∧ t.mem = s.mem ∧ t.trip.ot = s.trip.ot &&& a.outHot ∧
       tdue t.timers .tripSample = some ((tdue s.timers .tripSample).getD s.clk + Trip.sper s.trip.image * 1000) ∧
       t.trip.a.raw = s.trip.a.rawOf a ∧ t.trip.b.raw = s.trip.b.rawOf b ∧
       (∀ i, i < 32 → (a.hi.getLsbD i = true → t.trip.a.inOt.getLsbD i = false → t.trip.a.raw.getLsbD i = true) ∧
         (a.hi.getLsbD i = false → a.lo.getLsbD i = true → t.trip.a.raw.getLsbD i = false) ∧
         (t.trip.a.raw.getLsbD i = s.trip.a.deb.getLsbD i → t.trip.a.deb.getLsbD i = s.trip.a.deb.getLsbD i)) ∧
       ∀ m, m < 16 → t.trip.drive.getLsbD m = t.closes m ∧
         (outOwner (cfgOut t.trip.image m) = 2 → ∀ k, k < 16 → bitsAt (outMask (cfgOut t.trip.image m)) k 1 = 1 →
           (tget SpSt.reset t.trip.a.pairs k).st ≠ .run → t.trip.a.en.getLsbD m = false))) ∧
  (∀ (m : Fin 16) (s : State),
     (∃ t, exec (.outputOverload m) s = .next t ∧ t.trip.ovl = s.trip.ovl ||| BitVec.twoPow 16 m ∧ t.trip.ot = s.trip.ot ∧
       t.trip.drive.getLsbD m = false ∧ t.mem = s.mem) ∧
     (∃ t, exec (.outputOvertemp m) s = .next t ∧ t.trip.ot = s.trip.ot ||| BitVec.twoPow 16 m ∧ t.trip.ovl = s.trip.ovl ∧
       t.trip.drive.getLsbD m = false ∧ t.mem = s.mem) ∧
     (s.expired (.outputRetry m) = true → s.trip.ot.getLsbD m = false → ∃ t, exec (.outputRetry m) s = .next t ∧ t.armed (.outputRetry m) = false ∧
       tget 0 t.trip.retries m = tget 0 s.trip.retries m + 1 ∧ t.trip.ovl.getLsbD m = false ∧ t.trip.drive.getLsbD m = t.closes m ∧ t.mem = s.mem) ∧
     ((s.expired (.outputRetry m) = false ∨ s.trip.ot.getLsbD m = true) → exec (.outputRetry m) s = .next s)) ∧
  (∀ (m : Fin 16) (partner : W32) (opened closed : Bool) (s : State),
     (s.pulseDue m = true → ∃ t, exec (.testPulseStart m) s = .next t ∧ t.trip.pulse = some m.val ∧ t.trip.drive.getLsbD m = false ∧
       tdue t.timers .testPulseEnd = some (s.clk + 200000) ∧ (t.trip.a.en.getLsbD m = false ∨ t.trip.b.en.getLsbD m = false)) ∧
     (s.pulseDue m = false → exec (.testPulseStart m) s = .next s) ∧
     (s.trip.pulse = some m.val → s.expired .testPulseEnd = true → ∃ t, exec (.testPulseEnd opened closed) s = .next t ∧ t.trip.pulse = none ∧
       (opened = true → closed = true → t.trip.latch = s.trip.latch) ∧
       (opened = false ∨ closed = false → (tfind t.trip.latch m).isSome = true)) ∧
     ((s.trip.pulse = none ∨ s.expired .testPulseEnd = false) → exec (.testPulseEnd opened closed) s = .next s) ∧
     (s.trip.check ≠ partner → s.unpaired = false → s.due .safetyDiff = true → ∃ t, exec (.safetyPairDiff partner) s = .next t ∧
       t.trip = s.trip ∧ tdue t.timers .safetyDiff = some (s.clk + 60000000000)) ∧
     ((s.trip.check = partner ∨ s.unpaired = true ∨ s.due .safetyDiff = false) → exec (.safetyPairDiff partner) s = .next s))

/-- R421, R424, R425: a staged record reaches the circulating area in order, buckets take the tokens due, and the end of a second of drops writes SUPPRESSED with their number. R429 to R431: a bound view loads a snapshot of at most 32 records from its cursor, advances and unbinds; an unbound view ignores every write of E_VCTL; READY shows the snapshot. R435, R442: both halves of C_EN take effect with the write of the high half; a partition's counter block binds to a valid session tag and to no other. -/
def Obligations.RecorderAndCounterUnit : Prop :=
  (∀ (e : Rec) (f : Bool) (rest : List (Rec × Bool)) (code : W16) (part : Fin 512) (b : Bucket) (s : State),
     (s.powered = true → s.rcd.staging = (e, f) :: rest →
       ∃ t, exec .recorderMramWrite s = .next t ∧ t = { s with rcd := t.rcd } ∧
         t.rcd.circ = (if s.rcd.circ.length < 262144 then s.rcd.circ ++ [e] else (s.rcd.circ ++ [e]).drop 1) ∧
         (s.rcd.lostCnt = 0 → t.rcd.staging = rest ∧ t.rcd.seq = s.rcd.seq) ∧
         (s.rcd.lostCnt ≠ 0 → rest.length ≤ 4094 → ∃ x ∈ t.rcd.staging, x.1.code = 0x0003 ∧ x.1.p0 = sat32 s.rcd.lostCnt)) ∧
     (s.powered = false ∨ (s.rcd.staging = [] ∧ s.rcd.lostCnt = 0) → exec .recorderMramWrite s = .next s) ∧
     (s.rcd.bucket code part = some b →
       ∃ t, exec (.tokenRefill code part) s = .next t ∧ t = { s with rcd := t.rcd } ∧
         t.rcd.bucket code part = some { b with
           tokens := min (s.rcd.mode code).burst (b.tokens + ((s.clk - b.since) * (s.rcd.mode code).rate / 1000000000 - b.ticks)),
           ticks := (s.clk - b.since) * (s.rcd.mode code).rate / 1000000000 }) ∧
     (s.rcd.bucket code part = none → exec (.tokenRefill code part) s = .next s ∧ exec (.suppressed code part) s = .next s) ∧
     (s.rcd.bucket code part = some b → (b.run = none ∨ ∃ due, b.run = some due ∧ s.clk < due) → exec (.suppressed code part) s = .next s) ∧
     (∀ due, s.rcd.bucket code part = some b → b.run = some due → due ≤ s.clk →
       ∃ t, exec (.suppressed code part) s = .next t ∧ t = { s with rcd := t.rcd } ∧
         (b.drops = 0 → (t.rcd.bucket code part) = some { b with run := none } ∧ t.rcd.staging = s.rcd.staging) ∧
         (b.drops ≠ 0 → (t.rcd.bucket code part) = some { b with run := some (due + 1000000000), drops := 0, first := 0, last := 0 } ∧
           (s.rcd.lostCnt = 0 → s.rcd.staging.length < 4095 →
             ∃ x ∈ t.rcd.staging, x.1.code = 0x00FE ∧ x.1.p0 = code.setWidth 32 ∧ x.1.p1 = sat32 b.drops)))) ∧
  (∀ (n : Fin 512) (ctl v : W32) (tag : W64) (s : State),
     let w := s.view n
     (w.bound = none → exec (.load n ctl) s = .next s ∧ exec (.advance n ctl) s = .next s ∧ exec (.unbind n ctl) s = .next s) ∧
     (w.bound = some tag →
       (∃ t, exec (.load n ctl) s = .next t ∧ (t.view n).ready = false ∧ (t.view n).data = [] ∧ (t.view n).cur = w.cur ∧
         (t.view n).snap = some (s.rcd.read n (ctl.getLsbD 16) w.cur 32) ∧ (t.view n).bound = some tag) ∧
       (∃ t, exec (.advance n ctl) s = .next t ∧ (t.view n).ready = false ∧
         (w.data.length ≤ (w.ctl ctl).adv → (t.view n).cur = w.next) ∧
         (∀ x, (w.ctl ctl).adv < w.data.length → w.data[(w.ctl ctl).adv - 1]? = some x → (t.view n).cur = x.1)) ∧
       (∃ t, exec (.unbind n ctl) s = .next t ∧ (t.view n).bound = none)) ∧
     (∀ es lost head old lostN next, w.snap = some (es, lost, head, old, lostN, next) →
       ∃ t, exec (.snapshotReady n) s = .next t ∧ (t.view n).ready = true ∧ (t.view n).data = es ∧ (t.view n).lost = lost ∧
         (t.view n).head = head ∧ (t.view n).next = next ∧ t.rcd.circ = s.rcd.circ) ∧
     (w.snap = none → exec (.snapshotReady n) s = .next s) ∧
     ((∃ y ∈ s.mb.sessions, y.tag = mk64 w.sessLo v ∧ y.part = n.val) →
       ∃ t, exec (.eSessHiWrite n v) s = .next t ∧ (t.view n).bound = some (mk64 w.sessLo v)) ∧
     ((∀ y ∈ s.mb.sessions, y.tag ≠ mk64 w.sessLo v ∨ y.part ≠ n.val) →
       ∃ t, exec (.eSessHiWrite n v) s = .next t ∧ (t.view n).bound = none)) ∧
  (∀ (n : Fin 512) (v lo : W32) (s : State),
     let tag := mk64 (tget 0 s.ctr.unlockLo n) v
     (s.ctr.enLo = some lo → exec (.cEnHiWrite v) s = .next { s with ctr := { s.ctr with en := mk64 lo v, enLo := none } }) ∧
     (s.ctr.enLo = none → exec (.cEnHiWrite v) s = .next { s with ctr := { s.ctr with en := mk64 (lo32 s.ctr.en) v } }) ∧
     ((∃ y ∈ s.mb.sessions, y.tag = tag ∧ y.part = n.val) →
       exec (.cUnlockHiWrite n v) s = .next { s with ctr := { s.ctr with bind := tput s.ctr.bind n tag } }) ∧
     ((∀ y ∈ s.mb.sessions, y.tag ≠ tag ∨ y.part ≠ n.val) →
       ∃ t, exec (.cUnlockHiWrite n v) s = .next t ∧ tfind t.ctr.bind n = none))

/-- R426, R427, R435, R441, R443: clearing the recorder, setting the limits and modes of codes, counters and their read rights; an entry that may not be applied changes nothing. -/
def Obligations.RecorderAndCounterCommands : Prop :=
  ∀ (q : ReqSrc) (r : Request) (s : State), r.part = 0 →
    let e := r.payload
    let codeOf : List Byte → W16 := fun x => BitVec.ofNat 16 (field x 0 2)
    let ix : List Byte → Nat := fun x => field x 0 1
    let ctrOk : List Byte → Prop := fun x => ix x < 64 ∧ field x 1 1 < 4 ∧ field x 7 1 ∈ evCodes
    (s.reqOf q 0x0802 = some r → e.length = 4 →
      (field e 0 4 < 2 → Answers (exec (.recClear q) s) fun t =>
        Answered s t r .ok 0 [] ∧ t.rcd = s.rcd.clear s.recAt (decide (field e 0 4 = 1)) 0) ∧
      (2 ≤ field e 0 4 → Answers (exec (.recClear q) s) fun t => Answered s t r .checkFail 0 [] ∧ t.rcd = s.rcd)) ∧
    (s.reqOf q 0x0803 = some r → e.length % 8 = 0 →
      ((∀ x ∈ r.entries 8, modeOk x = true) → Answers (exec (.recSetMode q) s) fun t => Answered s t r .ok 0 [] ∧
        (∀ x ∈ r.entries 8, (∀ y ∈ r.entries 8, codeOf y = codeOf x → y = x) → t.rcd.mode (codeOf x) =
          { rate := field x 2 2, burst := field x 4 2, stat := decide (field x 6 1 = 1), base := field x 7 1 }) ∧
        (∀ c, (∀ x ∈ r.entries 8, codeOf x ≠ c) → t.rcd.mode c = s.rcd.mode c) ∧ t.rcd.circ = s.rcd.circ ∧ t.rcd.staging = s.rcd.staging) ∧
      ((∃ x ∈ r.entries 8, modeOk x = false) → Answers (exec (.recSetMode q) s) fun t => Answered s t r .checkFail 0 [] ∧ t.rcd = s.rcd)) ∧
    (s.reqOf q 0x0804 = some r → e.length % 20 = 0 →
      ((∀ x ∈ r.entries 20, ctrOk x) → Answers (exec (.ctrSet q) s) fun t => Answered s t r .ok 0 [] ∧
        (∀ j, j < 64 → (∀ x ∈ r.entries 20, ix x ≠ j) → t.ctr.en.getLsbD j = s.ctr.en.getLsbD j ∧ t.ctr.get j = s.ctr.get j) ∧
        (∀ x ∈ r.entries 20, (∀ y ∈ r.entries 20, ix y = ix x → y = x) →
          t.ctr.en.getLsbD (ix x) = decide (field x 1 1 % 2 = 1) ∧
          (2 ≤ field x 1 1 → (t.ctr.get (ix x)).val = 0) ∧ (field x 1 1 < 2 → (t.ctr.get (ix x)).val = (s.ctr.get (ix x)).val))) ∧
      ((∃ x ∈ r.entries 20, ¬ctrOk x) → Answers (exec (.ctrSet q) s) fun t => Answered s t r .checkFail 0 [] ∧ t.ctr = s.ctr)) ∧
    (s.reqOf q 0x0805 = some r → e.length % 4 = 0 →
      ((∀ x ∈ r.entries 4, ix x < 64) → Answers (exec (.ctrAclSet q) s) fun t => Answered s t r .ok 0 [] ∧
        (∀ j, (∀ x ∈ r.entries 4, ix x ≠ j) → t.ctr.get j = s.ctr.get j) ∧
        (∀ x ∈ r.entries 4, (∀ y ∈ r.entries 4, ix y = ix x → y = x) →
          t.ctr.get (ix x) = { s.ctr.get (ix x) with acl := BitVec.ofNat 32 (field x 2 2) &&& 0x7FF })) ∧
      ((∃ x ∈ r.entries 4, 64 ≤ ix x) → Answers (exec (.ctrAclSet q) s) fun t => Answered s t r .checkFail 0 [] ∧ t.ctr = s.ctr))

/-! ### The ring and the links -/

/-- R183 to R186: what a member does with an arriving frame before it acts on it: malformed and stomped frames are counted and dropped, a frame with a bad CRC is never delivered, and one for this module with a good CRC is delivered and counted. R184: a member that would forward a frame whose HOPS is 126 drops it, counts it and sends nothing; any other frame it forwards has HOPS one higher and, at an output that is free, leaves at once. R156, R187, R211, R302: a one-fragment instance from the home that the plan names for the set becomes complete here, be it delivered or passing; a set from any other source is dropped and counted; one that the Access Guard refuses is dropped; a frame that is not taken leaves what the port made of it. -/
def Obligations.FramesOnArrival : Prop :=
  (∀ (p : Port) (f : Frame) (s : State), s.onRing p = true →
     let r := s.receive p f
     (f.formed = false → r.deliver = false ∧ (r.s.port p).cnt.malformed = (s.port p).cnt.malformed + 1) ∧
     (f.formed = true → f.crc = ~~~f.goodCrc → r.deliver = false ∧ (r.s.port p).cnt.stomped = (s.port p).cnt.stomped + 1) ∧
     (f.crc ≠ f.goodCrc → r.deliver = false) ∧
     (f.formed = true → f.crc = f.goodCrc → s.position f.srcMod ≠ .adapter → f.scope = 0 → f.dstMod = s.module →
       r.deliver = true ∧ (r.s.port p).cnt.rxd = (s.port p).cnt.rxd + 1)) ∧
  (∀ (inp outp : Port) (x : Tx) (newRing : Bool) (s : State),
     let t := s.forwardNow inp outp x newRing
     (x.f.hops = 126 →
       t.out = s.out ∧ (t.port inp).cnt.hopLimit = (s.port inp).cnt.hopLimit + 1 ∧ (∀ q, q ≠ inp → t.port q = s.port q) ∧
         t = { s with ring := t.ring, rcd := t.rcd }) ∧
     (x.f.hops < 126 → s.silent = false → s.portUp outp = true → (s.port outp).txq = [] → (s.port outp).sending = [] →
       (∀ v, v < 4 → (s.port outp).mayStart (x.f.onVc v) = true) →
       ∃ g, t.out = Tx.out outp { x with f := g } :: s.out ∧ g.hops = x.f.hops + 1 ∧ g.payload = x.f.payload ∧ g.dst = x.f.dst ∧ g.src = x.f.src ∧
         g.crcOk = x.f.crcOk ∧ (t.port outp).cnt.fwd = (s.port outp).cnt.fwd + 1)) ∧
  (∀ (p : Port) (f : Frame) (s : State),
     let taken := (s.Delivers p f ∨ (s.onRing p = true ∧ f.formed = true ∧ f.crcOk = true)) ∧ f.ty = 1 ∧ 16 ≤ f.payload.length
     let u := s.afterFrame p f
     let set : W32 := BitVec.ofNat 32 (field f.payload 0 4)
     let seq : W32 := BitVec.ofNat 32 (field f.payload 4 4)
     let fromHome := (u.homeOfSet set (extNear u.now f.stamp)).map (fun h => u.fromHome h f.srcMod) = some true
     (¬taken → exec (.pub p f) s = .next (s.receive p f).s) ∧
     (taken → u.wantsSet set = false → exec (.pub p f) s = .next u) ∧
     (taken → u.wantsSet set = true →
       (¬fromHome → Answers (exec (.pub p f) s) fun t => t.pl.wrongSource = u.pl.wrongSource + 1 ∧ t.setRx = u.setRx) ∧
       (fromHome → (u.deliveries p set f.payload.length).1.isSome = true → Answers (exec (.pub p f) s) fun t => t.setRx = u.setRx ∧ t.mem = u.mem) ∧
       (fromHome → (u.deliveries p set f.payload.length).1 = none → field f.payload 9 1 = 1 →
         (tget SetRx.reset u.setRx set.toNat).complete = [] → (tget SetRx.reset u.setRx set.toNat).partial_ = [] →
         Answers (exec (.pub p f) s) fun t => ((tget SetRx.reset t.setRx set.toNat).complete.map (·.seq)) = [seq] ∧ t.mem = u.mem)))

/-- R175, R176, R178, R179: block lock, alignment and IDENT bring a link to UP once IDENT has been acceptable for 10 ms; loss of lock, a refused IDENT, an IDENT whose UP flag has cleared and a missing UP flag take it DOWN. R175, R176: IDENT goes out every 1 µs while the link is not UP and every 1 ms while it is, ALIGN on each lane every 16,384 blocks. R176, R194, R196: credit returned is held up to the pool and lets the next frame go, PREEMPT suspends and RESUME resumes a channel and pool, a control block of unknown type is counted. A port that is off, or a command whose condition does not hold, keeps the state. -/
def Obligations.LinkStates : Prop :=
  (∀ (p : Port) (i : Ident) (lane : Fin 4) (s : State),
     let x := s.port p
     let mayUp := (∀ l, l < lanesOf p → l ∈ x.lock ∧ l ∈ x.aligned) ∧ x.st ≠ .up ∧ ∃ a, x.identOkAt = some a ∧ a + 10000000 ≤ s.clk
     (s.portLive p = true →
       (s.identFault p i = none → x.st ≠ .up → Answers (exec (.ident p i) s) fun t =>
         (t.port p).st = .train ∧ (t.port p).identOkAt = some (x.identOkAt.getD s.clk) ∧ (t.port p).far = some i.module.toNat) ∧
       (s.identFault p i = none → x.st = .up → i.up = true → Answers (exec (.ident p i) s) fun t =>
         (t.port p).st = .up ∧ (t.port p).upSeen = true ∧ tdue t.timers (.identUp (Port.ix p)) = some (s.clk + 20000000)) ∧
       (s.identFault p i = none → x.st = .up → i.up = false → x.upSeen = true → Answers (exec (.ident p i) s) fun t => (t.port p).st = .down) ∧
       (s.identFault p i = none → x.st = .up → i.up = false → x.upSeen = false → exec (.ident p i) s = .next s) ∧
       ((s.identFault p i).isSome = true → x.st = .up → Answers (exec (.ident p i) s) fun t => (t.port p).st = .down) ∧
       ((s.identFault p i).isSome = true → x.st ≠ .up → Answers (exec (.ident p i) s) fun t => (t.port p).identOkAt = none ∧ (t.port p).st = x.st) ∧
       (lane.val < lanesOf p → lane.val ∉ x.lock → Answers (exec (.blockLock p lane) s) fun t =>
         (t.port p).lock = lane.val :: x.lock ∧ (t.port p).st = (if x.st = .down then .train else x.st)) ∧
       (lane.val ∈ x.lock → lane.val ∉ x.aligned → Answers (exec (.align p lane) s) fun t => (t.port p).aligned = lane.val :: x.aligned) ∧
       (mayUp → Answers (exec (.linkUp p) s) fun t => (t.port p).st = .up)) ∧
     (s.portLive p = false → exec (.ident p i) s = .next s ∧ exec (.blockLock p lane) s = .next s ∧ exec (.align p lane) s = .next s ∧
       exec (.linkUp p) s = .next s) ∧
     (lane.val ∈ x.lock ∨ lanesOf p ≤ lane.val → exec (.blockLock p lane) s = .next s) ∧
     (lane.val ∉ x.lock ∨ lane.val ∈ x.aligned → exec (.align p lane) s = .next s) ∧
     (¬mayUp → exec (.linkUp p) s = .next s) ∧
     (lane.val ∈ x.lock → Answers (exec (.lockLoss p lane) s) fun t =>
       (t.port p).lock = x.lock.erase lane.val ∧ (t.port p).identOkAt = none ∧
       (x.st = .up → (t.port p).st = .down ∧ (t.port p).txq = []) ∧ (x.st ≠ .up → (t.port p).st = x.st)) ∧
     (lane.val ∉ x.lock → exec (.lockLoss p lane) s = .next s) ∧
     (x.st = .up → s.expired (.identUp (Port.ix p)) = true → Answers (exec (.identUpTimeout p) s) fun t => (t.port p).st = .down) ∧
     (x.st ≠ .up ∨ s.expired (.identUp (Port.ix p)) = false → exec (.identUpTimeout p) s = .next s)) ∧
  (∀ (p : Port) (lane : Fin 4) (s : State),
     let ti := Timer.identSend (Port.ix p)
     let ta := Timer.alignSend (Port.ix p) lane
     (s.portLive p = true → s.due ti = true → Answers (exec (.identSend p) s) fun t =>
       t.out = .ident p { module := BitVec.ofNat 12 s.module, domain := s.nv.domainId, ring := isRowPort p, port := p, nr := s.nv.nr, nc := s.nv.nc, up := s.portUp p } :: s.out ∧
       tdue t.timers ti = some ((tdue s.timers ti).getD s.clk + if s.portUp p then 1000000 else 1000)) ∧
     (s.portLive p = false ∨ s.due ti = false → exec (.identSend p) s = .next s) ∧
     (s.portLive p = true → lane.val < lanesOf p → s.due ta = true → Answers (exec (.alignSend p lane) s) fun t =>
       t.out = .control p 0x20 [BitVec.ofNat 8 lane.val] :: s.out ∧ tdue t.timers ta = some ((tdue s.timers ta).getD s.clk + 90112)) ∧
     (s.portLive p = false ∨ lanesOf p ≤ lane.val ∨ s.due ta = false → exec (.alignSend p lane) s = .next s)) ∧
  (∀ (p : Port) (vc pool : Fin 2) (vc3 : Fin 3) (count ty : Byte) (s : State),
     let x := s.port p
     let full := min 64 (tget 64 x.credit (2 * vc + pool) + count.toNat)
     let y := { x with credit := tput x.credit (2 * vc + pool) full }
     (s.portUp p = true →
       (x.txq = [] → Answers (exec (.credit p vc pool count) s) fun t => tget 64 (t.port p).credit (2 * vc + pool) = full) ∧
       (∀ g, x.sending = [] → s.silent = false → nextTx p y = some g → Answers (exec (.credit p vc pool count) s) fun t =>
         t.out = Tx.out p g :: s.out ∧ (t.port p).txq = x.txq.erase g) ∧
       (Answers (exec (.preempt p vc3 pool) s) fun t => (vc3.val, pool.val) ∈ (t.port p).susp) ∧
       (Answers (exec (.resume p vc3 pool) s) fun t => (t.port p).susp = x.susp.erase (vc3.val, pool.val))) ∧
     (s.portUp p = false → exec (.credit p vc pool count) s = .next s ∧ exec (.preempt p vc3 pool) s = .next s ∧ exec (.resume p vc3 pool) s = .next s) ∧
     (s.portLive p = true → knownBlock p ty = false → Answers (exec (.controlBlockUnknown p ty) s) fun t =>
       (t.port p).cnt.malformed = x.cnt.malformed + 1 ∧ (t.port p).st = x.st) ∧
     (s.portLive p = false ∨ knownBlock p ty = true → exec (.controlBlockUnknown p ty) s = .next s))

/-- R198, R199, R202, R206: the ring-state table follows the notices: a broken link is DOWN from its first notice on, a mended one is UP again, planned ones count as DOWN from t0; a notice that is not delivered here changes nothing but what the port does with it. R199, R202, R204, R206, R207, R208: notices are repeated 5 µs and 10 µs after the first; at t0 nothing of the module's own waits for a planned link; a bypass opens and closes at its instant. -/
def Obligations.RingBreaksAndBypasses : Prop :=
  (∀ (p : Port) (f : Frame) (l : LinkName) (ls : List LinkName) (t0 : W64) (s : State),
     let bb : Option Msg := some (.notice 0x02 [l] 0)
     let bm : Option Msg := some (.notice 0x03 [l] 0)
     let bp : Option Msg := some (.notice 0x04 ls t0)
     let here := fun b : Option Msg => s.Delivers p f b ∧ f.ty = 7
     (here bb →
       let u := s.afterFrame p f bb
       let down := ∃ e ∈ u.ring.links, e.link = l ∧ e.downAt.isSome = true
       (down → exec (.ringBreak p f l) s = .next u) ∧
       (¬down → Answers (exec (.ringBreak p f l) s) fun t => ∃ e ∈ t.ring.links, e.link = l ∧ e.downAt = some u.clk)) ∧
     (here bm →
       let u := s.afterFrame p f bm
       Answers (exec (.ringMend p f l) s) fun t => (∀ e ∈ t.ring.links, e.link ≠ l) ∧
         ∀ e ∈ u.ring.links, (e.link.row ≠ l.row ∨ e.link.ring ≠ l.ring) → e ∈ t.ring.links) ∧
     (here bp → Answers (exec (.ringPlan p f ls t0) s) fun t => ∀ x ∈ ls, ∃ e ∈ t.ring.links, e.link = x ∧ e.planT0 = some t0) ∧
     (¬here bb → exec (.ringBreak p f l) s = .next (s.afterPort p f bb)) ∧
     (¬here bm → exec (.ringMend p f l) s = .next (s.afterPort p f bm)) ∧
     (¬here bp → exec (.ringPlan p f ls t0) s = .next (s.afterPort p f bp))) ∧
  (∀ (p : Port) (n : Nat) (ls : List LinkName) (kind : Byte) (row : Bool) (s : State),
     let keys := if p = .pl then [4, 5] else [Port.ix p]
     (∀ key ∈ keys, tfind s.ring.repeats key = some (n, ls, kind) → s.expired (.breakRepeat key) = true → Answers (exec (.ringBreakRepeat p) s) fun t =>
       (n ≤ 1 → tfind t.ring.repeats key = none ∧ t.armed (.breakRepeat key) = false) ∧
       (1 < n → tfind t.ring.repeats key = some (n - 1, ls, kind) ∧
         tdue t.timers (.breakRepeat key) = (tdue s.timers (.breakRepeat key)).map (· + 5000)) ∧
       (p ≠ .pl → ∃ t0, (kind ≠ 0x04 → t0 = 0) ∧
         s.Floods t (s.mkFrame 7 0 s.module 3 s.now32 (pad4 [kind])) (some (.notice kind ls t0)))) ∧
     ((∀ key ∈ keys, s.expired (.breakRepeat key) = false) → exec (.ringBreakRepeat p) s = .next s) ∧
     (let mayOpen := s.expired (.bypassOpen row) = true ∧ (s.joined = true ∨ s.mod.st = .service)
      (mayOpen → Answers (exec (.bypassOpen row) s) fun t =>
        t.pins = (if row then { s.pins with bypEW := false } else { s.pins with bypNS := false }) ∧ t.armed (.bypassOpen row) = false ∧
          row ∈ t.ring.opened) ∧
      (¬mayOpen → exec (.bypassOpen row) s = .next s)) ∧
     (s.expired .bypassClose = true → Answers (exec .bypassClose s) fun t => t.pins.bypEW = true ∧ t.pins.bypNS = true ∧
       ∀ q ∈ [Port.n, .e, .s, .w], (t.port q).st = .down) ∧
     (s.expired .bypassClose = false → exec .bypassClose s = .next s) ∧
     (p ≠ .pl → (∀ q ∈ [Port.n, .e, .s, .w], s.plannedOut q = true ↔ q = p) → exec .ringPlanT0 s = .next (s.resteer p)) ∧
     ((∀ q ∈ [Port.n, .e, .s, .w], s.plannedOut q = false) → exec .ringPlanT0 s = .next s))

/-- R331: an RSP answers the forwarded request of its session, command and SEQ and closes it; an interim one keeps it open for another second, and a VAR_READ waits for every home; without one the request is sent again every 10 ms and answered TIMEOUT with DETAIL 1 after 1 s. A REQ joins the queue; a repeat of one gets the stored answer, or an interim one. R162: one that addresses an object is held for an epoch to come, dropped as stale, taken where the object is here, or passed on once. R154: a module that asks for the plan of an epoch gets it where that epoch is current. -/
def Obligations.ForwardedRequests : Prop :=
  ∀ (p : Port) (f : Frame) (m : ReqMsg) (a : RspMsg) (r : Request) (dst : Nat) (session : W64) (seq : W16) (s : State),
    let bq : Option Msg := some (.req m)
    let br : Option Msg := some (.rsp a)
    let u := s.afterFrame p f bq
    let v := s.afterFrame p f br
    let rsp := fun (st : W16) (interim : Bool) => (⟨m.session, m.cmd, m.seq, interim, st, 0, [], none⟩ : RspMsg)
    let accepted := fun t : State => t.mb.queue = u.mb.queue ++ [⟨ReqMsg.src m, m.cmd, m.seq, m.session, m.part, m.login, false, m.payload, false⟩]
    let fresh := (∀ x ∈ u.mb.rsps, ¬(x.1 = m.origin ∧ x.2.session = m.session ∧ x.2.cmd = m.cmd ∧ x.2.seq = m.seq)) ∧
      ∀ x ∈ u.mb.queue, ¬(x.src = ReqMsg.src m ∧ x.cmd = m.cmd)
    (¬(s.Delivers p f bq ∧ f.ty = 2) → exec (.req p f m) s = .next (s.afterPort p f bq)) ∧
    (s.Delivers p f bq → f.ty = 2 →
      (m.session = 0 → m.cmd = 0 →
        let e : W32 := BitVec.ofNat 32 (field m.payload 0 4)
        ((u.pl.epoch - e).toInt < 0 → exec (.req p f m) s = .next u) ∧
        (0 ≤ (u.pl.epoch - e).toInt → Answers (exec (.req p f m) s) fun t => t.pl = u.pl ∧ t.mb = u.mb ∧
          let x : Msg := .rsp ⟨0, 0, m.seq, false, 0, 0, leBytes 4 u.pl.epoch.toNat, some (u.pl.epoch, (tfind u.pl.dom.mods m.origin).getD emptyPlan, u.pl.dom)⟩
          (m.origin < 4096 → u.Routes t (u.msgFrame 3 m.origin 0 x) (some x)))) ∧
      ((m.session ≠ 0 ∨ m.cmd ≠ 0) → m.object = none →
        (fresh → Answers (exec (.req p f m) s) accepted) ∧
        (∀ x, u.mb.rsps.find? (fun x => decide (x.1 = m.origin) && (decide (x.2.session = m.session) && decide (x.2.cmd = m.cmd) && decide (x.2.seq = m.seq))) = some x →
          Answers (exec (.req p f m) s) fun t => t.mb = u.mb ∧ (m.origin < 4096 → u.Routes t (u.msgFrame 3 m.origin 0 (.rsp x.2)) (some (.rsp x.2)))) ∧
        ((∀ x ∈ u.mb.rsps, ¬(x.1 = m.origin ∧ x.2.session = m.session ∧ x.2.cmd = m.cmd ∧ x.2.seq = m.seq)) →
          (∃ x ∈ u.mb.queue, x.src = ReqMsg.src m ∧ x.cmd = m.cmd) → Answers (exec (.req p f m) s) fun t => t.mb = u.mb ∧
            (m.origin < 4096 → u.Routes t (u.msgFrame 3 m.origin 0 (.rsp (rsp 0 true))) (some (.rsp (rsp 0 true)))))) ∧
      (∀ obj, (m.session ≠ 0 ∨ m.cmd ≠ 0) → m.object = some obj →
        let d := (u.pl.epoch - f.epoch).toInt
        let way := u.pl.fwd.find? fun q => decide (q.1 = obj) || decide (q.1 = u.resolve obj)
        (d < 0 → Answers (exec (.req p f m) s) fun t => t.pl = { u.pl with held := u.pl.held ++ [(f, u.clk + 1000000, m)] } ∧ t.mb = u.mb ∧
          tdue t.timers .held = some (u.clk + 1000000)) ∧
        (2 < d → Answers (exec (.req p f m) s) fun t => t.pl = { u.pl with stale := u.pl.stale + 1 } ∧ t.mb = u.mb ∧
          (m.origin < 4096 → u.Routes t (u.msgFrame 3 m.origin 0 (.rsp (rsp 0x000A false))) (some (.rsp (rsp 0x000A false))))) ∧
        (0 ≤ d → d ≤ 2 → u.hosts obj = true → fresh → Answers (exec (.req p f m) s) accepted) ∧
        (0 ≤ d → d ≤ 2 → u.hosts obj = false → (way = none ∨ f.fwd = true) → Answers (exec (.req p f m) s) fun t =>
          t.pl = { u.pl with stale := u.pl.stale + 1 } ∧ t.mb = u.mb) ∧
        (∀ q, 0 ≤ d → d ≤ 2 → u.hosts obj = false → way = some q → f.fwd = false → f.hops ≠ 126 → Answers (exec (.req p f m) s) fun t =>
          t.pl = u.pl ∧ t.mb = u.mb ∧
          t = u.sendRouted (({ f with flags := f.flags ||| 0x02, dst := BitVec.ofNat 16 (pairDst q.2.1), lenHops := f.lenHops + 0x200 } : Frame).onVc 0) bq))) ∧
    (¬(s.Delivers p f br ∧ f.ty = 3) → exec (.rsp p f a) s = .next (s.afterPort p f br)) ∧
    (s.Delivers p f br → f.ty = 3 →
      (a.session = 0 → a.cmd = 0 → a.plan = none → exec (.rsp p f a) s = .next v) ∧
      (∀ e pm d, a.session = 0 → a.cmd = 0 → a.plan = some (e, pm, d) →
        ((∃ x, v.pl.asked = some x ∧ 0 ≤ (e - x).toInt) → Answers (exec (.rsp p f a) s) fun t => t.pl.asked = none ∧ t.pl.epoch = v.pl.epoch ∧
          ∃ y, t.pl.prep = some y ∧ y.epoch = e ∧ y.dom = d ∧ y.plan = { pm with affected := affectedBy v.pl.plan pm [] } ∧ y.go.isSome = true) ∧
        ((∀ x, v.pl.asked = some x → (e - x).toInt < 0) → exec (.rsp p f a) s = .next v)) ∧
      ((a.session ≠ 0 ∨ a.cmd ≠ 0) →
        let which := v.mb.fwd.find? fun x => decide (x.1.tag = a.session) && decide (x.1.seq = a.seq) && decide (x.1.cmd = a.cmd)
        (which = none → exec (.rsp p f a) s = .next v) ∧
        (which = some (r, dst) →
          (a.interim = true → Answers (exec (.rsp p f a) s) fun t =>
            tdue t.timers (.reqTimeout a.session.toNat a.seq.toNat) = some (v.clk + 1000000000) ∧ t.mb = v.mb) ∧
          (a.interim = false → (r.cmd ≠ 0x0704 ∨ a.status ≠ 0) → Answers (exec (.rsp p f a) s) fun t => (∀ x ∈ t.mb.queue, x.key ≠ r.key) ∧
            (∀ n, r.src = .mailbox n → tfind t.mb.last n = some ⟨r.cmd, r.seq, a.status, 0, a.detail, v.now32, v.pl.epoch, a.payload, r.noirq, r.tag⟩)) ∧
          (a.interim = false → r.cmd = 0x0704 → a.status = 0 → (∃ x ∈ v.mb.fwd, x.1.key = r.key ∧ x.2 ≠ pairDst (pairOf f.srcMod)) →
            Answers (exec (.rsp p f a) s) fun t => t.mb.queue = v.mb.queue ∧ ∀ x ∈ t.mb.fwd, ¬(x.1.key = r.key ∧ x.2 = pairDst (pairOf f.srcMod))) ∧
          (a.interim = false → r.cmd = 0x0704 → a.status = 0 → (∀ x ∈ v.mb.fwd, x.1.key = r.key → x.2 = pairDst (pairOf f.srcMod)) →
            Answers (exec (.rsp p f a) s) fun t => ∀ x ∈ t.mb.queue, x.key ≠ r.key)))) ∧
    (s.forwarded session seq = some (r, dst) →
      (s.expired (.reqRetry session.toNat seq.toNat) = true → Answers (exec (.reqRetry session seq) s) fun t => t.mb = s.mb ∧
        (let x : Msg := .req (s.reqMsg r none); s.Routes t (s.msgFrame 2 (bitsAt dst 0 12) (bitsAt dst 14 2) x) (some x)) ∧
        tdue t.timers (.reqRetry session.toNat seq.toNat) = (tdue s.timers (.reqRetry session.toNat seq.toNat)).map (· + 10000000)) ∧
      (s.expired (.reqTimeout session.toNat seq.toNat) = true → Answers (exec (.reqTimeout session seq) s) fun t => Answered s t r .timeout 1 [])) ∧
    (s.forwarded session seq = none ∨ s.expired (.reqRetry session.toNat seq.toNat) = false → exec (.reqRetry session seq) s = .next s) ∧
    (s.forwarded session seq = none ∨ s.expired (.reqTimeout session.toNat seq.toNat) = false → exec (.reqTimeout session seq) s = .next s)

/-! ### Placement -/

/-- R134, R136 to R139, R155, R164, R251, R252: the leader and what each module knows of the others: a BEACON of the leader as a domain broadcast every millisecond, unless R134 gives the lead to another pair, and HEALTH to the leader; the BEACON of the leader, of a pair that leads before it, or after 3 ms of silence is heeded, another is not; 3 ms of silence starts queries in both directions of both rings, 100 µs later the leader is replaced or a silent pair counts as lost; an answer ends the query. A row whose condition does not hold keeps the state. -/
def Obligations.LeaderAndHealth : Prop :=
  ∀ (p : Port) (f : Frame) (pair : Fin 2048) (s : State),
    let u := s.afterFrame p f
    let src := pairOf f.srcMod
    let member := s.mod.st = .active ∨ s.mod.st = .synced ∨ s.mod.st = .unsynced
    let silentMod := fun m : Nat => ∀ h, tfind s.pl.health m = some h → 3000000 ≤ s.clk - h.at_
    let quiet := fun x : State => ∀ b, x.pl.lastBeacon = some b → 3000000 ≤ x.clk - b
    let elects := s.elect = none ∨ s.elect = some (pairOf s.module)
    (s.leads = true → s.due .beaconSend = true → Answers (exec .beaconSend s) fun t =>
      tdue t.timers .beaconSend = some ((tdue s.timers .beaconSend).getD s.clk + 1000000) ∧ t.pl.epoch = s.pl.epoch ∧
      (elects → t.pl = { s.pl with quorumRec := t.pl.quorumRec } ∧
        s.Floods t (s.mkFrame 5 0 s.module 3 s.now32 (pad4 (placePayload 0x01 false s.module s.pl.epoch 0 0 0 s.pairsHeard))) none) ∧
      (∀ q, s.elect = some q → q ≠ pairOf s.module → t.pl.leader = some q ∧ t.pl.lastBeacon = some s.clk ∧ t.out = s.out) ∧
      (s.quorum = false → t.pl.quorumRec.isSome = true)) ∧
    (s.leads = false ∨ s.due .beaconSend = false → exec .beaconSend s = .next s) ∧
    (member → s.stopping = false → s.due .healthFrame = true → Answers (exec .healthFrameSend s) fun t => t.pl = s.pl ∧
      tdue t.timers .healthFrame = some ((tdue s.timers .healthFrame).getD s.clk + 1000000) ∧
      (∀ q, q < 4096 → s.pl.leader = some q → ¬(pairOf s.module = q ∧ s.active = true) →
        s.Routes t (s.mkFrame 7 0 q 1 s.now32 (s.healthReport ++ s.healthTail)) none)) ∧
    (¬member ∨ s.stopping = true ∨ s.due .healthFrame = false → exec .healthFrameSend s = .next s) ∧
    (let here := s.Delivers p f ∧ f.ty = 5 ∧ 24 ≤ f.payload.length ∧ placeKind f = 1
     let heeded := ∀ l, u.pl.leader = some l → src = l ∨ u.leadsBefore src l = true ∨ (quiet u ∧ u.leads = false)
     (¬here → exec (.beacon p f) s = .next (s.afterPort p f)) ∧
     (here → heeded → Answers (exec (.beacon p f) s) fun t => t.pl.leader = some src ∧ t.pl.lastBeacon = some u.clk ∧ t.pl.epoch = u.pl.epoch ∧
       t.armed .leaderQuery = false ∧
       (termNewer (placeEpoch f) u.pl.epoch = true → (∀ y, u.pl.prep = some y → y.go = none) → t.pl.asked = some (placeEpoch f) ∧ t.pl.prep = none) ∧
       (termNewer (placeEpoch f) u.pl.epoch = false → t.pl.asked = u.pl.asked ∧ t.pl.prep = u.pl.prep)) ∧
     (here → ¬heeded → exec (.beacon p f) s = .next u)) ∧
    (let waits := member ∧ s.leads = false ∧ s.armed .leaderQuery = false ∧ quiet s
     (∀ l, waits → s.pl.leader = some l → Answers (exec .beaconTimeout s) fun t => t.pl = s.pl ∧ tdue t.timers .leaderQuery = some (s.clk + 100000) ∧ s.Queries t l) ∧
     (∀ q, waits → s.pl.leader = none → s.elect = some q → exec .beaconTimeout s = .next { s with pl := { s.pl with leader := some q, lastBeacon := some s.clk } }) ∧
     (waits → s.pl.leader = none → s.elect = none → exec .beaconTimeout s = .next s) ∧
     (¬waits → exec .beaconTimeout s = .next s)) ∧
    (∀ l, s.expired .leaderQuery = true → s.pl.leader = some l →
      let e := ({ s.disarm .leaderQuery with pl := { s.pl with health := terase (terase s.pl.health l) (l + 1) } }).elect
      Answers (exec .leaderQueryTimeout s) fun t => t.pl.leader = e ∧ t.armed .leaderQuery = false ∧ t.pl.epoch = s.pl.epoch ∧
        (e.isSome = true → t.pl.lastBeacon = some s.clk)) ∧
    (s.expired .leaderQuery = true → s.pl.leader = none → exec .leaderQueryTimeout s = .next (s.disarm .leaderQuery)) ∧
    (s.expired .leaderQuery = false → exec .leaderQueryTimeout s = .next s) ∧
    (let here := s.Delivers p f ∧ f.ty = 6
     (¬here → exec (.mgmtQueryAnswer p f) s = .next (s.afterPort p f)) ∧
     (here → Answers (exec (.mgmtQueryAnswer p f) s) fun t => t.pl.leader = u.pl.leader ∧ t.pl.health = u.pl.health ∧ t.mem = u.mem ∧
       (u.pl.leader = some src → u.armed .leaderQuery = true → t.pl.lastBeacon = some u.clk ∧ t.armed .leaderQuery = false) ∧
       (u.armed (.pairQuery src) = true → src ∉ t.pl.queries ∧ t.armed (.pairQuery src) = false) ∧
       ((u.pl.leader ≠ some src ∨ u.armed .leaderQuery = false) → u.armed (.pairQuery src) = false → t = u))) ∧
    (let here := s.Delivers p f ∧ f.ty = 7 ∧ 64 ≤ f.payload.length ∧ field f.payload 0 1 = 1
     (¬here → exec (.healthReportFrame p f) s = .next (s.afterPort p f)) ∧
     (here → Answers (exec (.healthReportFrame p f) s) fun t =>
       (∃ h, tfind t.pl.health f.srcMod = some h ∧ h.at_ = u.clk ∧ h.st = BitVec.ofNat 8 (field f.payload 6 1) ∧ h.epoch = BitVec.ofNat 32 (field f.payload 8 4)) ∧
       src ∉ t.pl.gone ∧ t.pl.epoch = u.pl.epoch ∧
       (f.srcMod = u.partner → t.pair.pReport = f.payload.take 64 ∧ t.pair.level = some (BitVec.ofNat 8 (field f.payload 1 1))))) ∧
    (let q := 2 * pair.val
     let suspect := s.leads = true ∧ q ∈ s.pairs ∧ q ≠ pairOf s.module ∧ q ∉ s.pl.gone ∧
       ((tfind s.pl.health q).isSome = true ∨ (tfind s.pl.health (q + 1)).isSome = true ∨ (tfind s.pl.dom.mods q).isSome = true) ∧ silentMod q ∧ silentMod (q + 1)
     (suspect → q ∉ s.pl.queries → Answers (exec (.pairLostDetect pair) s) fun t => t.pl = { s.pl with queries := q :: s.pl.queries } ∧
       tdue t.timers (.pairQuery q) = some (s.clk + 100000) ∧ s.Queries t q) ∧
     (suspect → q ∈ s.pl.queries → s.expired (.pairQuery q) = true → Answers (exec (.pairLostDetect pair) s) fun t =>
       t.pl.todo = s.pl.todo ++ [(.loss [q], none)] ∧ q ∈ t.pl.gone ∧ q ∉ t.pl.queries ∧ tfind t.pl.health q = none ∧ tfind t.pl.health (q + 1) = none) ∧
     (¬suspect ∨ (q ∈ s.pl.queries ∧ s.expired (.pairQuery q) = false) → exec (.pairLostDetect pair) s = .next s))

/-- R138, R146, R151 to R155, R263, R268, R299: an epoch from PREPARE to GO. The fragments of a PREPARE are gathered; a module that has checked and staged its part answers READY and is prepared for 100 ms, otherwise it answers REFUSE with the reason; READY of all gives the first GO, repeated every 100 µs until 500 µs before the apply instant; REFUSE, a switch not ready in 100 ms, and ABANDON end it; the modules of a pair compare their GO. R139, R152, R153, R155, R161, R256, R299: the leader issues an epoch for the next work only with a quorum, a loss abandons an epoch without GO; at the apply instant the plan, the merged Access Guard table and the class table of the epoch are in force and its number is current. A row whose condition does not hold keeps the state. -/
def Obligations.EpochsAgreedAndApplied : Prop :=
  (∀ (p : Port) (f : Frame) (plan : ModPlan) (dom : Domain) (data : List Byte) (w : State) (s : State),
     let e := placeEpoch f
     let body : Option Msg := some (.plan e (placeLoss f) plan dom)
     let u := s.afterFrame p f body
     let here := s.Delivers p f body ∧ f.ty = 5 ∧ 24 ≤ f.payload.length ∧ placeKind f = 2
     let whole := u.pl.leader = some (pairOf f.srcMod) ∧ u.fragments f = (some data, w)
     let sound := crc32c data = BitVec.ofNat 32 (field f.payload 16 4)
     let busy := ∃ y, w.pl.prep = some y ∧ y.epoch ≠ e ∧ y.go.isSome = true
     let refuses := fun (o : Host.Outcome State Fault Refusal) (v : State) (reason : Nat) =>
       Answers o fun t => t.pl = v.pl ∧ t.mem = v.mem ∧ v.Routes t (v.placeAnswer f 6 reason) none
     (¬here → exec (.prepare p f plan dom) s = .next (s.afterPort p f body)) ∧
     (here → u.pl.leader ≠ some (pairOf f.srcMod) → refuses (exec (.prepare p f plan dom) s) u 2) ∧
     (here → u.pl.leader = some (pairOf f.srcMod) → (u.fragments f).1 = none → Answers (exec (.prepare p f plan dom) s) fun t =>
       t = { u with pl := { u.pl with frags := t.pl.frags } }) ∧
     (here → whole → ¬sound → refuses (exec (.prepare p f plan dom) s) w 1) ∧
     (here → whole → sound → busy → refuses (exec (.prepare p f plan dom) s) w 4) ∧
     (∀ r, here → whole → sound → ¬busy → w.planFault plan = some r → refuses (exec (.prepare p f plan dom) s) w r) ∧
     (here → whole → sound → ¬busy → w.planFault plan = none → Answers (exec (.prepare p f plan dom) s) fun t =>
       t.pl = { w.pl with prep := some { epoch := e, leader := f.srcMod, loss := placeLoss f, plan := plan, dom := dom, go := none } } ∧
       tdue t.timers .prepared = some (w.clk + 100000000) ∧ w.Routes t (w.placeAnswer f 3 0) none)) ∧
  (∀ (p : Port) (f : Frame) (i : Issue) (x : Prep) (a : W64) (q : Nat) (g : GoMsg) (s : State),
     let u := s.afterFrame p f
     let e := placeEpoch f
     let here := fun kind : Nat => s.Delivers p f ∧ f.ty = 5 ∧ 24 ≤ f.payload.length ∧ placeKind f = kind
     let j : Issue := { i with ready := if f.srcMod ∈ i.ready then i.ready else f.srcMod :: i.ready }
     let mine := u.pl.issue = some i ∧ i.epoch = e ∧ f.srcMod ∈ i.mods
     let gone := fun v t : State => t.pl.issue = none ∧ t.armed .readyWait = false ∧ t.pl.epoch = v.pl.epoch ∧
       (v.firstOther i.mods q → v.Routes t (v.placeFrame q 5 (Work.isLoss i.work) i.epoch 0 0) none)
     (¬here 3 → exec (.ready p f) s = .next (s.afterPort p f)) ∧
     (here 3 → (∀ y, u.pl.issue = some y → y.epoch ≠ e ∨ f.srcMod ∉ y.mods) → exec (.ready p f) s = .next u) ∧
     (here 3 → mine → (i.go.isSome = true ∨ ∃ y ∈ i.mods, y ≠ f.srcMod ∧ y ∉ i.ready) → exec (.ready p f) s = .next { u with pl := { u.pl with issue := some j } }) ∧
     (here 3 → mine → i.go = none → (∀ y ∈ i.mods, y = f.srcMod ∨ y ∈ i.ready) → Answers (exec (.ready p f) s) fun t =>
       let v : State := { u with pl := { u.pl with issue := some j } }
       let b := v.applyInstant j
       let m : Msg := .placer { epoch := i.epoch, dom := i.dom }
       t.pl.issue = some { j with go := some b } ∧ tdue t.timers .goRepeat = some (u.clk + 100000) ∧ t.armed .readyWait = false ∧
       (u.partnerStandby = true → u.Tells t m) ∧
       (let v := if u.partnerStandby = true then u.toPartner m else u
        v.firstOther i.mods q → v.Routes t (u.placeFrame q 4 (Work.isLoss i.work) i.epoch (lo32 b) 0) none)) ∧
     (¬here 6 → exec (.refuse p f) s = .next (s.afterPort p f)) ∧
     (here 6 → (∀ y, u.pl.issue = some y → y.epoch ≠ e ∨ f.srcMod ∉ y.mods ∨ y.go.isSome = true) → exec (.refuse p f) s = .next u) ∧
     (here 6 → mine → i.go = none → Answers (exec (.refuse p f) s) fun t => gone u t ∧
       (Work.isRevert i.work = none → Work.refused i.work (placeReason f) = none → t.pl.todo = (i.work, i.req) :: u.pl.todo) ∧
       ((∃ y, Work.isRevert i.work = some y) ∨ (∃ y, Work.refused i.work (placeReason f) = some y) → t.pl.todo = u.pl.todo) ∧
       (∀ y, Work.isRevert i.work = some y → tdue t.timers (.revertRetry y) = some (u.clk + 1000000000))) ∧
     (¬here 4 → exec (.go p f) s = .next (s.afterPort p f)) ∧
     (here 4 → u.pl.leader ≠ some (pairOf f.srcMod) → Answers (exec (.go p f) s) fun t => t.pl = u.pl ∧ u.Routes t (u.placeAnswer f 6 2) none) ∧
     (here 4 → u.pl.leader = some (pairOf f.srcMod) → u.pl.prep = some x → x.epoch = e → x.go = none → Answers (exec (.go p f) s) fun t =>
       let b := extAfter u.now (placeApply f)
       t.pl = { u.pl with prep := some { x with go := some b } } ∧ t.armed .prepared = false ∧
       tdue t.timers .goCompare = some (u.clk + ((since b u.now).toNat - 500000))) ∧
     (here 4 → u.pl.leader = some (pairOf f.srcMod) → (∀ y, u.pl.prep = some y → y.epoch ≠ e ∨ y.go.isSome = true) → exec (.go p f) s = .next u) ∧
     (¬here 5 → exec (.abandon p f) s = .next (s.afterPort p f)) ∧
     (here 5 → u.pl.prep = some x → x.epoch = e → x.go = none → Answers (exec (.abandon p f) s) fun t => t.pl = { u.pl with prep := none } ∧ t.armed .prepared = false) ∧
     (here 5 → (∀ y, u.pl.prep = some y → y.epoch ≠ e ∨ y.go.isSome = true) → exec (.abandon p f) s = .next u) ∧
     (s.pl.issue = none → exec .goRepeat s = .next (s.disarm .goRepeat)) ∧
     (s.pl.issue = some i → (i.go = none ∨ s.expired .goRepeat = false) → exec .goRepeat s = .next s) ∧
     (s.pl.issue = some i → i.go = some a → s.expired .goRepeat = true →
       (since a s.now < 500000 → exec .goRepeat s = .next (s.disarm .goRepeat)) ∧
       (500000 ≤ since a s.now → Answers (exec .goRepeat s) fun t => tdue t.timers .goRepeat = (tdue s.timers .goRepeat).map (· + 100000) ∧ t.pl = s.pl ∧
         (s.firstOther i.mods q → s.Routes t (s.placeFrame q 4 (Work.isLoss i.work) i.epoch (lo32 a) 0) none))) ∧
     (s.expired .prepared = true → s.pl.prep = some x → x.go = none → exec .preparedEpochTimeout s = .next ({ s with pl := { s.pl with prep := none } }.disarm .prepared)) ∧
     (s.expired .prepared = true → (∀ y, s.pl.prep = some y → y.go.isSome = true) → exec .preparedEpochTimeout s = .next (s.disarm .prepared)) ∧
     (s.expired .prepared = false → exec .preparedEpochTimeout s = .next s) ∧
     (s.expired .readyWait = true → s.pl.issue = some i → i.go = none → Answers (exec .epochReadyTimeout s) fun t => gone s t ∧ t.pl.todo = s.pl.todo ∧
       (∀ y, Work.isRevert i.work = some y → tdue t.timers (.revertRetry y) = some (s.clk + 1000000000))) ∧
     (s.expired .readyWait = true → (∀ y, s.pl.issue = some y → y.go.isSome = true) → exec .epochReadyTimeout s = .next (s.disarm .readyWait)) ∧
     (s.expired .readyWait = false → exec .epochReadyTimeout s = .next s) ∧
     (s.expired .goCompare = true → s.pl.prep = some x → x.go = some a →
       (s.portUp .pl = true → s.unpaired = false → Answers (exec .goCompareInstant s) fun t => t.armed .goCompare = false ∧ t.pl = s.pl ∧
         s.Tells t (.goCmp { epoch := x.epoch, go := some a })) ∧
       (s.portUp .pl = false ∨ s.unpaired = true → exec .goCompareInstant s = .next (s.disarm .goCompare))) ∧
     (s.expired .goCompare = false ∨ (∀ y, s.pl.prep = some y → y.go = none) → exec .goCompareInstant s = .next s) ∧
     (s.pl.prep = some x → x.go = none → x.epoch = g.epoch → g.go = some a → s.portUp .pl = true → Answers (exec (.goCmp g) s) fun t =>
       t.pl = { s.pl with prep := some { x with go := some a } } ∧ t.armed .prepared = false ∧
       tdue t.timers .goCompare = some (s.clk + ((since a s.now).toNat - 500000))) ∧
     (s.portUp .pl = false ∨ g.go = none ∨ (∀ y, s.pl.prep = some y → y.epoch ≠ g.epoch ∨ y.go.isSome = true) → exec (.goCmp g) s = .next s)) ∧
  (∀ (w : Work) (req : Option (ReqSrc × W16 × W16)) (d : Domain) (x : Prep) (i : Issue) (st : Status) (r : Nat) (a : W64) (q : Nat) (s : State),
     let u := s.takeWork w req
     let v := u.asOfNow w
     let e := u.topEpoch + 1
     let mine := (tfind d.mods s.module).getD emptyPlan
     let free := s.leads = true ∧ s.quorum = true ∧ s.pl.issue = none ∧ s.pl.prep = none
     let taken := free ∧ s.nextWork = some (w, req)
     let plan := fun m : Nat => (tfind d.mods m).getD emptyPlan
     (s.leads = false → exec .epochIssue s = .next s) ∧
     (s.leads = true → s.quorum = false → Answers (exec .epochIssue s) fun t => t.pl.issue = s.pl.issue ∧ t.pl.prep = s.pl.prep ∧ t.pl.epoch = s.pl.epoch ∧
       t.pl.todo.length = s.pl.todo.length ∧ t.pl.quorumRec.isSome = true ∧ t.mem = s.mem ∧ t.out = s.out) ∧
     (s.leads = true → s.quorum = true → s.pl.issue = some i → (s.lossesDue = [] ∨ i.go.isSome = true) → exec .epochIssue s = .next s) ∧
     (s.leads = true → s.quorum = true → s.pl.issue = none → s.pl.prep.isSome = true → exec .epochIssue s = .next s) ∧
     (free → s.nextWork = none → exec .epochIssue s = .next s) ∧
     (s.leads = true → s.quorum = true → s.pl.issue = some i → s.lossesDue ≠ [] → i.go = none → Answers (exec .epochIssue s) fun t =>
       (∀ j, t.pl.issue = some j → Work.isLoss j.work = true) ∧ t.pl.epoch = s.pl.epoch ∧
       (s.firstOther i.mods q → s.Routes t (s.placeFrame q 5 (Work.isLoss i.work) i.epoch 0 0) none)) ∧
     (taken → u.computePlan v e = .inl st → Answers (exec .epochIssue s) fun t => t.pl = u.pl ∧ t.mem = s.mem ∧
       (∀ y, Work.isRevert v = some y → tdue t.timers (.revertRetry y) = some (s.clk + 1000000000))) ∧
     (taken → u.computePlan v e = .inr d → Answers (exec .epochIssue s) fun t => t.pl.epoch = s.pl.epoch ∧
       (u.firstOther (u.addressed_ v d) q →
         u.Routes t (u.mkFrame 5 0 q 0 u.now32 (placePayload 2 (Work.isLoss v) u.module e 0 (crc32c []) 0 0)) (some (.plan e (Work.isLoss v) (plan q) d))) ∧
       (u.planFault mine = none → (∃ j, t.pl.issue = some j ∧ j.epoch = e ∧ j.work = v ∧ j.dom = d ∧ j.mods = u.addressed_ v d ∧ j.req = req) ∧
         (∃ y, t.pl.prep = some y ∧ y.epoch = e ∧ y.dom = d ∧ y.plan = mine) ∧ t.pl.todo = u.pl.todo) ∧
       (u.planFault mine = some r → t.pl.issue = none ∧ t.pl.prep = none)) ∧
     ((∀ y, s.pl.prep = some y → y.go = none ∨ ∃ b, y.go = some b ∧ reached b s.now = false) → exec .epochApply s = .next s) ∧
     (s.pl.prep = some x → x.go = some a → reached a s.now = true → Answers (exec .epochApply s) fun t => t.pl.epoch = x.epoch ∧ t.pl.prep = none ∧ t.pl.asked = none ∧
       t.pl.plan = s.bindCan x.plan ∧ t.pl.dom = x.dom ∧ t.pl.lastApply = a ∧ t.guard.active = s.mergedRules x.plan ∧ t.guard.done = true ∧ t.mem = s.mem ∧
       t.pl.history = s.plansKept.take 2))

/-- R61, R145, R157 to R159, R162, R268, R269: state images and deltas of a moving task, of which one counts only over its complete predecessor; the newest delta that both modules of the new pair hold is agreed 5 µs before the switch boundary; frames held for an epoch are stale after 1 ms; a SAFE notice takes effect at the earliest entry instant among the orders that are open; the end of a confirm window starts a revert, tried again 1 s after one that was abandoned. A row whose condition does not hold keeps the state. -/
def Obligations.MigrationAndReverts : Prop :=
  ∀ (p : Port) (f : Frame) (d : DeltaMsg) (task : W32) (n : Nat) (part : Fin 512) (entry : W64) (code : W16) (y : Part) (m : Migr) (x : TaskPlan) (s : State),
    let bd : Option Msg := some (.delta d)
    let bn : Option Msg := some (.safeNotice part entry code.toNat)
    let u := s.afterFrame p f bd
    let v := s.afterFrame p f bn
    let held := fun (w : State) (k : W32) => w.pl.migr.find? fun m => m.incoming && decide (m.task = k)
    let from_ := (u.pl.plan.migrIn ++ (u.pl.prep.map (·.plan.migrIn)).getD []).find? fun q => decide (q.1 = d.task)
    let sender := ∃ o, from_ = some o ∧ pairOf f.srcMod = o.2
    let here := s.Delivers p f bd ∧ sender ∧ d.complete = true
    let prepares := (s.pl.plan.tasks ++ (s.pl.prep.map (·.plan.tasks)).getD []).find? fun t => decide (t.task = task)
    (¬s.Delivers p f bd → exec (.migrationDelta p f d) s = .next (s.afterPort p f bd)) ∧
    (s.Delivers p f bd → ¬(sender ∧ d.complete = true) → exec (.migrationDelta p f d) s = .next u) ∧
    (here → d.image = false → (held u d.task).map (·.newest) ≠ some (d.number - 1) → exec (.migrationDelta p f d) s = .next u) ∧
    (here → (d.image = true ∨ (held u d.task).map (·.newest) = some (d.number - 1)) → Answers (exec (.migrationDelta p f d) s) fun t => t.mem = u.mem ∧
      t = { u with pl := { u.pl with migr := t.pl.migr } } ∧
      (∃ z, held t d.task = some z ∧ z.newest = d.number ∧ z.final = d.final ∧ z.forces = d.forces ∧ z.agreed = none ∧
        (∀ w ∈ d.words, w ∈ z.words) ∧ (∀ b ∈ d.dm, b ∈ z.dm) ∧
        (held u d.task = some m → (∀ w ∈ m.words, (∀ q ∈ d.words, q.1 ≠ w.1) → w ∈ z.words) ∧ (∀ b ∈ m.dm, (∀ q ∈ d.dm, q.1 ≠ b.1) → b ∈ z.dm)) ∧
        (d.image = true → z.past = []) ∧ (d.image = false → held u d.task = some m → z.past = ⟨m.newest, m.words, m.dm, m.forces⟩ :: m.past)) ∧
      (∀ z, ¬(z.incoming = true ∧ z.task = d.task) → (z ∈ t.pl.migr ↔ z ∈ u.pl.migr))) ∧
    (prepares = some x → held s task = some m → s.switchNear x.cls = true → m.agreed = none → Answers (exec (.deltaAgreement task n) s) fun t =>
      t.pl = { s.pl with migr := s.pl.migr.map fun z => if z.incoming = true ∧ z.task = task then { z with agreed := some (min m.newest n) } else z } ∧
      s.Tells t (.agree task m.newest)) ∧
    (prepares = some x → held s task = some m → (s.switchNear x.cls = false ∨ m.agreed.isSome = true) → exec (.deltaAgreement task n) s = .next s) ∧
    (prepares = none ∨ held s task = none → exec (.deltaAgreement task n) s = .next s) ∧
    (let kept := s.pl.held.filter fun h => !decide (h.2.1 ≤ s.clk)
     Answers (exec .heldFrameExpiry s) fun t =>
      t.pl = { s.pl with held := kept, stale := s.pl.stale + (s.pl.held.filter fun h => decide (h.2.1 ≤ s.clk)).length } ∧
      (kept = [] → t.armed .held = false) ∧ (kept ≠ [] → t.timers = s.timers)) ∧
    (let ordered := fun z : Part => Answers (exec (.safeNotice p f part entry code) s) fun t => t.part? part = some z ∧ t = { v with parts := t.parts }
     (¬s.Delivers p f bn → exec (.safeNotice p f part entry code) s = .next (s.afterPort p f bn)) ∧
     (s.Delivers p f bn → v.part? part = none → exec (.safeNotice p f part entry code) s = .next v) ∧
     (s.Delivers p f bn → v.part? part = some y → y.state ≠ .running → ordered y) ∧
     (s.Delivers p f bn → v.part? part = some y → y.state = .running →
       (y.pend = none → ordered { y with pend := some (.safe, entry, code), was := .running, entered := [] }) ∧
       (∀ e c, y.pend = some (.safe, e, c) →
         (since entry e < 0 → y.entered = [] → ordered { y with pend := some (.safe, entry, code) }) ∧
         ((0 ≤ since entry e ∨ y.entered ≠ []) → ordered y)) ∧
       (∀ e c, y.pend = some (.loaded, e, c) →
         (since entry e < 0 → y.entered = [] → ordered { y with pend := some (.safe, entry, code), later := ⟨.loaded, e, c, []⟩ :: y.later }) ∧
         ((0 ≤ since entry e ∨ y.entered ≠ []) → ordered y)) ∧
       (∀ e c, y.pend = some (.running, e, c) → y.later = [] → ordered { y with later := [⟨.safe, entry, code, []⟩] }))) ∧
    (s.part? part = some y → s.leads = true → y.windowOver s.now = true → y.reverting = false → Answers (exec (.revertWindowEnd part) s) fun t =>
      t.part? part = some { y with reverting := true } ∧
      (s.revertBusy part = false → t.pl = { s.pl with todo := s.pl.todo ++ [(.revert part 1, none)] }) ∧ (s.revertBusy part = true → t.pl = s.pl)) ∧
    (s.part? part = some y → (s.leads = false ∨ y.windowOver s.now = false ∨ y.reverting = true) → exec (.revertWindowEnd part) s = .next s) ∧
    (s.part? part = none → exec (.revertWindowEnd part) s = .next s) ∧
    (s.expired (.revertRetry part) = false → exec (.revertRetry part) s = .next s) ∧
    (s.expired (.revertRetry part) = true → (s.leads = false ∨ s.revertBusy part = true ∨ (∀ z, s.part? part = some z → z.change ≠ .unconfirmed)) →
      exec (.revertRetry part) s = .next (s.disarm (.revertRetry part))) ∧
    (s.expired (.revertRetry part) = true → s.part? part = some y → s.leads = true → y.change = .unconfirmed → s.revertBusy part = false →
      Answers (exec (.revertRetry part) s) fun t => t.armed (.revertRetry part) = false ∧
        t.pl = { s.pl with todo := s.pl.todo ++ [(.revert part (if y.windowOver s.now then 1 else 0), none)] })

/-! ### The redundant pair -/

/-- R220, R223, R236 to R240, R254: heartbeats of the pair: sent every 10 µs, a received one renews what is known of the partner and the bound for the next, and settles roles and terms; misses start the queries over the rings, an answered query proves that the partner lives. R137, R164, R236: a liveness query is answered. R217, R223, R231, R236 to R239, R242, R245, R246, R248, R254: the roles: a standby takes over from a partner proved silent, gives up 1 ms after its last heartbeat, and steps aside where the partner lives; handovers are proposed, confirmed, refused, cancelled and made at H, with the next term on both sides. A row whose condition does not hold keeps the state. -/
def Obligations.HeartbeatsAndRoles : Prop :=
  (∀ (b : Heartbeat) (p : Port) (f : Frame) (s : State),
     let u := s.afterFrame p f
     let v : PartnerView := ⟨b.flags.setWidth 4, b.flags.getLsbD 5, b.flags.getLsbD 6, b.flags.getLsbD 7, b.term, b.seq, b.epoch⟩
     let was := (s.pair.view.map (·.st.toNat)).getD 0
     let h : State := ({ s with pair := { s.pair with view := some v, lastHb := some s.clk, misses := 0, firstMiss := none, echoed := false, qE := false, qW := false,
                                                       withhold := false } }.disarm .takeover).after .hbMiss 12000
     let live := s.pairLink = true ∧ s.stopping = false
     let newer := termNewer b.term s.pair.term = true
     let term := if termNewer b.term s.pair.term then b.term else s.pair.term
     (s.pairLink = false → exec (.heartbeat b) s = .next s) ∧
     (s.pairLink = true → s.stopping = true → exec (.heartbeat b) s = .next h) ∧
     (s.pairLink = true → Answers (exec (.heartbeat b) s) fun t => t.pair.view = some v ∧ t.pair.lastHb = some s.clk ∧ t.pair.misses = 0 ∧ t.pair.firstMiss = none ∧
       tdue t.timers .hbMiss = some (s.clk + 12000) ∧ t.armed .takeover = false ∧ t.mem = s.mem) ∧
     (live → s.mod.st = .active →
       (v.st = 6 → newer → Answers (exec (.heartbeat b) s) fun t => t.mod.st = .unsynced ∧ t.pair.term = b.term) ∧
       (v.st = 6 → ¬newer → exec (.heartbeat b) s = .next h) ∧
       (v.st = 5 → was = 5 → exec (.heartbeat b) s = .next h) ∧
       (v.st = 5 → was ≠ 5 → exec (.heartbeat b) s = .next { h with mod := { h.mod with solo := false } }) ∧
       (v.st ≠ 5 → v.st ≠ 6 → Answers (exec (.heartbeat b) s) fun t => t.mod.st = .active ∧ t.mod.solo = true ∧ t.pair.hand = none ∧ t.pair.adopt = [] ∧
         t.pair.term = s.pair.term ∧ (v.st = 4 → was ≠ 4 → ∃ ps, s.Tells t (.join (.config s.pl.epoch s.pair.term ps (s.cls.map fun c => (c.1, (c.2.period, c.2.phase))) s.nv.keys))))) ∧
     (live → s.mod.st = .joining →
       (v.st = 6 → Answers (exec (.heartbeat b) s) fun t => t.mod.st = .unsynced ∧ t.pair.term = term) ∧
       (v.st = 3 → s.preferred = true → Answers (exec (.heartbeat b) s) fun t => t.mod.st = .active ∧ t.pair.term = term + 1 ∧ t.mod.solo = true) ∧
       (v.st = 3 → s.preferred = false → Answers (exec (.heartbeat b) s) fun t => t.mod.st = .unsynced ∧ t.pair.term = term) ∧
       (v.st ≠ 3 → v.st ≠ 6 → Answers (exec (.heartbeat b) s) fun t => t.mod = s.mod ∧ t.pair.term = term ∧ tdue t.timers .partnerSilent = some (s.clk + 2000000000))) ∧
     (live → s.mod.st = .synced ∨ s.mod.st = .unsynced → exec (.heartbeat b) s =
       .next (if v.st = 6 ∧ termNewer b.term s.pair.term = true then { h with pair := { h.pair with term := b.term } } else h)) ∧
     (live → s.mod.st ≠ .active → s.mod.st ≠ .joining → s.mod.st ≠ .synced → s.mod.st ≠ .unsynced → exec (.heartbeat b) s = .next h) ∧
     (s.due .hbSend = false → exec .heartbeatSend s = .next s) ∧
     (s.due .hbSend = true → s.pairLink = true → s.stopping = false → Answers (exec .heartbeatSend s) fun t =>
       t.out = (if s.mod.isolated then s.out else .heartbeat s.ownHeartbeat :: s.out) ∧
       t.pair = { s.pair with hbSeq := s.pair.hbSeq + 1 } ∧ tdue t.timers .hbSend = some ((tdue s.timers .hbSend).getD s.clk + 10000)) ∧
     (s.due .hbSend = true → s.pairLink = false ∨ s.stopping = true → exec .heartbeatSend s = .next (s.again .hbSend 10000)) ∧
     (let due := s.expired .hbMiss = true ∧ s.powered = true ∧ s.stopping = false
      (¬due → exec .heartbeatMiss s = .next s) ∧
      (due → Answers (exec .heartbeatMiss s) fun t => t.pair.misses = s.pair.misses + 1 ∧
        t.pair.firstMiss = some (s.pair.firstMiss.getD s.clk) ∧ tdue t.timers .hbMiss = (tdue s.timers .hbMiss).map (· + 10000) ∧ t.mod = s.mod ∧
        (s.paired = true → s.pair.misses = 0 → tdue t.timers .takeover = some ((s.pair.lastHb.getD s.clk) + 45000)) ∧
        (s.paired = true → s.mod.st ≠ .active → s.Echoes t) ∧
        (s.paired = true → s.mod.st = .active → 2 ≤ s.pair.misses → s.mod.solo = false → s.Echoes t ∧ (s.armed .takeover = true → t.pair.withhold = true)))) ∧
     (let here := s.Delivers p f ∧ f.ty = 6
      let back := u.mkFrame 6 (0x10 + 0x20 * (if p = .w then 1 else 0)) u.partner 0 u.now32 (leBytes 4 (Config.mgmtWord 1).toNat)
      (¬here → exec (.echo p f) s = .next (s.afterPort p f)) ∧
      (here → u.stopping = true ∨ u.joined = false → exec (.echo p f) s = .next u) ∧
      (here → u.stopping = false → u.joined = true →
        (f.srcMod ≠ u.partner → Answers (exec (.echo p f) s) fun t => t.pair = u.pair ∧ t.mod = u.mod ∧ t.mem = u.mem ∧
          u.Routes t (u.mkFrame 6 0 f.srcMod 0 u.now32 (pad4 (leBytes 4 (Config.mgmtWord 3).toNat))) none) ∧
        (f.srcMod = u.partner → isRowPort p = true → Answers (exec (.echo p f) s) fun t => t.pair = u.pair ∧ t.mod = u.mod ∧ t.mem = u.mem ∧
          (u.clear p back = true → .frame p back ∈ t.out)) ∧
        (f.srcMod = u.partner → isRowPort p = false → exec (.echo p f) s = .next u))) ∧
     (let here := s.Delivers p f ∧ f.ty = 6 ∧ f.srcMod = s.partner
      let decides := 3 ≤ u.pair.misses ∧ u.armed .takeover = true ∧ u.pair.echoed = true
      (¬here → exec (.echoAnswer p f) s = .next (s.afterPort p f)) ∧
      (here → ¬decides → exec (.echoAnswer p f) s = .next u) ∧
      (here → decides → Answers (exec (.echoAnswer p f) s) fun t => t.armed .takeover = false ∧
        (u.mod.st = .active → t.mod.st = .active ∧ t.mod.solo = true) ∧
        (u.stopping = false → u.mod.st = .synced ∨ u.mod.st = .unsynced ∨ u.mod.st = .joining → t.mod.st = .unsynced)))) ∧
  (∀ (h : W64) (sw : Bool) (sent : W64) (term : W32) (x : Handover) (m : RoleMsg) (s : State),
     let tookOver := fun (t : State) => t.mod.st = .active ∧ t.mod.solo = true ∧ t.pair.term = s.pair.term + 1 ∧ t.pair.hand = none
     let due := s.expired .takeover = true ∧ s.paired = true ∧ s.stopping = false
     let judged := due ∧ 3 ≤ s.pair.misses ∧ s.pair.echoed = false
     let H := s.pairLink = true ∧ s.stopping = false
     let next := (tdue s.timers .hbMiss).getD (s.clk + 10000)
     (¬due → exec .takeoverEvaluation s = .next s) ∧
     (due → s.pair.misses < 3 → exec .takeoverEvaluation s = .next (s.arm .takeover next)) ∧
     (due → 3 ≤ s.pair.misses → s.pair.echoed = true → Answers (exec .takeoverEvaluation s) fun t => t.armed .takeover = false ∧ t.pair.term = s.pair.term ∧
       (s.mod.st = .active → t.mod.st = .active ∧ t.mod.solo = true) ∧ (s.mod.st ≠ .active → t.mod.st = .unsynced)) ∧
     (judged → s.mod.st = .active → Answers (exec .takeoverEvaluation s) fun t => t.mod.st = .active ∧ t.mod.solo = true ∧
       t.pair.term = s.pair.term ∧ t.armed .takeover = false) ∧
     (judged → s.mod.st ≠ .active → s.accounted = true → Answers (exec .takeoverEvaluation s) tookOver) ∧
     (judged → s.mod.st ≠ .active → s.accounted = false →
       (next ≤ s.pair.lastHb.getD 0 + 1000000 → exec .takeoverEvaluation s = .next (s.arm .takeover next)) ∧
       (s.pair.lastHb.getD 0 + 1000000 < next → Answers (exec .takeoverEvaluation s) fun t => t.mod.st = .unsynced ∧ t.armed .takeover = false)) ∧
     (let waits := s.mod.st = .joining ∧ s.expired .partnerSilent = true ∧ s.stopping = false
      let becomes := fun t : State => t.mod.st = .active ∧ t.mod.solo = true ∧ t.pair.term = s.pair.term + 1
      (¬waits → exec .joiningPartnerSilent s = .next s) ∧
      (waits → s.unpaired = true → Answers (exec .joiningPartnerSilent s) becomes) ∧
      (waits → s.unpaired = false → s.pair.echoed = true → Answers (exec .joiningPartnerSilent s) fun t => t.mod.st = .unsynced ∧ t.armed .partnerSilent = false) ∧
      (waits → s.unpaired = false → s.pair.echoed = false → s.pair.firstMiss.isSome = true → s.accounted = true → Answers (exec .joiningPartnerSilent s) becomes) ∧
      (waits → s.unpaired = false → s.pair.echoed = false → s.pair.firstMiss = none ∨ s.accounted = false →
        Answers (exec .joiningPartnerSilent s) fun t => t.pair.firstMiss = some (s.pair.firstMiss.getD s.clk) ∧
          tdue t.timers .partnerSilent = some (s.clk + 45000) ∧ t.mod = s.mod ∧ s.Echoes t)) ∧
     (let ends := fun t : State => t = { s with pair := { s.pair with hand := none }, parts := t.parts }
      (¬H → exec (.role m) s = .next s) ∧
      (H → s.active = true → s.confirms h sw = true → Answers (exec (.role (.propose h sw)) s) fun t =>
        t.pair = { s.pair with hand := some ⟨h, s.now + 100000, false, sw, 1⟩ } ∧ s.Tells t (.role (.confirm h s.now (s.pair.term + 1)))) ∧
      (H → s.active = true → s.confirms h sw = false → Answers (exec (.role (.propose h sw)) s) fun t => t.pair = { s.pair with hand := none } ∧ s.Tells t (.role .refuse)) ∧
      (H → s.mod.st = .synced → sw = true → s.pair.hand = none → Answers (exec (.role (.propose h sw)) s) fun t =>
        t.pair = { s.pair with hand := some ⟨s.proposedH, 0, true, true, 0⟩ } ∧ s.Tells t (.role (.propose s.proposedH true))) ∧
      (H → s.active = false → s.mod.st ≠ .synced ∨ sw = false ∨ s.pair.hand.isSome = true → exec (.role (.propose h sw)) s = .next s) ∧
      (H → s.pair.hand = some x → x.incoming = true → x.stage = 0 → x.h = h → exec (.role (.confirm h sent term)) s =
        .next { s with pair := { s.pair with hand := some { x with conf := sent + 100000, stage := 1 } } }) ∧
      (H → (∀ y, s.pair.hand = some y → y.incoming = false ∨ y.stage ≠ 0 ∨ y.h ≠ h) → exec (.role (.confirm h sent term)) s = .next s) ∧
      (H → Answers (exec (.role .refuse) s) ends ∧ Answers (exec (.role .cancel) s) ends) ∧
      (H → s.mod.st = .synced → Answers (exec (.role .giveWay) s) tookOver) ∧
      (H → s.mod.st ≠ .synced → exec (.role .giveWay) s = .next s)) ∧
     (∀ a, let waits := s.mod.st = .synced ∧ s.preferred = true ∧ s.due .takeBack = true ∧ s.stopping = false
      let open_ := s.nv.inhibit = false ∧ s.disputeOpen = false ∧ s.epochSoon = false ∧ s.pair.hand = none
      (¬waits ∨ s.pair.syncedAt = none → exec .takeBackEvaluation s = .next s) ∧
      (waits → s.pair.syncedAt = some a → s.clk - a < s.nv.hold * 1000000000 → exec .takeBackEvaluation s = .next s) ∧
      (waits → s.pair.syncedAt = some a → s.nv.hold * 1000000000 ≤ s.clk - a → ¬open_ → exec .takeBackEvaluation s = .next (s.again .takeBack 1000000000)) ∧
      (waits → s.pair.syncedAt = some a → s.nv.hold * 1000000000 ≤ s.clk - a → open_ → Answers (exec .takeBackEvaluation s) fun t =>
        t.pair = { s.pair with hand := some ⟨s.proposedH, 0, true, false, 0⟩ } ∧ s.Tells t (.role (.propose s.proposedH false)) ∧
        tdue t.timers .takeBack = some ((tdue s.timers .takeBack).getD s.clk + 1000000000))) ∧
     (s.pair.hand = some x → x.stage = 1 → reached x.h s.now = true → s.stopping = false →
       (x.incoming = true → Answers (exec .handoverInstant s) fun t => t.mod.st = .active ∧ t.mod.solo = false ∧ t.pair.term = s.pair.term + 1) ∧
       (x.incoming = false → Answers (exec .handoverInstant s) fun t => t.mod.st = .synced ∧ t.pair.term = s.pair.term + 1 ∧ t.pair.syncedAt = some s.clk)) ∧
     ((∀ y, s.pair.hand = some y → y.stage ≠ 1 ∨ reached y.h s.now = false) ∨ s.stopping = true → exec .handoverInstant s = .next s))

/-- R221, R225 to R228, R231 to R233: signatures, bundles asked for and adopted, mirrored cycles. Every entry of a SIG is kept unless its lateness was decided, and its task resolved; a bundle asked for is sent where it is held; words whose signature is the partner's are written into NEXT, others fail the adoption and the module gives way, as it does 2 µs after the request; a mirrored cycle goes into NEXT, or into CURRENT where the class now runs hot; a MIRROR that is owed and late ends STANDBY SYNCED. A row whose condition does not hold keeps the state. -/
def Obligations.SignaturesAndMirrors : Prop :=
  ∀ (f : Frame) (task bnd : W32) (words : List BWord) (a : Adopt) (m : MirrorMsg) (part : Fin 512) (k : Fin 8) (w : W32 × W64 × List BWord) (pb b : W64) (s : State),
    (let bs := f.payload
     let u := s.afterFrame .pl f
     let n := field bs 8 1
     let p := field bs 2 2 % 512
     let c := field bs 1 1 % 8
     let here := s.powered = true ∧ s.Delivers .pl f ∧ f.ty = 6 ∧ f.scope = 0 ∧ f.srcMod = s.partner ∧ field bs 0 1 = 0x20 ∧ 1 ≤ n ∧ n ≤ 63 ∧ 16 + 16 * n ≤ bs.length
     let b := extNear u.now (BitVec.ofNat 32 (field bs 4 4))
     let e := sigEntry bs u.clk
     let x := u.cycle p c b
     (¬here → exec (.sig f) s = .next (s.afterPort .pl f)) ∧
     (here → Answers (exec (.sig f) s) fun t => t.mem = u.mem ∧ ∀ i < n, ((t.cycle p c b).partnerOf (e i).task).isSome = true ∨ (e i).task ∈ (t.cycle p c b).latePartner) ∧
     (here → n = 1 → x.partnerOf (e 0).task = none → (e 0).task ∉ x.latePartner →
       exec (.sig f) s = .next ((u.setCycle { x with partner := x.partner ++ [e 0] }).resolveTask p c b (e 0).task)) ∧
     (here → (∀ i < n, (x.partnerOf (e i).task).isSome = true ∨ (e i).task ∈ x.latePartner) → exec (.sig f) s = .next u)) ∧
    (let found := s.words.find? fun q => decide (q.1 = task) && decide (lo32 q.2.1 = bnd)
     (s.pairLink = false ∨ found = none → exec (.bundleReq task bnd) s = .next s) ∧
     (s.pairLink = true → found = some w → Answers (exec (.bundleReq task bnd) s) fun t => t.mem = s.mem ∧ t.words = s.words ∧ s.Tells t (.bundle task bnd w.2.2))) ∧
    (let fails := fun t : State => t.mem = s.mem ∧ a ∉ t.pair.adopt ∧ t.armed (.adoption task.toNat) = false ∧ (task, false) ∈ (t.cycle a.part a.cls a.bnd).settled ∧
       (s.stopping = false → s.mod.st = .synced → t.mod.st = .unsynced) ∧
       (s.stopping = false → s.mod.st = .active → s.partnerSynced = true → s.mod.solo = false → t.mod.st = .unsynced ∧ s.Tells t (.role .giveWay)) ∧
       (s.stopping = false → s.mod.st = .active → s.partnerSynced = false ∨ s.mod.solo = true → t.mod.st = .safe)
     let here := s.pairLink = true ∧ s.adoption task = some a ∧ lo32 a.bnd = bnd ∧ s.overdue (.adoption task.toNat) = false
     (¬(s.pairLink = true ∧ (∃ y, s.adoption task = some y ∧ lo32 y.bnd = bnd) ∧ s.overdue (.adoption task.toNat) = false) → exec (.bundle task bnd words) s = .next s) ∧
     (here → signature words ≠ a.sig → Answers (exec (.bundle task bnd words) s) fails) ∧
     (here → signature words = a.sig → Answers (exec (.bundle task bnd words) s) fun t => a ∉ t.pair.adopt ∧ (task, a.bnd) ∈ t.inNext ∧
       t.words.head? = some (task, a.bnd, words) ∧ (task, true) ∈ (t.cycle a.part a.cls a.bnd).settled ∧ t.armed (.adoption task.toNat) = false ∧
       t.mem = (s.intoNext a.cls (s.findTask task) words).mem ∧ t.mod = s.mod) ∧
     (s.adoption task = some a → s.expired (.adoption task.toNat) = true → Answers (exec (.adoptionTimeout task) s) fails) ∧
     (s.adoption task = none ∨ s.expired (.adoption task.toNat) = false → exec (.adoptionTimeout task) s = .next s)) ∧
    (let stands := s.mod.st = .synced ∨ s.mod.st = .unsynced
     let takes := s.pairLink = true ∧ m.complete = true ∧ stands
     let x := s.cls_ m.cls
     let noted := s.mod.st = .synced ∨ x.bnd = none ∨ x.bnd.map lo32 = some m.bnd
     let into := fun bank : Nat => (m.dm.foldl (fun (y : State) d => y.wrMem (dmAddr d.1 d.2.1) 1 d.2.2.toNat) (m.words.foldl (fun (y : State) w => y.wrImg bank w.lii w.val) s)).mem
     (¬takes → exec (.mirror m) s = .next s) ∧
     (takes → m.committed = false → Answers (exec (.mirror m) s) fun t => t.mem = s.mem ∧ t.setRx = s.setRx ∧ t.pubSeq = s.pubSeq ∧
       (noted → t.pair.mirrorRx.head? = some m) ∧ (¬noted → t.pair.mirrorRx = s.pair.mirrorRx) ∧
       (s.mod.st = .unsynced → s.pair.sync.image = true → s.hotIn m.part m.cls (extNear s.now m.bnd) = false → (m.part, m.cls) ∈ t.pair.sync.clean)) ∧
     (takes → m.committed = true → Answers (exec (.mirror m) s) fun t => (noted → t.pair.mirrorRx.head? = some m) ∧
       (x.bnd = none → t.mem = into (s.nextBank m.cls)) ∧
       (x.bnd = some b → m.bnd = lo32 b → x.prevBnd.map lo32 ≠ some m.bnd → s.executes m.part m.cls b = false → t.mem = into (s.nextBank m.cls) ∧ (t.cycle m.part m.cls b).committed = true) ∧
       (x.bnd = some b → m.bnd ≠ lo32 b → x.prevBnd.map lo32 = some m.bnd →
         (s.hotIn m.part m.cls b = true → t.mem = into (s.curBank m.cls)) ∧
         (s.hotIn m.part m.cls b = false → t.mem = into (s.nextBank m.cls) ∧ (t.cycle m.part m.cls b).committed = true)) ∧
       (∀ q, m.pubSeq = [q] → tfind t.pubSeq q.1.toNat = some q.2) ∧
       (s.mod.st = .unsynced → s.pair.sync.image = true → s.hotIn m.part m.cls (extNear s.now m.bnd) = false → (m.part, m.cls) ∈ t.pair.sync.clean))) ∧
    (let c := pb - BitVec.ofNat 64 ((s.cls_ k).period * 1000)
     let held := ∃ x ∈ s.pair.mirrorRx, x.part = part.val ∧ x.cls = k.val ∧ x.bnd = lo32 c
     ((s.cls_ k).prevBnd = none → exec (.mirrorLate part k) s = .next s) ∧
     ((s.cls_ k).prevBnd = some pb → s.mirrorOwed part k c = false ∨ held → exec (.mirrorLate part k) s = .next s) ∧
     ((s.cls_ k).prevBnd = some pb → s.stopping = false → s.mirrorOwed part k c = true → ¬held → Answers (exec (.mirrorLate part k) s) fun t =>
       t.mod.st = .unsynced ∧ t.pair.syncedAt = none ∧ t.mem = s.mem))

/-- R39, R57, R135, R206, R207, R245, R251, R255, R257, R258, R320, R377, R378, R391, R403, R405: what a joining module takes from its ACTIVE partner, part by part, and the RING_PLAN that opens its bypass; when it is synchronised; the Health Report, every 100 ms to the partner and as a notice; the trip and CAN words of the ACTIVE module, latched 5 µs before a boundary and kept by its standby, late ones too. A row whose condition does not hold keeps the state. -/
def Obligations.JoiningAndWords : Prop :=
  ∀ (pm : PlacerMsg) (m : JoinMsg) (e term : W32) (parts : List JoinPart) (classes : Table (Nat × Nat)) (keys : Table (List Byte)) (plan : ModPlan) (d : Domain) (k : Fin 8) (c : Fin 4)
    (ti td : W64) (objs : List (List W64)) (window : List W64) (fs : List (W32 × W64 × Nat)) (ws : List (Nat × W64)) (qs : List (W32 × W32)) (os : List (W32 × Nat))
    (fz : List (W32 × Nat × W32 × W32 × Bool)) (row : Bool) (t0 b : W64) (pt : Nat) (s : State),
    let y := s.pair.sync
    (s.pairLink = false ∨ s.active = true → exec (.placer pm) s = .next s) ∧
    (s.pairLink = true → s.active = false → (∀ x, s.pl.prep = some x → x.epoch ≠ pm.epoch) → exec (.placer pm) s = .next { s with pl := { s.pl with dom := pm.dom } }) ∧
    (s.pairLink = true → s.active = false → ∀ x, s.pl.prep = some x → x.epoch = pm.epoch → exec (.placer pm) s = .next { s with pl := { s.pl with prep := some { x with dom := pm.dom } } }) ∧
    (let takes := s.pairLink = true ∧ (s.mod.st = .joining ∨ s.mod.st = .unsynced)
     let stands := s.mod.st = .active ∨ s.mod.st = .synced ∨ s.mod.st = .unsynced
     let cut := s.cutLink row s.partner
     let w := s.setLink cut fun x => { x with planT0 := some t0 }
     let kept := fun (t : State) (z : SyncSt) => t.pair.sync = z ∧ t.mod = { s.mod with syncPct := SyncSt.pct z }
     (s.pairLink = false → exec (.join m) s = .next s) ∧
     (s.mod.st ≠ .joining → s.mod.st ≠ .unsynced → (∀ r x, m ≠ .bypass r x) → m ≠ .request → exec (.join m) s = .next s) ∧
     (¬stands → exec (.join (.bypass row t0)) s = .next s) ∧
     (s.pairLink = true → stands → Answers (exec (.join (.bypass row t0)) s) fun t => (∃ x ∈ t.ring.links, x.link = cut ∧ x.planT0 = some t0) ∧
       tfind t.ring.repeats (if row then 4 else 5) = some (2, [cut], 4) ∧
       w.Floods t (w.mkFrame 7 0 w.module 3 w.now32 (pad4 [4])) (some (.notice 4 [cut] t0))) ∧
     (s.active = false → exec (.join .request) s = .next s) ∧
     (s.pairLink = true → s.active = true → Answers (exec (.join .request) s) fun t =>
       ∃ ps, s.Tells t (.join (.config s.pl.epoch s.pair.term ps (s.cls.map fun c => (c.1, (c.2.period, c.2.phase))) s.nv.keys))) ∧
     (takes → Answers (exec (.join (.config e term parts classes keys)) s) fun t => t.pl.epoch = e ∧ t.pair.term = term ∧ t.nv = { s.nv with keys := keys } ∧ kept t { y with config := true }) ∧
     (takes → Answers (exec (.join (.plan plan)) s) fun t => t.pl.plan = plan ∧ t.guard.active = ruleTable (plan.rules ++ s.guard.configured) ∧
       t.nv = (s.nv.follow plan s.pl.dom).moveAll ∧ t.nv.moves = [] ∧ kept t { y with plan := true }) ∧
     (takes → Answers (exec (.join (.packages d)) s) fun t => t.pl.dom = d ∧ t.nv = (s.nv.follow s.pl.plan d).moveAll ∧ t.nv.moves = [] ∧ t.mem = s.mem ∧
       kept t { y with packages := true }) ∧
     (takes → Answers (exec (.join (.forces fs)) s) fun t => t.forces = (fs.map fun q => ⟨q.1, q.2.1, q.2.2, s.now, none, true⟩) ∧ t.mem = s.mem ∧ kept t { y with forces := true }) ∧
     (takes → Answers (exec (.join (.image ws qs os fz)) s) fun t =>
       t.mem = (ws.foldl (fun (x : State) q => (x.wrImg 0 q.1 q.2).wrImg 1 q.1 q.2) s).mem ∧ t.pubSeq = qs.foldl (fun z q => tput z q.1.toNat q.2) [] ∧
       t.overrun = os.foldl (fun z q => tput z q.1.toNat q.2) [] ∧ kept t { y with image := true }) ∧
     (takes → Answers (exec (.join (.cleanCycle pt k.val)) s) fun t => t.mem = s.mem ∧ kept t { y with clean := (pt, k.val) :: y.clean })) ∧
    (let level := ∃ lvl, s.pair.level = some lvl ∧ lvl.toNat ≤ 1
     let holds := s.mod.st = .unsynced ∧ s.stopping = false ∧ s.portUp .pl = true ∧ level ∧ y.config = true ∧ y.plan = true ∧ y.packages = true ∧
       y.forces = true ∧ y.image = true ∧ s.nv.moves = [] ∧ s.timeErr ≤ 1000 ∧ s.allClean = true ∧ s.modFault = false ∧ s.partnerActive = true
     (holds → Answers (exec .syncComplete s) fun t => t.mod.st = .synced ∧ t.mod.syncPct = 100 ∧ t.pair.syncedAt = some s.clk ∧ t.pair.sync = { y with restarts := 0 } ∧
       t.armed .takeBack = false ∧ t.mem = s.mem) ∧
     (¬holds → exec .syncComplete s = .next s)) ∧
    (s.powered = true → s.due .healthReport = true → Answers (exec .healthReportTimer s) fun t => t.mod = { s.mod with hrSeq := s.mod.hrSeq + 1 } ∧
      tdue t.timers .healthReport = some ((tdue s.timers .healthReport).getD s.clk + 100000000) ∧
      t.mb = s.mb.queueNotice 0 (s.mkNotice 0xF001 s.healthReport) ∧
      (let f := s.mkFrame 7 0 s.partner 0 s.now32 s.healthReport
       s.pairLink = true → s.clear .pl f = true → .frame .pl f ∈ t.out)) ∧
    (s.powered = false ∨ s.due .healthReport = false → exec .healthReportTimer s = .next s) ∧
    (let x := s.canOf c
     let run : W16 := (ti >>> 32).setWidth 16
     let tripLate := s.wordsLate k (tfind s.trip.lateAt k) = true
     let canLate := s.wordsLate k (tfind x.lateAt k) = true
     let here := s.pairLink = true ∧ s.freezesPartner = true
     (¬here → exec (.tripWords k ti td) s = .next s ∧ exec (.canWords k c objs window) s = .next s) ∧
     (here → ¬tripLate → exec (.tripWords k ti td) s = .next { s with trip := { s.trip with pPairRun := run, rxIn := tput s.trip.rxIn k (ti, td) } }) ∧
     (here → tripLate → Answers (exec (.tripWords k ti td) s) fun t => t.trip = { s.trip with pPairRun := run, lateAt := terase s.trip.lateAt k, tripIn := tput s.trip.tripIn k ti, tripDiag := tput s.trip.tripDiag k td }) ∧
     (here → ¬canLate → exec (.canWords k c objs window) s = .next (s.setCan c { x with rx := tput x.rx k (objs, window) })) ∧
     (here → canLate → Answers (exec (.canWords k c objs window) s) fun t =>
       t.canOf c = { x with lateAt := terase x.lateAt k, latched := tput x.latched k (objs, window) })) ∧
    (s.latchDue k = none → exec (.tripWordLatch k) s = .next s) ∧
    (s.latchDue k = some b → Answers (exec (.tripWordLatch k) s) fun t => tfind t.trip.latchFor k = some b ∧
      (s.freezesPartner = false → tfind t.trip.tripIn k = some s.trip.words.1 ∧ tfind t.trip.tripDiag k = some s.trip.words.2) ∧
      (s.freezesPartner = true → t.trip.tripIn = s.trip.tripIn ∧ t.trip.tripDiag = s.trip.tripDiag) ∧
      (∀ n < 4, t.canOf n = ((s.canOf n).latchAt k (!s.freezesPartner)).1) ∧
      (s.active = true → s.partnerStandby = true → s.mod.isolated = false → s.Tells t (.tripWords k s.trip.words.1 s.trip.words.2)))

/-! ### Host Port and mailboxes -/

/-- R284, R307 to R312, R314, R316, R317, R329: the transactions of the Host Port: alignment, the 4 KiB block, HRDY, unknown commands, the registers of the host, the latch of a 64-bit pair and the interrupt. R305, R290 to R293, R297, R298: the staging table of the Access Guard, its check and the commit; the active table changes only through a check that finds no bad rule and no overlap. R26, R288, R289, R301, R302: an access of a service core stores its bytes and no others, a read returns what memory holds; at the level of a partition the Access Guard refuses an access no rule grants, counts it and memory keeps its contents. -/
def Obligations.HostGuardAndServiceAccesses : Prop :=
  (∀ (addr : BitVec 24) (v w : W32) (len : Nat) (data : List Byte) (cmd : Byte) (q : Requester) (s : State),
     let a := addr.toNat
     let ready := s.powered = true ∧ s.pins.hrdy = true
     let z : State := { s with pins := { s.pins with hio := [] } }
     let u := z.count (ctrEv 0x40 1 0)
     let known := [0x0B#8, 0x02, 0xEB, 0x32]
     exec (.qread addr len) s = exec (.read addr len) s ∧ exec (.qwrite addr data) s = exec (.write addr data) s ∧
     (s.powered = false → exec (.read addr len) s = .next z ∧ exec (.write addr data) s = .next z) ∧
     (s.powered = true → s.pins.hrdy = false →
       (Answers (exec (.read addr len) s) fun t => t.host.err = s.host.err ||| 2 ∧ t.pins.hio = [] ∧ t.mb = s.mb) ∧
       (Answers (exec (.write addr data) s) fun t => t.host.err = s.host.err ||| 2 ∧ t.mb = s.mb ∧ t.host.mask = s.host.mask)) ∧
     (ready → a % 4 ≠ 0 → len ≤ 4096 - a % 4096 → Answers (exec (.read addr len) s) fun t => t.host.err = s.host.err ||| 1 ∧ t.pins.hio = List.replicate len 0) ∧
     (ready → a % 4 = 0 → (u.readWord a .host).1 = some v → Answers (exec (.read addr 4) s) fun t => t.pins.hio = leBytes 4 v.toNat ∧ t.mem = s.mem) ∧
     (ready → a % 4 = 0 → (u.readWord a .host).1 = none → Answers (exec (.read addr 4) s) fun t => t.host.err = s.host.err ||| 8 ∧ t.pins.hio = [0, 0, 0, 0]) ∧
     (ready → a % 4 = 0 → 4096 - a % 4096 < len → Answers (exec (.read addr len) s) fun t => t.host.err.getLsbD 4 = true ∧ t.pins.hio.length = len ∧
       t.pins.hio.drop (4096 - a % 4096) = List.replicate (len - (4096 - a % 4096)) 0) ∧
     (ready → a % 4 ≠ 0 ∨ data.length % 4 ≠ 0 → data.length ≤ 4096 - a % 4096 → Answers (exec (.write addr data) s) fun t => t.host.err = s.host.err ||| 1 ∧ t.mb = s.mb) ∧
     (ready → a % 4 = 0 → a % 4096 + 8 ≤ 4096 → exec (.write addr (leBytes 4 v.toNat ++ leBytes 4 w.toNat)) s = .next ((u.writeWord a v).writeWord (a + 4) w)) ∧
     (ready → a % 4 = 0 → u.hostWord a = none → Answers (exec (.write addr (leBytes 4 v.toNat)) s) fun t => t.host.err = s.host.err ||| 8 ∧ t.mb = s.mb) ∧
     (ready → s.mod.st = .recovery → a % 4 = 0 → (u.hostWord a).isSome = true → inRecovery a = false → exec (.write addr (leBytes 4 v.toNat)) s = .next u) ∧
     (ready → a = 0x110 → Answers (exec (.write addr (leBytes 4 v.toNat)) s) fun t => t.host.mask = v.setWidth 4 ∧ t.mb = s.mb) ∧
     (ready → a = 0x10C → v.getLsbD 0 = true → Answers (exec (.write addr (leBytes 4 v.toNat)) s) fun t =>
       t.host.stMbox = false ∧ t.host.doze = false ∧ t.host.stState = (s.host.stState && !v.getLsbD 3)) ∧
     (ready → cmd ∉ known → Answers (exec (.hostUnknownCommand cmd) s) fun t => t.host.err = s.host.err ||| 4 ∧ t.mb = s.mb) ∧
     (s.powered = true → s.pins.hrdy = false → cmd ∉ known → Answers (exec (.hostUnknownCommand cmd) s) fun t => t.host.err = s.host.err ||| 2 ∧ t.mb = s.mb) ∧
     (s.powered = false → cmd ∉ known → exec (.hostUnknownCommand cmd) s = .next z) ∧
     (cmd ∈ known → exec (.hostUnknownCommand cmd) s = .next s) ∧
     (s.powered = true → hostLo a = true → Answers (exec (.hostLoRead addr q) s) fun t => (t.readWord (a + 4) q).1 = s.wordFor (a + 4) q ∧ t.mem = s.mem ∧ t.mb = s.mb) ∧
     (s.powered = false ∨ hostLo a = false → exec (.hostLoRead addr q) s = .next s) ∧
     (ready → Answers (exec .hCtlDozeWrite s) fun t => t.host.doze = true ∧ t.mb = s.mb) ∧
     (¬ready → exec .hCtlDozeWrite s = .next s) ∧
     (s.expired .irqMod = false → exec .irqModerationExpiry s = .next s) ∧
     (s.expired .irqMod = true → Answers (exec .irqModerationExpiry s) fun t => t.armed .irqMod = false ∧ t.host.stMbox = s.host.stMbox ∧ t.mb = s.mb) ∧
     (∀ t0, s.expired .irqMod = true → s.host.irqEn = true → s.host.mask.getLsbD 0 = true → s.host.stMbox = true → s.host.unsig = some t0 →
       t0 + s.host.modNs ≤ s.clk → Answers (exec .irqModerationExpiry s) fun t => t.pins.hirq = true ∧ t.host.unsig = none)) ∧
  (∀ (v : W32) (addr : BitVec 40) (s : State),
     let g := s.guard
     (g.checking = false → exec (.gWdata3Write v) s = .next { s with guard := { g with
       wdata3 := v, widx := g.widx + 1,
       staging := tput g.staging g.widx.toNat (Rule.clean { attr := g.wdata0, base := g.wdata1, limit := g.wdata2, origin := v }) } }) ∧
     (g.checking = true → exec (.gWdata3Write v) s = .next { s with guard := { g with wdata3 := v } }) ∧
     (exec (.gCommitWrite v) s = .next { s with guard := { g with checking := g.checking || v.getLsbD 0 } }) ∧
     (g.checking = true → (∀ x ∈ g.staging, Rule.bad x.2 = false) → firstOverlap g.staging = none →
       exec .guardCheckDone s = .next { s with guard := { g with checking := false, active := g.staging, done := true } }) ∧
     (g.checking = true → (∃ x ∈ g.staging, Rule.bad x.2 = true) → Answers (exec .guardCheckDone s) fun t => t.guard.active = g.active ∧ t.guard.badrule = true ∧
       t.guard.checking = false ∧ t.guard.done = g.done) ∧
     (∀ a b, g.checking = true → firstOverlap g.staging = some (a, b) → Answers (exec .guardCheckDone s) fun t => t.guard.active = g.active ∧ t.guard.overlap = true ∧
       t.guard.checking = false ∧ t.guard.done = g.done ∧ t.guard.ovlA = BitVec.ofNat 12 a ∧ t.guard.ovlB = BitVec.ofNat 12 b) ∧
     (g.checking = false → exec .guardCheckDone s = .next s) ∧
     (exec .gNmissRead s = .next { s with guard := { g with nmiss := 0 } }) ∧
     (s.powered = true → addr.toNat = 0x6000010014 → exec (.registerWrite addr v) s = .next { s with guard := { g with wdata0 := v } }) ∧
     (s.powered = true → addr.toNat = 0x6000010020 → exec (.registerWrite addr v) s = exec (.gWdata3Write v) s) ∧
     (s.powered = true → addr.toNat = 0x6000010008 → exec (.registerWrite addr v) s = exec (.gCommitWrite v) s) ∧
     (s.powered = false ∨ addr.toNat % 4 ≠ 0 → exec (.registerWrite addr v) s = .next s)) ∧
  (∀ (core : Fin 4) (addr : BitVec 40) (kind : AccessKind) (data : List Byte) (s : State),
     let a := addr.toNat
     let act := tget 0 s.guard.act core
     let sound := s.powered = true ∧ ∀ w, s.eccOf w = none
     let inRam := a + max data.length 1 ≤ 0x200000000
     let granted := fun k : AccessKind => act.msb = false ∨ s.guard.allows ⟨act.toNat % 512, .service, k, core, a, data.length⟩ = true
     (s.powered = false → exec (.privilegedAccess core addr kind data) s = .next s) ∧
     (sound → granted .w → inRam → Answers (exec (.privilegedAccess core addr .w data) s) fun t =>
       (∀ i, i < data.length → Mem.rd t.mem (a + i) = (data[i]?).getD 0) ∧ (∀ i, i < a ∨ a + data.length ≤ i → Mem.rd t.mem i = Mem.rd s.mem i) ∧
       t.out = s.out ∧ t.lanes = s.lanes ∧ t.guard = s.guard) ∧
     (sound → kind ≠ .w → granted kind → inRam → Answers (exec (.privilegedAccess core addr kind data) s) fun t =>
       t.out = .core core ((List.range data.length).map fun i => Mem.rd s.mem (a + i)) :: s.out ∧ t.mem = s.mem) ∧
     (s.powered = true → act.msb = true → ¬granted kind →
       Answers (exec (.privilegedAccess core addr kind data) s) fun t => t.mem = s.mem ∧ t.out = s.out ∧
         t.guard.nmiss = (if s.guard.nmiss = 0xFFFFFFFF then s.guard.nmiss else s.guard.nmiss + 1) ∧
         (s.guard.fltValid = false → t.guard.fltValid = true ∧ t.guard.fltAddr = addr ∧ t.guard.fltPart = BitVec.ofNat 9 (act.toNat % 512))))

/-- R284, R285, R318, R324 to R326: a submitted request that fails one of the first checks is answered at once (length over 4,064, unknown command, no session, BOOT), and one that passes joins its queue with its time limit; a repeat of the last request returns the stored response with bit 2 of RFLAGS. A second SUBMIT before the response is released sets H_ERR.DB. R318 to R320: RESPONSE_FILL places the response, or without one the oldest notice, in a free buffer, with BUF 1 or 2, MBOX set unless the request forbade it, and the oldest notice's LOST count; RELEASE frees the buffer. RECOVERY has mailbox 0 and its own commands only. -/
def Obligations.MailboxRequestsAndResponses : Prop :=
  (∀ (n : Fin 512) (s : State),
     let bs := s.reqBytes n (32 + min (field (s.reqBytes n 8) 4 4) 4064)
     let len := field bs 4 4
     let r := (headerOf (.mailbox n) (s.partOf (.mailbox n) bs) bs).req
     let there := s.powered = true ∧ (s.mod.st = .recovery → n = 0)
     let fresh := ∀ x, tfind s.mb.last n = some x → x.key ≠ r.tag ∨ x.cmd ≠ r.cmd ∨ x.seq ≠ r.seq
     let known := r.cmd.toNat ∈ (if s.mod.st = .recovery then recoveryCmds else cmdCodes)
     let admitted := if s.mod.st = .recovery then r.tag = 0 else r.cmd = 0x0101 ∨ (s.session (.mailbox n) r.tag).isSome = true
     (¬there → exec (.submit n) s = .next s) ∧
     (there → (s.bell n).out = true → Answers (exec (.submit n) s) fun t => t.host.err = s.host.err ||| 0x20 ∧ t.mb = s.mb) ∧
     (there → (s.bell n).out = false →
       (fresh → 4064 < len → Answers (exec (.submit n) s) fun t => Answered s t r .badLen 0 [] ∧ (t.bell n).out = true) ∧
       (fresh → len ≤ 4064 → ¬known → Answers (exec (.submit n) s) fun t => Answered s t r .badCmd 0 []) ∧
       (fresh → len ≤ 4064 → known → ¬admitted → Answers (exec (.submit n) s) fun t => Answered s t r .denied 0 []) ∧
       (fresh → len ≤ 4064 → known → admitted → s.mod.st = .boot → Answers (exec (.submit n) s) fun t => Answered s t r .notNow 0 []) ∧
       (fresh → len ≤ 4064 → known → admitted → s.mod.st ≠ .boot →
         Answers (exec (.submit n) s) fun t => (∃ x, t.mb.queue = s.mb.queue ++ [x] ∧ x = { r with login := x.login }) ∧
           tdue t.timers r.limit = some (s.clk + cmdLimit r.cmd.toNat r.payload) ∧ (t.bell n).out = true ∧ (t.bell n).seq = BitVec.ofNat 16 (field bs 2 2)) ∧
       (∀ x, tfind s.mb.last n = some x → x.key = r.tag → x.cmd = r.cmd → x.seq = r.seq → Answers (exec (.submit n) s) fun t =>
         tfind t.mb.ready n = some { x with rflags := x.rflags ||| 4, noirq := r.noirq } ∧ t.mb.queue = s.mb.queue))) ∧
  (∀ (n : Fin 512) (s : State),
     let there := s.powered = true ∧ (s.mod.st = .recovery → n = 0)
     (s.powered = false ∨ (s.bell n).buf ≠ 0 → exec (.responseFill n) s = .next s) ∧
     (s.powered = true → (s.bell n).buf = 0 → ∀ r, tfind s.mb.ready n.val = some r → Answers (exec (.responseFill n) s) fun t =>
       tget [] t.host.rsp n = r.bytes ∧ (t.bell n).buf = 1 ∧ tfind t.mb.ready n.val = none ∧ (r.noirq = false → t.host.stMbox = true)) ∧
     (s.powered = true → (s.bell n).buf = 0 → tfind s.mb.ready n.val = none → ∀ r rest, tget [] s.mb.notices n.val = r :: rest →
       Answers (exec (.responseFill n) s) fun t => tget [] t.host.rsp n = (r.withLost (tget 0 s.mb.lost n.val)).bytes ∧ (t.bell n).buf = 2 ∧
         tget [] t.mb.notices n.val = rest ∧ tfind t.mb.lost n.val = none ∧ (r.noirq = false → t.host.stMbox = true)) ∧
     (tfind s.mb.ready n.val = none → tget [] s.mb.notices n.val = [] → exec (.responseFill n) s = .next s) ∧
     (¬there → exec (.release n) s = .next s) ∧
     (there → (s.bell n).buf ≠ 0 → Answers (exec (.release n) s) fun t =>
       (t.bell n).buf = 0 ∧ (t.bell n).out = ((s.bell n).out && decide ((s.bell n).buf ≠ 1)) ∧ tget [] t.host.rsp n = [] ∧
       t = { s with host := { s.host with db := t.host.db, rsp := t.host.rsp } }) ∧
     (there → (s.bell n).buf = 0 → Answers (exec (.release n) s) fun t => t.host.err = s.host.err ||| 0x20 ∧ t.mb = s.mb ∧ t.host.db = s.host.db))

/-- R286, R323 to R328, R333, R345: a TLS connection is accepted with a chained certificate while fewer than 16 exist; a request on it is checked as on a mailbox, answered BUSY while one is open, and closes the connection where it is too long; a connection without a session closes after 10 s, one that closes ends its sessions; an idle session ends; a command that reaches its limit is answered TIMEOUT; a delayed reset stops the module in order. R323, R335, R337, R338, R345: opening and closing sessions with AUTH_FAIL's lock, module information, reset, configuration items, host keys and certificates, each with its checks in the order of R324, where it acts (R330) and its effect. -/
def Obligations.ConnectionsAndSessions : Prop :=
  (∀ (port : Fin 2) (cert : Nat) (c : Fin 16) (tag : W64) (q : ReqSrc) (bytes : List Byte) (s : State),
     let unused := fun k : Nat => k < 16 ∧ (∀ y ∈ s.mb.tls, y.conn ≠ k) ∧ ∀ y ∈ s.mb.queue, srcIx y.src ≠ 512 + k
     (s.ipOn port.val = true → s.mb.tls.length < 16 → (∃ k, unused k) → Answers (exec (.tlsAccept port true cert) s) fun t =>
       ∃ k, unused k ∧ t.mb.tls = s.mb.tls ++ [{ conn := k, cert := cert, busy := false }] ∧ tdue t.timers (.tlsSession k) = some (s.clk + 10000000000)) ∧
     (s.ipOn port.val = false ∨ 16 ≤ s.mb.tls.length ∨ ¬(∃ k, unused k) → exec (.tlsAccept port true cert) s = .next s) ∧
     (exec (.tlsAccept port false cert) s = .next s) ∧
     (Answers (exec (.tlsClose c) s) fun t => (∀ x ∈ t.mb.tls, x.conn ≠ c.val) ∧ (∀ y ∈ t.mb.sessions, y.src ≠ .tls c)) ∧
     (s.expired (.tlsSession c.val) = false → exec (.tlsNoSessionTimeout c) s = .next s) ∧
     (s.expired (.tlsSession c.val) = true → s.mod.st ≠ .recovery → (∀ y ∈ s.mb.sessions, srcIx y.src ≠ 512 + c.val) →
       Answers (exec (.tlsNoSessionTimeout c) s) fun t => (∀ x ∈ t.mb.tls, x.conn ≠ c.val) ∧ t.out = .tlsClosed c.val :: s.out) ∧
     (s.expired (.tlsSession c.val) = true → (∃ y ∈ s.mb.sessions, srcIx y.src = 512 + c.val) →
       Answers (exec (.tlsNoSessionTimeout c) s) fun t => t = { s with timers := t.timers } ∧ t.armed (.tlsSession c.val) = false) ∧
     (s.mod.st = .recovery → (∀ y ∈ s.mb.sessions, srcIx y.src ≠ 512 + c.val) → exec (.tlsNoSessionTimeout c) s = .next s) ∧
     (let src : ReqSrc := .tls c
      let len := field bytes 4 4
      let h := headerOf src (s.partOf src bytes) bytes
      let r := h.req
      let open_ := ∃ x ∈ s.mb.tls, x.conn = c.val
      let whole := 32 ≤ bytes.length ∧ (len ≤ 4064 → 32 + len ≤ bytes.length)
      let fresh := ∀ x, tfind s.mb.last (512 + c.val) = some x → x.key ≠ r.tag ∨ x.cmd ≠ r.cmd ∨ x.seq ≠ r.seq
      (¬open_ ∨ ¬whole → exec (.tlsRequest c bytes) s = .next s) ∧
      (open_ → whole → (∀ x ∈ s.mb.tls, x.conn = c.val → x.busy = true) →
        Answers (exec (.tlsRequest c bytes) s) fun t => t.mb = s.mb ∧ ∃ b, t.out = .tls c.val b :: s.out ∧ field b 8 2 = 1) ∧
      (open_ → whole → (∀ x ∈ s.mb.tls, x.conn = c.val → x.busy = false) →
        (∀ st, fresh → s.firstChecks h = some st → Answers (exec (.tlsRequest c bytes) s) fun t => ∃ b, Out.tls c.val b ∈ t.out ∧ field b 8 2 = st.num) ∧
        (4064 < len → Answers (exec (.tlsRequest c bytes) s) fun t => Out.tlsClosed c.val ∈ t.out ∧ ∀ x ∈ t.mb.tls, x.conn ≠ c.val) ∧
        (fresh → s.firstChecks h = none → Answers (exec (.tlsRequest c bytes) s) fun t =>
          (∃ x, t.mb.queue = s.mb.queue ++ [x] ∧ x = { r with login := x.login }) ∧ (∀ x ∈ t.mb.tls, x.conn = c.val → x.busy = true) ∧
            tdue t.timers r.limit = some (s.clk + cmdLimit r.cmd.toNat r.payload)) ∧
        (∀ x, tfind s.mb.last (512 + c.val) = some x → x.key = r.tag → x.cmd = r.cmd → x.seq = r.seq →
          Answers (exec (.tlsRequest c bytes) s) fun t => Out.tls c.val (Response.bytes { x with rflags := x.rflags ||| 4, noirq := r.noirq }) ∈ t.out))) ∧
     (∀ x, (s.mb.sessions.find? fun y => decide (y.tag = tag)) = some x →
       (x.idle * 1000000000 ≤ s.clk - x.last → Answers (exec (.sessionIdleExpiry tag) s) fun t => ∀ y ∈ t.mb.sessions, y.tag ≠ tag) ∧
       (s.clk - x.last < x.idle * 1000000000 → exec (.sessionIdleExpiry tag) s = .next s)) ∧
     ((∀ y ∈ s.mb.sessions, y.tag ≠ tag) → exec (.sessionIdleExpiry tag) s = .next s) ∧
     (∀ r, (s.mb.queue.find? fun r => decide (r.src = q) && s.expired r.limit) = some r → Answers (exec (.commandTimeout q) s) fun t =>
       Answered s t r .timeout 0 [] ∧ ∀ w ∈ t.pl.todo, w.2 ≠ some r.key) ∧
     ((∀ r ∈ s.mb.queue, r.src = q → s.expired r.limit = false) → exec (.commandTimeout q) s = .next s) ∧
     (∀ cause, s.mod.resetDue = some cause → s.expired .delayedReset = true → s.mod.stop = .none →
       Answers (exec .delayedReset s) fun t => t.mod.stop = .waiting cause false ∧ t.mod.resetDue = none ∧ t.trip.drive = 0 ∧
         tdue t.timers .stopWait = some (s.clk + if s.mod.st = .active then 1000000 else 100000)) ∧
     (∀ cause c w, s.mod.resetDue = some cause → s.expired .delayedReset = true → s.mod.stop = .waiting c w →
       Answers (exec .delayedReset s) fun t => t.mod.stop = .waiting (mergeCause c cause) w) ∧
     (s.mod.resetDue = none ∨ s.expired .delayedReset = false → exec .delayedReset s = .next s)) ∧
  (∀ (q : ReqSrc) (r : Request) (part : Fin 512) (key : List Byte) (certs : CertSet) (s : State),
     let is := fun code : Nat => s.reqOf q code = some r
     (is 0x0101 →
       let o := exec (.openSession q) s
       let ix := srcIx r.src
       let p := field r.payload 2 2
       let step := field r.payload 0 1
       let opened := fun t : State => ∃ x ∈ t.mb.sessions, x.part = p ∧ x.src = r.src ∧ x.idle = s.nv.idle ∧ x.last = s.clk ∧ x.login = none ∧
         (s.mb.issued.length + 2 < 2 ^ 64 → x.tag ≠ 0 ∧ x.tag ∉ s.mb.issued) ∧ (∀ n, r.src = .mailbox n → ∀ y ∈ t.mb.sessions, y.src = r.src → y = x) ∧
         Answered s t r .ok 0 (leBytes 8 x.tag.toNat ++ leBytes 4 s.nv.idle)
       let failed := fun t : State => Answered s t r .denied 0 [] ∧ t.mb.sessions = s.mb.sessions ∧
         (s.locked ix = true → t.locked ix = true) ∧
         (s.locked ix = false → t.locked ix = decide (5 ≤ ((tget AuthSt.reset s.mb.auth ix).fails.filter fun u => decide (s.clk - u ≤ 60000000000)).length + 1))
       Runs o s r [lenIs r 40, openForm r] .here (
         (step = 1 → s.locked ix = true → Refuses o s r .denied) ∧
         (step = 1 → s.locked ix = false → Answers o fun t => ∃ tag bs, tfind t.mb.chal ix = some (tag, bs, s.clk + 10000000000) ∧ bs.length = 32 ∧
           Answered s t r .ok 0 (leBytes 4 tag.toNat ++ bs) ∧ t.mb.sessions = s.mb.sessions) ∧
         (step = 2 → s.locked ix = false → s.proofOk r p = true → Answers o opened) ∧
         (step = 2 → s.locked ix = true ∨ s.proofOk r p = false → Answers o fun t => failed t ∧ tfind t.mb.chal ix = none) ∧
         (step = 0 → s.locked ix = false → s.certFor (ix - 512) p = true → Answers o opened) ∧
         (step = 0 → s.locked ix = true ∨ s.certFor (ix - 512) p = false → Answers o failed))) ∧
     (is 0x0102 → Runs (exec (.closeSession q) s) s r [lenIs r 0] .here (Answers (exec (.closeSession q) s) fun t => Answered s t r .ok 0 [] ∧
       (∀ x, x ∈ t.mb.sessions ↔ x ∈ s.mb.sessions ∧ x.tag ≠ r.tag) ∧ t.mb.notices = s.mb.notices)) ∧
     (is 0x0103 → Runs (exec (.moduleInfo q) s) s r [lenIs r 0] .here (AnswersOnly (exec (.moduleInfo q) s) s r
       (leBytes 4 Config.hid.toNat ++ leBytes 4 (BitVec.ofNat 32 (Config.issue.toNat * 2 ^ 24 + s.fw.toNat / 256)).toNat ++ leBytes 8 Config.serial.toNat
         ++ [BitVec.ofNat 8 s.mod.st.code, BitVec.ofNat 8 (SlotSt.num s.nv.slotA.st), BitVec.ofNat 8 (SlotSt.num s.nv.slotB.st), (s.healthReport[1]?).getD 0]))) ∧
     (is 0x0104 → Runs (exec (.moduleReset q) s) s r [lenIs r 4, sys r, flagsOk r, (decide (s.mod.st ≠ .active) || decide (field r.payload 0 4 % 2 = 1), .notNow)] .here (
       Answers (exec (.moduleReset q) s) fun t => Answered s t r .ok 0 [] ∧ t.mod = { s.mod with resetDue := some 0x20 } ∧
         tdue t.timers .delayedReset = some (s.clk + 10000000))) ∧
     (is 0x0105 → Runs (exec (.configSet q) s) s r (s.configChecks r) r.configActs (Answers (exec (.configSet q) s) fun t =>
       Answered s t r .ok 0 [] ∧ ∀ x, r.items = some [x] →
         (x.1 = 1 → t.nv = { s.nv with pendDomain := some (BitVec.ofNat 16 (field x.2 0 2), field x.2 2 1, field x.2 3 1) }) ∧
         (x.1 = 2 → tfind t.nv.preferOdd (field x.2 1 2) = if field x.2 0 1 = 1 then some true else none) ∧
         (x.1 = 3 → t.nv = { s.nv with idle := field x.2 0 4 }) ∧
         (x.1 = 4 → t.nv = { s.nv with pendIp := some (BitVec.ofNat 32 (field x.2 0 4), BitVec.ofNat 32 (field x.2 4 4), BitVec.ofNat 32 (field x.2 8 4)) }) ∧
         (x.1 = 5 → s.executor .leader = true →
           let flag := fun i => decide (bitsAt (field x.2 2 2) i 1 = 1)
           t.pl.todo = s.pl.todo ++ [(.flags (field x.2 0 2) (flag 0) (flag 1) (flag 2) (flag 3), none)]) ∧
         (domainItem x.1 = true → s.Carries t r []))) ∧
     (is 0x0106 → Runs (exec (.configGet q) s) s r [] .here (∃ bs, bs.length ≤ 4064 ∧ AnswersOnly (exec (.configGet q) s) s r bs)) ∧
     (is 0x0107 → Runs (exec (.hostkeySet q part key) s) s r
         [(decide (key.length = 32), .badLen), sys r, (decide (part.val = 0) || (s.part? part).isSome, .checkFail)] .pair (
       Answers (exec (.hostkeySet q part key) s) fun t => Answered s t r .ok 0 [] ∧ tfind t.nv.keys part = some key ∧ s.Mirrors t r [])) ∧
     (is 0x0108 → Runs (exec (.certInstall q certs) s) s r [sys r, (certs.chains, .checkFail)] .pair (
       Answers (exec (.certInstall q certs) s) fun t => Answered s t r .ok 0 [] ∧ t.nv = { s.nv with certs := some certs } ∧ s.Mirrors t r [])))

/-- R163: a mailbox request whose epoch field is nonzero and differs from the current epoch is answered STALE_EPOCH and has no effect, for every command that carries the field; a field of 0 accepts any epoch. -/
def Obligations.StaleEpochRefused : Prop :=
  ∀ (q : ReqSrc) (r : Request) (part : Fin 512) (k : Fin 8) (cfg : PartCfg) (x : Reserve) (parts : List Nat) (pkgs : List Package) (vids : List W32)
    (pub : StationPub) (s : State), r.part = 0 →
    let is := fun code : Nat => s.reqOf q code = some r
    let len := r.payload.length
    let refused := fun (o : Host.Outcome State Fault Refusal) => Refuses o s r .staleEpoch
    (field r.payload 0 4 ≠ 0 → field r.payload 0 4 ≠ s.pl.epoch.toNat →
      (is 0x0201 → refused (exec (.partitionCreate q cfg) s)) ∧ (is 0x0202 → refused (exec (.partitionRemove q part) s)) ∧
      (is 0x0203 → refused (exec (.partitionStart q part) s)) ∧ (is 0x0204 → refused (exec (.partitionStop q part) s)) ∧
      (is 0x0206 → len = 8 → refused (exec (.partitionSetProfile q) s)) ∧ (is 0x0209 → refused (exec (.guardCommit q) s)) ∧
      (is 0x020C → refused (exec (.partitionSetReservation q part x) s)) ∧ (is 0x0301 → len = 16 → refused (exec (.programLoad q pkgs) s)) ∧
      (is 0x0302 → len = 20 → refused (exec (.programActivate q) s)) ∧ (is 0x0303 → len = 8 → refused (exec (.programConfirm q) s)) ∧
      (is 0x0304 → len = 8 → refused (exec (.programRevert q) s)) ∧ (is 0x0306 → len = 8 → refused (exec (.programDiscard q) s)) ∧
      (is 0x0401 → ∀ period phase, refused (exec (.classSet q k period phase) s)) ∧ (is 0x0403 → len = 12 → refused (exec (.placeQuery q) s)) ∧
      (is 0x0404 → refused (exec (.placeRebalance q parts) s)) ∧
      (is 0x0701 → s.forceTurn q 0x0701 = true → len = 24 → refused (exec (.forceSet q) s)) ∧
      (is 0x0702 → s.forceTurn q 0x0702 = true → len = 16 → refused (exec (.forceClear q) s)) ∧
      (is 0x0704 → vids.length ≤ 250 → refused (exec (.varRead q vids) s)) ∧ (is 0x0B06 → refused (exec (.stationPubSet q pub) s))) ∧
    (field r.payload 0 4 = 0 → s.executor .leader = true → is 0x0209 → WorkTaken (exec (.guardCommit q) s) s r .guard)

/-- R333: a command of the system partition from a session of another one is answered DENIED and has no effect; so is one on a partition that is not the session's own. R326: a command row whose source holds no accepted request of its code, whose turn it is, changes nothing. -/
def Obligations.RightsChecked : Prop :=
  (∀ (c : Instr) (code : Nat) (q : ReqSrc) (s : State), c.command = some (code, q) → s.reqOf q code = none → exec c s = .next s) ∧
  ∀ (q : ReqSrc) (r : Request) (part : Fin 512) (s : State), r.part ≠ 0 →
    let is := fun code : Nat => s.reqOf q code = some r
    let len := r.payload.length
    let denied := fun (o : Host.Outcome State Fault Refusal) => Refuses o s r .denied
    (is 0x0104 → len = 4 → denied (exec (.moduleReset q) s)) ∧ (is 0x0209 → denied (exec (.guardCommit q) s)) ∧
    (is 0x0202 → denied (exec (.partitionRemove q part) s)) ∧ (is 0x0501 → denied (exec (.pairStatus q) s)) ∧
    (is 0x0502 → denied (exec (.pairSwitch q) s)) ∧ (is 0x0503 → len = 4 → denied (exec (.pairRevertInhibit q) s)) ∧
    (is 0x0504 → len = 4 → denied (exec (.pairSetHold q) s)) ∧ (is 0x0505 → len = 4 → denied (exec (.pairService q) s)) ∧
    (is 0x0705 → denied (exec (.forceClearAll q) s)) ∧ (is 0x0802 → len = 4 → denied (exec (.recClear q) s)) ∧
    (is 0x0903 → len = 0 → denied (exec (.updateVerify q) s)) ∧ (is 0x0904 → len = 4 → denied (exec (.updateActivate q) s)) ∧
    (is 0x0905 → len = 0 → denied (exec (.commitUpdate q) s)) ∧ (is 0x0906 → len = 4 → denied (exec (.updateRollback q) s)) ∧
    (is 0x0908 → len = 4 → denied (exec (.enterRecovery q) s)) ∧ (is 0x0B03 → len = 12 → denied (exec (.canDetectRate q) s)) ∧
    (r.part ≠ part.val → (is 0x0203 → denied (exec (.partitionStart q part) s)) ∧ (is 0x0204 → denied (exec (.partitionStop q part) s)) ∧
      (is 0x0205 → denied (exec (.partitionSafe q part) s)) ∧ (is 0x020B → denied (exec (.partitionStatus q part) s)) ∧
      (is 0x0305 → denied (exec (.programStatus q part) s))) ∧
    (r.part ≠ r.partAt4 → (is 0x0302 → len = 20 → denied (exec (.programActivate q) s)) ∧ (is 0x0303 → len = 8 → denied (exec (.programConfirm q) s)) ∧
      (is 0x0304 → len = 8 → denied (exec (.programRevert q) s)) ∧ (is 0x0306 → len = 8 → denied (exec (.programDiscard q) s)))

/-- R30, R37, R38, R42, R172, R256, R259, R260, R262, R267, R268, R299, R336: the commands that an epoch answers, each with its checks in the order of R324. The leader takes each up as work, and the request waits for the epoch; any other module forwards it. R39, R52, R60, R61, R63, R83, R171, R294, R303: starting, stopping and SAFE of a partition, its policy, and the configured Access Guard rules. A start or stop is ordered for the next boundary of its slowest class, SAFE for 100 µs on, rounded up to a whole microsecond; the leader carries what it ordered to the other modules. -/
def Obligations.PartitionAndEpochCommands : Prop :=
  (∀ (q : ReqSrc) (r : Request) (part : Fin 512) (cfg : PartCfg) (x : Reserve) (parts : List Nat) (k : Fin 8) (period phase : Nat) (pkgs : List Package) (s : State),
     let is := fun code : Nat => s.reqOf q code = some r
     let takes := fun (o : Host.Outcome State Fault Refusal) (checks : List (Bool × Status)) (w : Work) => Runs o s r checks .leader (WorkTaken o s r w)
     let p := r.partAt4
     (is 0x0201 → takes (exec (.partitionCreate q cfg) s) [sys r, s.epochIs r,
        (decide (1 ≤ cfg.part) && decide (cfg.part < 512) && (domPart s.pl.dom cfg.part).isNone && Reserve.wf cfg.reserve, .checkFail),
        (permits cfg.crit cfg.profile, .denied)] (.create cfg)) ∧
     (is 0x0202 → takes (exec (.partitionRemove q part) s) [sys r, s.epochIs r, ((s.part? part).isSome, .checkFail),
        (((s.part? part).map fun y => decide (y.state = .loaded) && y.pend.isNone && decide (y.change = .none)).getD false, .notNow)] (.remove part)) ∧
     (is 0x0206 → takes (exec (.partitionSetProfile q) s) (s.profileChecks r) (.profile p ((profileOfNum (field r.payload 6 1)).getD .winter))) ∧
     (is 0x0209 → takes (exec (.guardCommit q) s) [sys r, s.epochIs r] .guard) ∧
     (is 0x020C → takes (exec (.partitionSetReservation q part x) s) [sys r, s.epochIs r, ((s.part? part).isSome && Reserve.wf x, .checkFail)] (.reservation part x)) ∧
     (is 0x0302 → takes (exec (.programActivate q) s) [lenIs r 20, s.ownP r p, s.epochIs r,
        ((s.part? p).isSome && decide (60 ≤ r.window) && decide (r.window ≤ 259200), .checkFail), (decide ((s.part? p).map (·.state) ≠ some .safe), .safeState),
        (!s.profileBusy p, .busy), (decide (s.changeOf p = some .staged) && s.pl.issue.isNone && s.pl.prep.isNone, .notNow)]
        (.switch p (BitVec.ofNat 64 (field r.payload 8 8)) r.window false)) ∧
     (is 0x0303 → takes (exec (.programConfirm q) s) [lenIs r 8, s.ownP r p, s.epochIs r, ((s.part? p).isSome, .checkFail),
        (decide (s.changeOf p = some .unconfirmed), .notNow), (s.allSwitched p, .notNow)] (.confirm p)) ∧
     (is 0x0304 → takes (exec (.programRevert q) s) [lenIs r 8, s.ownP r p, s.epochIs r, ((s.part? p).isSome, .checkFail),
        (decide (s.changeOf p = some .unconfirmed), .notNow), (!s.revertBusy p, .busy)] (.revert p 0)) ∧
     (is 0x0306 → takes (exec (.programDiscard q) s) [lenIs r 8, own r p, s.epochIs r, ((s.part? p).isSome, .checkFail),
        (decide (s.changeOf p = some .staged), .notNow)] (.discard p)) ∧
     (is 0x0401 → takes (exec (.classSet q k period phase) s) [sys r, s.epochIs r,
        (decide (period % 10 = 0) && decide (100 ≤ period) && decide (period ≤ 1000000) && decide (phase < period), .checkFail), (s.classFree k, .notNow)]
        (.classSet k period phase)) ∧
     (is 0x0404 → takes (exec (.placeRebalance q parts) s) [sys r, s.epochIs r, (parts.all fun y => (s.part? y).isSome, .checkFail),
        (s.pl.issue.isNone && s.pl.prep.isNone, .notNow)] (.rebalance parts)) ∧
     (is 0x0301 →
       let o := exec (.programLoad q pkgs) s
       (∀ st, firstFail (s.loadChecks pkgs r) = some st → Refuses o s r st) ∧
       (firstFail (s.loadChecks pkgs r) = none →
         (s.executor .leader = true →
           (∀ i v, s.loadFault s.pl.dom p pkgs = some (i, v) → Answers o fun t => Answered s t r .checkFail i [] ∧ t.pl = s.pl ∧ t.parts = s.parts) ∧
           (s.loadFault s.pl.dom p pkgs = none → Answers o fun t => t.pl.todo = s.pl.todo ++ [(.stage p pkgs, some r.key)] ∧ t.mb = (s.started r).mb ∧
             (ReqSrc.isForwarded r.src = false → ∃ y, t.part? p = some y ∧ y.keepStaged = true))) ∧
         (s.executor .leader = false → ReqSrc.isForwarded r.src = false → ∀ d, s.dstOf .leader = some d → Answers o fun t =>
           t.mb = { (s.started r).mb with fwd := s.mb.fwd ++ [(r, d)] } ∧ ∃ y, t.part? p = some y ∧ y.keepStaged = true)))) ∧
  (∀ (q : ReqSrc) (r : Request) (part : Fin 512) (a b : Bool) (limit : Nat) (rules : List Rule) (s : State),
     let is := fun code : Nat => s.reqOf q code = some r
     let st := (s.part? part).map (·.state)
     let ordered := fun (t : State) (goal : PState) =>
       let e := if s.executor .leader then s.nextSlowest part else r.leaderInstant
       Answered s t r .ok 0 [] ∧ (∀ y, s.part? part = some y → t.part? part = some { y with pend := some (goal, e, 0), was := y.state, entered := [] }) ∧
         (∀ p, p ≠ part.val → t.part? p = s.part? p) ∧ s.Carries t r (leBytes 8 e.toNat) ∧
         t = { s with parts := t.parts, pl := t.pl, mb := t.mb, timers := t.timers, out := t.out, ctr := t.ctr, rcd := t.rcd, ring := t.ring }
     (is 0x0203 →
       let o := exec (.partitionStart q part) s
       Runs o s r [s.ownP r part, s.epochIs r, ((s.part? part).isSome, .checkFail), (decide (st ≠ some .running), .notNow),
           (((s.part? part).map fun y => y.pend.isNone).getD true, .busy), (s.classesSettled part, .busy)] .leader (
         (((domPart s.pl.dom part).map (·.stopped)).getD false = false → Answers o fun t => ordered t .running ∧ t.pl = s.pl) ∧
         (((domPart s.pl.dom part).map (·.stopped)).getD false = true →
           (∀ f, s.computePlan (.restart part) (s.topEpoch + 1) = .inl f → Refuses o s r .noRoom) ∧
           (∀ d, s.computePlan (.restart part) (s.topEpoch + 1) = .inr d → Answers o fun t => ordered t .running ∧
             t.pl = { s.pl with todo := s.pl.todo ++ [(.restart part, none)] })))) ∧
     (is 0x0204 →
       let o := exec (.partitionStop q part) s
       Runs o s r [own r part, s.epochIs r, ((s.part? part).isSome, .checkFail), (decide (st ≠ some .loaded), .notNow),
           (((s.part? part).map fun y => y.pend.isNone).getD true, .busy)] .leader (Answers o fun t => ordered t .loaded ∧ t.pl = s.pl)) ∧
     (is 0x0205 →
       let o := exec (.partitionSafe q part) s
       let e : W64 := BitVec.ofNat 64 ((s.now.toNat + 100000 + 999) / 1000 * 1000)
       Runs o s r [own r part, ((s.part? part).isSome, .checkFail), (decide (st = some .running), .notNow)] .leader (Answers o fun t =>
         Answered s t r .ok 0 [] ∧
         (∀ y, s.part? part = some y → t.part? part = some (y.orderSafe e 0) ∧
           (y.pend = none → t.part? part = some { y with pend := some (.safe, e, 0), was := .running, entered := [] })) ∧
         (∀ m, (s.hostMods part).head? = some m →
           if m = s.partner ∧ s.portUp .pl = true then s.Tells t (.safeNotice part e 0)
           else s.Routes t (s.msgFrame 6 m 0 (.safeNotice part e 0)) (some (.safeNotice part e 0))))) ∧
     (is 0x0207 →
       let o := exec (.partitionSetPolicy q part a b limit) s
       Runs o s r [s.ownP r part, (decide ((s.part? part).map (·.cfg.crit) ≠ some .p) || (a && b), .denied),
           ((s.part? part).isSome && decide (1 ≤ limit) && decide (limit ≤ 16), .checkFail)] .leader (Answers o fun t =>
         Answered s t r .ok 0 [] ∧ (∀ y, s.part? part = some y → t.part? part = some { y with mismatchSafe := a, faultSafe := b, limit := limit }) ∧
           s.Carries t r [])) ∧
     (is 0x0208 →
       let o := exec (.guardSet q rules) s
       Runs o s r [sys r, (decide (rules.length ≤ 1024) && rules.all (fun x => !x.attr.getLsbD 3), .checkFail)] .here (Answers o fun t =>
         Answered s t r .ok 0 [] ∧ t.guard = { s.guard with configured := rules.map fun (x : Rule) => { x with origin := x.origin &&& 0x7FFFFFFF } })))

/-- R37, R172, R247, R251, R299, R335, R341, R348, R397, R416, R432, R434, R440: the commands that read, each with its checks in the order of R324. Each answers OK with what it reads and has no other effect. R143, R287, R289, R294, R302, R330, R335, R339: PROGRAM_DATA stores the bytes it brings in the partition's staging area, VAR_READ of the pair's own variables returns value, current VID and tag of each, and asks the homes of the others. -/
def Obligations.QueriesAndTransfers : Prop :=
  (∀ (q : ReqSrc) (r : Request) (part : Fin 512) (counters : List (Fin 64)) (s : State),
     let is := fun code : Nat => s.reqOf q code = some r
     let reads := fun (o : Host.Outcome State Fault Refusal) (n : Nat) => ∃ bs, bs.length = n ∧ AnswersOnly o s r bs
     (is 0x020B → Runs (exec (.partitionStatus q part) s) s r [own r part, ((s.part? part).isSome, .checkFail)] .leader (∀ y, s.part? part = some y →
       ∃ bs, bs.take 3 = [BitVec.ofNat 8 (PState.code y.state), BitVec.ofNat 8 (profileNum y.cfg.profile), BitVec.ofNat 8 (Change.num y.change)] ∧
         bs.length ≤ 4064 ∧ AnswersOnly (exec (.partitionStatus q part) s) s r bs)) ∧
     (is 0x020A → Runs (exec (.guardQuery q) s) s r [] .here (Answers (exec (.guardQuery q) s) fun t =>
       let seen := (s.guard.active.map (·.2)).filter fun x => Rule.valid x && (decide (r.part = 0) || Rule.gro x || decide (Rule.part x = r.part))
       ∃ bs, Answered s t r .ok seen.length bs ∧ bs.length = 16 * min 254 (seen.length - field r.payload 0 4) ∧ s.AnswerOf t r)) ∧
     (is 0x0402 → Runs (exec (.classGet q) s) s r [] .here (AnswersOnly (exec (.classGet q) s) s r
       ((List.range 8).flatMap fun k => leBytes 4 (s.cls_ k).period ++ leBytes 4 (s.cls_ k).phase))) ∧
     (is 0x0403 → Runs (exec (.placeQuery q) s) s r [lenIs r 12, (decide (r.partAt4 = 0xFFFF) || decide (r.part = 0) || decide (r.part = r.partAt4), .denied), s.epochIs r,
         ((decide (r.partAt4 = 0xFFFF) || (s.part? r.partAt4).isSome) && decide (field r.payload 6 1 < 32), .checkFail)] .leader (
       ∃ bs, bs.take 4 = leBytes 4 s.pl.epoch.toNat ∧ AnswersOnly (exec (.placeQuery q) s) s r bs)) ∧
     (is 0x0305 → Runs (exec (.programStatus q part) s) s r [own r part, ((s.part? part).isSome, .checkFail)] .leader (∀ y, s.part? part = some y →
       ∃ bs, bs.head? = some (BitVec.ofNat 8 (Change.num y.change)) ∧ bs.length = 32 ∧ bs.drop 28 = leBytes 4 (y.windowLeft s.now) ∧
         AnswersOnly (exec (.programStatus q part) s) s r bs)) ∧
     (is 0x0501 → Runs (exec (.pairStatus q) s) s r [sys r] .pair (∃ bs, bs.take s.healthReport.length = s.healthReport ∧
       AnswersOnly (exec (.pairStatus q) s) s r bs)) ∧
     (is 0x0601 → Runs (exec (.timeStatus q) s) s r [] .here (AnswersOnly (exec (.timeStatus q) s) s r
       (leBytes 4 ((s.timeReg 4).getD 0).toNat ++ leBytes 4 s.time.src.toNat ++ leBytes 4 s.timeErr))) ∧
     (is 0x0703 → Runs (exec (.forceList q) s) s r [] .here (Answers (exec (.forceList q) s) fun t =>
       let seen := s.liveForces.filter fun f => decide (r.part = 0) || decide ((s.homed f.vid).map (·.part) = some r.part)
       ∃ bs, Answered s t r .ok seen.length bs ∧ bs.length = 16 * min 254 (seen.length - field r.payload 0 4) ∧ s.AnswerOf t r)) ∧
     (is 0x0801 → Runs (exec (.recRead q) s) s r [lenIs r 12, (decide (r.area ≠ 2) || decide (r.part = 0), .denied),
         (decide (r.area ≤ 2) && decide (1 ≤ r.max) && decide (r.max ≤ 126), .checkFail)] .here (
       (r.area ≤ 1 → AnswersOnly (exec (.recRead q) s) s r (s.rcd.readBytes r.part (decide (r.area = 1)) (BitVec.ofNat 32 (field r.payload 4 4)) r.max)) ∧
       (r.area = 2 → reads (exec (.recRead q) s) 480))) ∧
     (is 0x0806 → Runs (exec (.ctrRead q counters) s) s r [(decide (counters.length ≤ 508), .badLen)] .here (AnswersOnly (exec (.ctrRead q counters) s) s r
       (counters.flatMap fun i => leBytes 4 i.val ++ leBytes 4 (s.ctr.valueFor r.part i.val).toNat))) ∧
     (is 0x0907 → Runs (exec (.updateStatus q) s) s r [lenIs r 0, sys r] .here (AnswersOnly (exec (.updateStatus q) s) s r
       (leBytes 4 (if s.nv.update.isSome then 1 else 0) ++ leBytes 4 ((s.nv.update.map (·.blocks)).getD 0)
         ++ [BitVec.ofNat 8 (SlotSt.num s.nv.slotA.st), BitVec.ofNat 8 (SlotSt.num s.nv.slotB.st)]))) ∧
     (is 0x0A04 → Runs (exec (.safetyStatus q) s) s r [lenIs r 0] .here (AnswersOnly (exec (.safetyStatus q) s) s r
       (leBytes 4 s.trip.stat ++ leBytes 4 s.trip.spWord ++ leBytes 4 s.trip.latchWord ++ leBytes 4 s.trip.check.toNat))) ∧
     (is 0x0A05 → Runs (exec (.safetyLogRead q) s) s r [lenIs r 0, sys r] .here (AnswersOnly (exec (.safetyLogRead q) s) s r
       (s.trip.log.flatMap SafetyLog.bytes))) ∧
     (is 0x0B04 → Runs (exec (.canStatus q) s) s r [lenIs r 0] .here (reads (exec (.canStatus q) s) 2160)) ∧
     (is 0x0B07 → Runs (exec (.stationStatus q) s) s r [lenIs r 0] .here (AnswersOnly (exec (.stationStatus q) s) s r
       ((List.range 6).flatMap fun i => leBytes 4 (s.stn.reg (4 * i)).toNat)))) ∧
  (∀ (q : ReqSrc) (r : Request) (vids : List W32) (s : State),
     let off := field r.payload 0 4
     let n := r.payload.length - 4
     let a := stagingAddr r.part + off
     let staged := ((s.part? r.part).map (·.stagedLen)).getD 0
     (s.reqOf q 0x0307 = some r →
       let o := exec (.programData q) s
       Runs o s r [(decide (8 ≤ r.payload.length) && decide (r.payload.length ≤ 4064), .badLen), (decide (off = 0) || decide (off = staged), .badLen),
           (decide (off ≠ 0) || !s.stagingKept r.part, .busy), (decide (off + r.payload.length ≤ 2 ^ 24 + 4), .noRoom)] .here (
         (s.guard.allows (stageAccess r) = true → (s.part? r.part).isSome = true → Answers o fun t => Answered s t r .ok 0 [] ∧
           (∀ i, i < n → Mem.rd t.mem (a + i) = (r.payload[4 + i]?).getD 0) ∧ (∀ i, i < a ∨ a + n ≤ i → Mem.rd t.mem i = Mem.rd s.mem i) ∧
           (∃ y, t.part? r.part = some y ∧ y.stagedLen = off + n)) ∧
         (s.guard.allows (stageAccess r) = false ∨ s.part? r.part = none → Answers o fun t => Answered s t r .denied 0 [] ∧ t.mem = s.mem ∧ t.parts = s.parts))) ∧
     (s.reqOf q 0x0704 = some r →
       let o := exec (.varRead q vids) s
       let mine := s.active = true ∧ pairOf s.module ∈ s.homesOf vids
       let others := if ReqSrc.isForwarded r.src then [] else (s.homesOf vids).filter fun h => !(s.active && decide (h = pairOf s.module))
       let entry := fun v => if s.homePair v = pairOf s.module then s.homeEntry (s.currentVid v) else none
       let allowed := ∀ v ∈ vids, ∀ e, entry v = some e →
         s.guard.allows { part := r.part, master := .service, kind := .r, source := 0, addr := imgAddr (s.curBank e.cls) e.lii, len := 8 } = true
       let words := vids.flatMap fun v => match entry v with
         | some e => leBytes 8 (s.rdImg (s.curBank e.cls) e.lii).toNat ++ leBytes 4 e.vid.toNat ++ leBytes 4 (tagNum e.tag)
         | none => leBytes 8 0 ++ leBytes 8 0
       Runs o s r [(decide (vids.length ≤ 250), .badLen),
           (decide (r.part = 0) || vids.all (fun v => match s.homed v with | some e => decide (e.part = r.part) | none => true), .denied),
           s.epochIs r, (vids.all fun v => (s.homed v).isSome, .checkFail), (!ReqSrc.isForwarded q || s.active, .notNow)] .here (
         (others = [] → mine → allowed → Answers o fun t => Answered s t r .ok 0 words ∧ t.mem = s.mem ∧ t.guard = s.guard) ∧
         (others = [] → ¬mine → AnswersOnly o s r []) ∧
         (mine → ¬allowed → Answers o fun t => Answered s t r .denied 0 [] ∧ t.mem = s.mem) ∧
         (∀ h rest, others = h :: rest → (mine → allowed) → Answers o fun t =>
           t.mb.fwd = s.mb.fwd ++ others.map (fun x => (r, pairDst x)) ∧ (r.key, if s.active && decide (pairOf s.module ∈ s.homesOf vids) then words else []) ∈ t.mb.gather ∧
           (∀ x ∈ s.mb.queue, x.key = r.key → ∃ y ∈ t.mb.queue, y.key = r.key ∧ y.running = true) ∧ t.mem = s.mem ∧
           (let m : Msg := .req (s.reqMsg r none)
            s.Routes t (s.msgFrame 2 (bitsAt (pairDst h) 0 12) (bitsAt (pairDst h) 14 2) m) (some m))))))

/-- R245 to R247, R254, R330, R343, R344, R362, R364: the commands on the pair and its time, each with its checks in the order of R324, executed by the ACTIVE module and mirrored to its standby. R54 to R57, R330, R333, R342: a force set or cleared at the home module counts from 200 µs on, rounded up to a whole microsecond, is recorded and sent to the standby; the answer follows the acknowledgement of a STANDBY SYNCED partner, else comes at E. FORCE: the standby applies a change that comes before its E and acknowledges it, one that comes later ends its synchronisation; FORCE_REPEAT sends open changes again, FORCE_EFFECTIVE answers at E and goes on SOLO where a synchronised partner has not acknowledged. -/
def Obligations.PairAndForceCommands : Prop :=
  (∀ (q : ReqSrc) (r : Request) (cfg : TimeCfg) (s : State),
     let is := fun code : Nat => s.reqOf q code = some r
     let v := field r.payload 0 4
     (is 0x0502 → Runs (exec (.pairSwitch q) s) s r [sys r, (s.partnerSynced && !s.disputeOpen && !s.epochSoon, .notNow), (s.pair.hand.isNone, .busy)] .pair (
       Answers (exec (.pairSwitch q) s) fun t => Answered s t r .ok 0 [] ∧ s.Tells t (.role (.propose 0 true)) ∧ t.pair = s.pair ∧ t.mod = s.mod)) ∧
     (is 0x0503 → Runs (exec (.pairRevertInhibit q) s) s r [lenIs r 4, sys r, (decide (field r.payload 0 1 < 2), .checkFail)] .pair (
       Answers (exec (.pairRevertInhibit q) s) fun t => Answered s t r .ok 0 [] ∧ t.nv = { s.nv with inhibit := decide (field r.payload 0 1 = 1) } ∧ s.Mirrors t r [])) ∧
     (is 0x0504 → Runs (exec (.pairSetHold q) s) s r [lenIs r 4, sys r, (decide (10 ≤ v) && decide (v ≤ 86400), .checkFail)] .pair (
       Answers (exec (.pairSetHold q) s) fun t => Answered s t r .ok 0 [] ∧ t.nv = { s.nv with hold := v } ∧ s.Mirrors t r [])) ∧
     (is 0x0505 →
       let m := field r.payload 0 2
       Runs (exec (.pairService q) s) s r [lenIs r 4, sys r, (decide (m < 4096) && decide (s.position m = .module), .checkFail),
           (decide (m ≠ s.module) || decide (s.mod.st = .synced) || decide (s.mod.st = .unsynced) || decide (s.mod.st = .joining), .notNow)] (.named m) (
         Answers (exec (.pairService q) s) fun t => Answered s t r .ok 0 [] ∧ (s.stopping = false → t.mod.st = .service))) ∧
     (is 0x0602 → s.follows .pair r = false →
       let o := exec (.timeAcceptStep q) s
       let at_ := wholeSecond s.now 200000000
       let bs := leBytes 8 s.time.refused.toNat ++ leBytes 8 at_.toNat
       Runs o s r [lenIs r 8, sys r, (!s.executor .pair || s.time.stepRefused, .notNow),
           (!s.executor .pair || decide (s.time.refused.toInt.natAbs ≤ field r.payload 0 8), .checkFail)] .pair (
         Answers o fun t => t.time.step = some (at_, s.time.refused) ∧ Answered s t r .ok 0 bs ∧ s.Mirrors t r bs)) ∧
     (is 0x0602 → s.follows .pair r = true → Answers (exec (.timeAcceptStep q) s) fun t =>
       t.time.step = some (BitVec.ofNat 64 (field r.payload 16 8), BitVec.ofNat 64 (field r.payload 8 8))) ∧
     (is 0x0603 → Runs (exec (.timeSet q cfg) s) s r [sys r, (timeCfgOk cfg, .checkFail)] .pair (Answers (exec (.timeSet q cfg) s) fun t =>
       Answered s t r .ok 0 [] ∧ t.time = { s.time with stepThr := BitVec.ofNat 32 cfg.stepThr, srcPrio := cfg.srcPrio, ptpDomain := cfg.ptpDomain } ∧ s.Mirrors t r []))) ∧
  (∀ (q : ReqSrc) (r : Request) (vid : W32) (val : W64) (part : Nat) (at_ : W64) (s : State),
     let is := fun code : Nat => s.reqOf q code = some r
     let v := s.currentVid r.vid
     let E : W64 := BitVec.ofNat 64 ((s.now.toNat + 200000 + 999) / 1000 * 1000)
     let home : Acts := .home (s.homePair r.vid)
     let opens := fun (t : State) (m : ForceMsg) => t.pair.forceChg = s.pair.forceChg ++ [{ msg := m, req := some r.key, acked := false }] ∧
       (s.partnerStandby = true → s.Tells t (.force m)) ∧ tdue t.timers .forceEffective = some (s.clk + 200000) ∧
       (s.armed .forceRepeat = false → tdue t.timers .forceRepeat = some (s.clk + 20000)) ∧ t.mb = (s.started r).mb ∧ t.mem = s.mem
     let standby := s.mod.st = .synced ∨ s.mod.st = .unsynced
     let linked := s.pairLink = true
     (is 0x0701 → s.forceTurn q 0x0701 = false → exec (.forceSet q) s = .next s) ∧
     (is 0x0701 → s.forceTurn q 0x0701 = true →
       let o := exec (.forceSet q) s
       let f : W64 := BitVec.ofNat 64 (field r.payload 8 8)
       Runs o s r (s.forceSetChecks r) home (∀ e, s.homed r.vid = some e →
         let granted := r.part = 0 ∨ s.guard.allows { part := r.part, master := .host, kind := .w, source := srcIx r.src, addr := imgAddr (s.nextBank e.cls) e.lii, len := 8 } = true
         (granted → Answers o fun t => opens t (.set v f r.part E) ∧ (∃ x ∈ t.forces, x.vid = v ∧ x.val = f ∧ x.e = E ∧ x.live = true ∧ x.part = r.part) ∧
           ∀ g ∈ s.forces, g.vid ≠ v → g ∈ t.forces) ∧
         (¬granted → Answers o fun t => Answered s t r .denied 0 [] ∧ t.forces = s.forces ∧ t.pair = s.pair))) ∧
     (is 0x0702 → s.forceTurn q 0x0702 = false → exec (.forceClear q) s = .next s) ∧
     (is 0x0702 → s.forceTurn q 0x0702 = true →
       let o := exec (.forceClear q) s
       Runs o s r [lenIs r 16, s.forceRight r, s.epochIs r, ((s.homed r.vid).isSome, .checkFail)] home (
         ((∃ f ∈ s.liveForces, f.vid = v) → Answers o fun t => opens t (.clear v r.part E) ∧ (∀ f ∈ t.forces, f.vid = v → f.live = false ∧ f.e = E) ∧
           ∀ g ∈ s.forces, g.vid ≠ v → g ∈ t.forces) ∧
         ((∀ f ∈ s.liveForces, f.vid ≠ v) → AnswersOnly o s r []))) ∧
     (is 0x0705 →
       let o := exec (.forceClearAll q) s
       Runs o s r [sys r] .pair ((s.liveForces = [] → AnswersOnly o s r []) ∧
         (∀ z, s.liveForces.getLast? = some z → Answers o fun t => t.liveForces = [] ∧
           t.pair.forceChg = s.pair.forceChg ++ s.liveForces.map fun f => { msg := .clear f.vid r.part E, req := if f.vid = z.vid then some r.key else none, acked := false }))) ∧
     (s.pairLink = false → ∀ m, exec (.force m) s = .next s) ∧
     (linked → ¬standby → exec (.force (.set vid val part at_)) s = .next s ∧ exec (.force (.clear vid part at_)) s = .next s ∧ exec (.force .unsynced) s = .next s) ∧
     (linked → standby → s.sameForce vid at_ true = true → Answers (exec (.force (.set vid val part at_)) s) fun t => t.forces = s.forces ∧ s.Tells t (.force (.ack vid at_))) ∧
     (linked → standby → s.sameForce vid at_ true = false → reached s.now at_ = true → Answers (exec (.force (.set vid val part at_)) s) fun t =>
       (∃ f ∈ t.forces, f.vid = vid ∧ f.val = val ∧ f.e = at_ ∧ f.live = true) ∧ (∀ g ∈ s.forces, g.vid ≠ vid → g ∈ t.forces) ∧ s.Tells t (.force (.ack vid at_))) ∧
     (linked → standby → s.sameForce vid at_ false = true → Answers (exec (.force (.clear vid part at_)) s) fun t => t.forces = s.forces ∧ s.Tells t (.force (.ack vid at_))) ∧
     (linked → standby → s.sameForce vid at_ false = false → reached s.now at_ = true → Answers (exec (.force (.clear vid part at_)) s) fun t =>
       (∀ f ∈ t.forces, f.vid = vid → f.live = false ∧ f.e = at_) ∧ (∀ g ∈ s.forces, g.vid ≠ vid → g ∈ t.forces) ∧ s.Tells t (.force (.ack vid at_))) ∧
     (linked → s.mod.st = .synced → s.stopping = false → reached s.now at_ = false →
       (s.sameForce vid at_ true = false → Answers (exec (.force (.set vid val part at_)) s) fun t => t.mod.st = .unsynced ∧ t.forces = s.forces) ∧
       (s.sameForce vid at_ false = false → Answers (exec (.force (.clear vid part at_)) s) fun t => t.mod.st = .unsynced ∧ t.forces = s.forces)) ∧
     (linked → s.mod.st = .synced → s.stopping = false → Answers (exec (.force .unsynced) s) fun t => t.mod.st = .unsynced ∧ t.forces = s.forces) ∧
     (linked → s.partnerSynced = true → Answers (exec (.force (.ack vid at_)) s) fun t => (∀ c ∈ t.pair.forceChg, ForceMsg.isFor c.msg vid at_ = false) ∧
       ∀ c x, s.pair.forceChg = [c] → ForceMsg.isFor c.msg vid at_ = true → c.req = some x.key → (s.mb.queue.find? fun y => decide (y.key = x.key)) = some x →
         Answered s t x .ok (s.forceDetail c.msg) []) ∧
     (linked → s.partnerSynced = false → Answers (exec (.force (.ack vid at_)) s) fun t => t.mb = s.mb ∧
       ∀ c ∈ s.pair.forceChg, (if ForceMsg.isFor c.msg vid at_ then { c with acked := true } else c) ∈ t.pair.forceChg) ∧
     (s.expired .forceRepeat = false → exec .forceRepeat s = .next s) ∧
     (s.expired .forceRepeat = true → s.pair.forceChg = [] → Answers (exec .forceRepeat s) fun t => t.armed .forceRepeat = false ∧ t.out = s.out) ∧
     (s.expired .forceRepeat = true → s.pair.forceChg ≠ [] → Answers (exec .forceRepeat s) fun t => t.pair = s.pair ∧
       tdue t.timers .forceRepeat = (tdue s.timers .forceRepeat).map (· + 20000) ∧
       ∀ c rest, (s.pair.forceChg.filter fun c => !c.acked) = c :: rest → s.Tells t (.force c.msg)) ∧
     ((∀ c ∈ s.pair.forceChg, ForceMsg.due c.msg s.now = false) → exec .forceEffective s = .next s) ∧
     (Answers (exec .forceEffective s) fun t => (∀ c ∈ t.pair.forceChg, ForceMsg.due c.msg s.now = false) ∧
       (∀ c x, s.pair.forceChg = [c] → ForceMsg.due c.msg s.now = true → c.req = some x.key → (s.mb.queue.find? fun y => decide (y.key = x.key)) = some x →
         Answered s t x .ok (s.forceDetail c.msg) []) ∧
       (s.active = true → s.partnerSynced = true → s.mod.solo = false → (∃ c ∈ s.pair.forceChg, ForceMsg.due c.msg s.now = true ∧ c.acked = false) →
         t.mod.solo = true ∧ s.Tells t (.force .unsynced))))

/-- R272 to R280, R283, R285, R345, R346, R489: the firmware update, each command with its checks in the order of R324: an update opened makes its slot INVALID and keeps the header and block CRCs, data are written in order into the slot, the signature makes it VALID; trial, commit, rollback and RECOVERY. -/
def Obligations.UpdateCommands : Prop :=
  ∀ (q : ReqSrc) (r : Request) (result : List Byte) (s : State),
    let is := fun code : Nat => s.reqOf q code = some r
    let h := r.payload.take 192
    let slot := s.updateSlot
    let n := r.payload.length - 4
    let flags : Bool × Status := (decide (field r.payload 0 4 < 2), .checkFail)
    let due := fun (t : State) (c : Byte) => t.mod.resetDue = some c ∧ tdue t.timers .delayedReset = some (s.clk + 10000000)
    (is 0x0901 →
      let o := exec (.updateBegin q) s
      Runs o s r [(decide (192 ≤ r.payload.length) && decide (r.payload.length = 192 + 4 * hdrBlocks r.payload), .badLen), sys r,
          (hdrOk h && (decide (s.mod.st ≠ .recovery) || hdrFull r.payload), .checkFail)] .here (
        ((s.rejects h).isSome = true → Answers o fun t => Answered s t r .checkFail 0 [] ∧ t.nv = s.nv) ∧
        (s.rejects h = none → s.nv.update.isSome = true → Refuses o s r .busy) ∧
        (s.rejects h = none → s.nv.update = none → (s.nv.slot slot).st = .trial → Refuses o s r .notNow) ∧
        (s.rejects h = none → s.nv.update = none → (s.nv.slot slot).st ≠ .trial → Answers o fun t => Answered s t r .ok 0 [] ∧
          (t.nv.slot slot).st = .invalid ∧ (t.nv.slot !slot) = s.nv.slot !slot ∧ ∃ x, t.nv.update = some x ∧ x.header = h ∧
          x.crcs = (List.range (hdrBlocks h)).map (fun i => BitVec.ofNat 32 (field r.payload (192 + 4 * i) 4)) ∧ x.opsDone = 0 ∧ x.len = 0 ∧ x.blocks = 0))) ∧
    (is 0x0902 →
      let o := exec (.updateData q result) s
      Runs o s r [(decide (8 ≤ r.payload.length) && decide (n ≤ 4060), .badLen), sys r, (s.nv.update.isSome, .notNow),
          ((s.nv.update.map fun u => decide (field r.payload 0 4 = u.opsDone)).getD true, .badLen),
          ((s.nv.update.map fun u => decide (u.opsDone + n ≤ hdrOps u.header)).getD true, .checkFail)] .here (
        ∀ u, s.nv.update = some u →
          let off := slotBase slot + u.len
          let bs := (if hdrFull u.header then r.payload.drop 4 else result).take (hdrLen u.header - u.len)
          Answers o fun t => (∀ i, i < bs.length → Mem.rd t.mem (off + i) = (bs[i]?).getD 0) ∧
            (∀ a, a < off ∨ off + bs.length ≤ a → Mem.rd t.mem a = Mem.rd s.mem a) ∧
            (t.nv.update = none → Answered s t r .checkFail 0 []) ∧
            (∀ x, t.nv.update = some x → Answered s t r .ok 0 [] ∧ x.header = u.header ∧ x.crcs = u.crcs ∧ x.opsDone = u.opsDone + n ∧ x.len = u.len + bs.length))) ∧
    (is 0x0903 →
      let o := exec (.updateVerify q) s
      Runs o s r [lenIs r 0, sys r, ((s.nv.update.map fun u => decide (u.len = hdrLen u.header)).getD false, .notNow)] .here (
        ∀ u, s.nv.update = some u → Answers o fun t => t.nv.update = none ∧
          (s.signed slot u = true → Answered s t r .ok 0 [] ∧
            t.nv.slot slot = { st := .valid, version := versionAt u.header 20, floor := versionAt u.header 24, len := hdrLen u.header }) ∧
          (s.signed slot u = false → Answered s t r .checkFail 0 [] ∧ t.nv.slot slot = s.nv.slot slot))) ∧
    (is 0x0904 → Runs (exec (.updateActivate q) s) s r [lenIs r 4, sys r, flags, s.mayStop r, (s.activatable, .notNow)] .here (
      ∀ b, s.validSlot = some b → Answers (exec (.updateActivate q) s) fun t => Answered s t r .ok 0 [] ∧ (t.nv.slot b).st = .trial ∧
        t.nv.failedBoots = 0 ∧ t.nv.trialTime = 0 ∧ due t 0x30)) ∧
    (is 0x0905 → Runs (exec (.commitUpdate q) s) s r [lenIs r 0, sys r, (s.onTrial && s.mod.bootOk, .notNow)] .here (
      Answers (exec (.commitUpdate q) s) fun t => Answered s t r .ok 0 [] ∧ (t.nv.slot s.nv.runB).st = .confirmed ∧
        (t.nv.slot !s.nv.runB).st = (if (s.nv.slot !s.nv.runB).st = .invalid then .invalid else .valid) ∧
        t.nv.floor.toNat = max s.nv.floor.toNat (s.nv.slot s.nv.runB).floor.toNat ∧ t.armed .trialLimit = false)) ∧
    (is 0x0906 → Runs (exec (.updateRollback q) s) s r [lenIs r 4, sys r, flags, (s.onTrial, .notNow), s.mayStop r] .here (
      Answers (exec (.updateRollback q) s) fun t => Answered s t r .ok 0 [] ∧ (t.nv.slot s.nv.runB).st = .valid ∧ (s.mod.st ≠ .active → due t 0x30) ∧
        (s.mod.st = .active → t.mod = s.mod ∧ t.nv.fallback.isSome = true ∧ tdue t.timers .fallback = some (s.clk + 10000000)))) ∧
    (is 0x0908 → Runs (exec (.enterRecovery q) s) s r [lenIs r 4, sys r, flags, s.mayStop r] .here (
      Answers (exec (.enterRecovery q) s) fun t => Answered s t r .ok 0 [] ∧ t.nv = { s.nv with recReq := true } ∧ due t 0x31))

/-- R333, R347, R391 to R397: the safety commands, each with its checks in the order of R324: login and its lock and expiry, password, parameters, confirmation; each outcome is in the change log, and a command of the group keeps a login alive. -/
def Obligations.SafetyCommands : Prop :=
  ∀ (q : ReqSrc) (r : Request) (tag : W64) (pw image : List Byte) (s : State),
    let is := fun code : Nat => s.reqOf q code = some r
    let logged := fun (t : State) (kind : Nat) (st : Status) (old new : W32) => ∃ e, t.trip.log.getLast? = some e ∧ e.kind = BitVec.ofNat 8 kind ∧
      e.result = BitVec.ofNat 8 st.num ∧ e.oldCheck = old ∧ e.newCheck = new ∧ e.seq = s.trip.logSeq ∧ e.t = s.now ∧ t.trip.logSeq = s.trip.logSeq + 1
    let c := s.trip.check
    let live := (s.sessionOf r).map (fun x => Session.loggedIn x s.clk) = some true
    let login : Bool × Status := (decide (r.part = 0) && ((s.sessionOf r).map fun x => Session.loggedIn x s.clk).getD false, .denied)
    (is 0x0A01 →
      let o := exec (.safetyLogin q pw) s
      let recent := s.trip.pwFails.filter fun a => decide (s.clk - a ≤ 300000000000)
      Runs o s r [sys r] .here (
        (s.trip.loginLocked s.clk = false → s.trip.passwordIs pw = true → Answers o fun t => Answered s t r .ok 0 [] ∧ logged t 0x01 .ok c c ∧
          ∀ y ∈ t.mb.sessions, y.tag = r.tag → y.login = some s.clk) ∧
        (s.trip.loginLocked s.clk = false → s.trip.passwordIs pw = false → Answers o fun t => Answered s t r .denied 0 [] ∧ logged t 0x02 .denied c c ∧
          (2 ≤ recent.length → t.trip.pwLockUntil = some (s.clk + 300000000000)) ∧
          (recent.length < 2 → t.trip.pwFails = recent ++ [s.clk] ∧ t.trip.pwLockUntil = s.trip.pwLockUntil)) ∧
        (s.trip.loginLocked s.clk = true → Answers o fun t => Answered s t r .denied 0 [] ∧ logged t 0x02 .denied c c ∧ t.trip.pwFails = s.trip.pwFails))) ∧
    ((∃ y ∈ s.mb.sessions, y.tag = tag ∧ y.login.isSome = true ∧ y.loggedIn s.clk = false) → Answers (exec (.safetyLoginExpiry tag) s) fun t =>
      ∀ y ∈ t.mb.sessions, y.tag = tag → y.login = none) ∧
    ((∀ y ∈ s.mb.sessions, y.tag = tag → y.login = none ∨ y.loggedIn s.clk = true) → exec (.safetyLoginExpiry tag) s = .next s) ∧
    (is 0x0A04 → live → Answers (exec (.safetyStatus q) s) fun t => ∀ y ∈ t.mb.sessions, y.tag = r.tag → y.login = some s.clk) ∧
    (is 0x0A06 →
      let o := exec (.safetyPasswordSet q pw) s
      Runs o s r [login, (decide (1 ≤ pw.length) && decide (pw.length ≤ 16) && pw.all (fun b => decide (0x20 ≤ b.toNat) && decide (b.toNat ≤ 0x7E)), .checkFail)] .here (
        Answers o fun t => Answered s t r .ok 0 [] ∧ logged t 0x05 .ok c c ∧ t.trip.passwordIs pw = true ∧ t.trip.image = s.trip.image)) ∧
    (is 0x0A02 →
      let o := exec (.safetyParamSet q image) s
      Runs o s r [(decide (image.length = 260), .badLen), login] .here (
        (imageOk image = true → Answers o fun t => Answered s t r .ok 0 [] ∧ t.trip.pendImage = some image ∧ t.trip.image = s.trip.image ∧
          logged t 0x03 .ok c (s.checkOver image s.trip.safetyPart)) ∧
        (imageOk image = false → Answers o fun t => Answered s t r .checkFail 0 [] ∧ t.trip.pendImage = s.trip.pendImage ∧ t.trip.image = s.trip.image ∧
          logged t 0x03 .checkFail c c))) ∧
    (is 0x0A03 →
      let o := exec (.safetyConfirm q) s
      let p := field r.payload 0 2
      let im := s.trip.pendImage.getD s.trip.image
      Runs o s r [lenIs r 8, own r p, (decide ((s.part? p).map (·.cfg.crit) = some .p), .denied),
          (s.trip.password.isSome || !(List.range 16).any (fun m => decide (outOwner (cfgOut im m) = 2)), .denied),
          (!im.isEmpty && decide (field r.payload 4 4 = (s.checkOver im p).toNat), .checkFail)] .here (
        Answers o fun t => Answered s t r .ok 0 [] ∧ logged t 0x04 .ok c t.trip.check ∧
          (imageOk im = true → t.trip.image = im ∧ t.trip.pendImage = none ∧ t.trip.cfgValid = true ∧ t.trip.safetyPart = p) ∧
          (imageOk im = false → t.trip.image = s.trip.image ∧ 0x0B ∈ t.trip.global)))

/-! ### Time, CAN and station ports -/

/-- R349, R350, R353, R356, R363 to R366, R368: the shadow registers are loaded together in the first clock in which T_CNT has reached T_APPLY; TIME_ANCHOR every 2 s of corrected time; PPS_IN is captured, PPS_OUT pulses at whole seconds for 200 µs; HOLDOVER after 3 s without a measurement, and its end. R358 to R362: ring time: the exchange of PDELAY on a link and its average over eight, the SYNC and ANNOUNCE of the modules, and the choice of the domain time master. -/
def Obligations.TimeUnitAndRingTime : Prop :=
  (∀ (s : State),
     let t0 := s.time
     (t0.applyArm = false ∨ t0.cnt.toNat < t0.applyAt.toNat → exec .timeShadowApply s = .next s) ∧
     (t0.applyArm = true → t0.applyAt.toNat ≤ t0.cnt.toNat → t0.step = none → exec .timeShadowApply s =
       .next { s with time := { t0 with offset := t0.shOffset, rate := t0.shRate, anchor := t0.applyAt, applyArm := false } }) ∧
     (∀ at_ st, t0.applyArm = true → t0.applyAt.toNat ≤ t0.cnt.toNat → t0.step = some (at_, st) → t0.stepLoaded = true → Answers (exec .timeShadowApply s) fun t =>
       t.time.offset = t0.shOffset ∧ t.time.rate = t0.shRate ∧ t.time.anchor = t0.applyAt ∧ t.time.applyArm = false ∧ t.time.step = none ∧
       t.time.state = 0 ∧ t.time.stepRefused = false ∧ t.mem = s.mem) ∧
     (s.firmware = true → t0.anchored = none ∨ (∃ a, t0.anchored = some a ∧ 2000000000 ≤ (since s.now a).natAbs) → Answers (exec .timeAnchor s) fun t =>
       t.time = { t0 with anchored := some s.now } ∧ t = { s with time := t.time, rcd := t.rcd }) ∧
     (s.firmware = false ∨ (∃ a, t0.anchored = some a ∧ (since s.now a).natAbs < 2000000000) → exec .timeAnchor s = .next s) ∧
     (s.firmware = true → t0.ppsinEn = true → Answers (exec .ppsInEdge s) fun t => t.time.ppsin = s.now) ∧
     (s.firmware = true → t0.ppsinEn = true → t0.everSet = false ∨ t0.state = 2 ∨ 250000000 < s.timeErr → exec .ppsInEdge s = .next { s with time := { t0 with ppsin := s.now } }) ∧
     (s.firmware = false ∨ t0.ppsinEn = false → exec .ppsInEdge s = .next s) ∧
     (s.powered = true → t0.ppsoutEn = true → s.now.toNat % 1000000000 ≤ 1 → (∀ m, t0.ppsSec = some m → m < s.now.toNat / 1000000000) → Answers (exec .ppsOutPulse s) fun t =>
       t.pins.ppsOut = true ∧ t.time.ppsSec = some (s.now.toNat / 1000000000) ∧ tdue t.timers .ppsEnd = some (s.clk + 200000)) ∧
     (s.powered = false ∨ t0.ppsoutEn = false ∨ 1 < s.now.toNat % 1000000000 → exec .ppsOutPulse s = .next s) ∧
     (s.expired .ppsEnd = true → Answers (exec .ppsOutPulseEnd s) fun t => t.pins = { s.pins with ppsOut := false } ∧ t.armed .ppsEnd = false) ∧
     (s.expired .ppsEnd = false → exec .ppsOutPulseEnd s = .next s) ∧
     (t0.state = 0 → 3000000000 ≤ s.clk - t0.lastMeas → Answers (exec .holdoverEntry s) fun t => t.time.state = 1 ∧ t.time.src = 0 ∧ t.time.holdE0 = s.timeErr ∧
       t.time.holdAt = s.clk ∧ t.time.rate = t0.rate ∧ t.time.offset = t0.offset) ∧
     (t0.state ≠ 0 ∨ s.clk - t0.lastMeas < 3000000000 → exec .holdoverEntry s = .next s) ∧
     (t0.state = 1 → 1000000000000 ≤ s.clk - t0.holdAt ∨ 1000 < s.timeErr → Answers (exec .holdoverExpiry s) fun t => t.time.state = 2 ∧ t.time.rate = t0.rate) ∧
     (t0.state = 1 → s.clk - t0.holdAt < 1000000000000 → s.timeErr ≤ 1000 → exec .holdoverExpiry s = .next s)) ∧
  (∀ (p : Port) (f : Frame) (s : State),
     let d := s.receiveNear p f
     let kind := field f.payload 0 1
     (s.firmware = true → p ≠ .pl → s.portUp p = true → s.due (.pdelaySend (Port.ix p)) = true → Answers (exec (.pdelayReqSend p) s) fun t =>
       (t.link p).reqAt = some s.now ∧ (t.link p).delay = (s.link p).delay ∧ t.time.pdSeq = s.time.pdSeq + 1 ∧
       tdue t.timers (.pdelaySend (Port.ix p)) = some ((tdue s.timers (.pdelaySend (Port.ix p))).getD s.clk + 1000000000) ∧
       ∀ m, (s.port p).far = some m → (let g := s.mkFrame 4 0 m 0 s.now32 (s.timePayload 2 s.time.pdSeq.toNat 0 0)
         s.clear p g = true → Out.frame p g ∈ t.out)) ∧
     (s.firmware = false ∨ p = .pl ∨ s.portUp p = false ∨ s.due (.pdelaySend (Port.ix p)) = false → exec (.pdelayReqSend p) s = .next s) ∧
     (d.deliver = false ∨ f.ty ≠ 4 ∨ kind ≠ 2 → exec (.pdelayReq p f) s = .next d.s) ∧
     (d.deliver = true → f.ty = 4 → kind = 2 → Answers (exec (.pdelayReq p f) s) fun t =>
       t = (d.s.alive f).sendNear p (d.s.timePayload 3 (field f.payload 4 2) s.now s.now)) ∧
     (d.deliver = true → f.ty = 4 → kind = 3 → ∀ t1, (s.link p).reqAt = some t1 → Answers (exec (.pdelayResp p f) s) fun t =>
       let one := ((since s.now t1 - since (BitVec.ofNat 64 (field f.payload 16 8)) (BitVec.ofNat 64 (field f.payload 8 8))) / 2).toNat
       let xs := (one :: (s.link p).samples).take 8
       t.link p = { delay := xs.foldl (· + ·) 0 / xs.length, samples := xs, reqAt := none }) ∧
     (d.deliver = true → f.ty = 4 → kind = 3 → (s.link p).reqAt = none → exec (.pdelayResp p f) s = .next (d.s.alive f)) ∧
     (s.firmware = true → s.time.masterMod = some s.module → s.due .syncSend = true → Answers (exec .syncSend s) fun t => t.time.syncSeq = s.time.syncSeq + 1 ∧
       tdue t.timers .syncSend = some ((tdue s.timers .syncSend).getD s.clk + 10000000) ∧
       s.Floods t (s.mkFrame 4 0 s.module 3 s.now32 (pad4 (s.timePayload 1 s.time.syncSeq.toNat s.now 0))) none) ∧
     (s.firmware = false ∨ s.time.masterMod ≠ some s.module ∨ s.due .syncSend = false → exec .syncSend s = .next s) ∧
     (s.firmware = true → s.due .announceSend = true → Answers (exec .announceSend s) fun t => t.time.annSeq = s.time.annSeq + 1 ∧ t.time.masterMod.isSome = true ∧
       tdue t.timers .announceSend = some ((tdue s.timers .announceSend).getD s.clk + 1000000000)) ∧
     (s.firmware = false ∨ s.due .announceSend = false → exec .announceSend s = .next s) ∧
     (s.Delivers p f → f.ty = 4 → kind = 4 → s.firmware = true → s.time.masterMod = none → Answers (exec (.announce p f) s) fun t =>
       t.time.masterMod = some (if lexLess [field f.payload 1 1, field f.payload 24 4, f.srcMod] [s.time.grade.toNat, (s.afterFrame p f).timeErr, s.module] then f.srcMod else s.module)) ∧
     (∀ m g e a, s.Delivers p f → f.ty = 4 → kind = 4 → s.firmware = true → s.time.masterMod = some m → m ≠ f.srcMod → tfind s.time.heard f.srcMod = some (g, e, a, 2) →
       field f.payload 1 1 < s.time.masterGrade → Answers (exec (.announce p f) s) fun t => t.time.masterMod = some f.srcMod ∧ t.time.masterGrade = field f.payload 1 1) ∧
     (∀ m, s.time.masterMod = some m → m ≠ s.module → s.expired .masterSync = true → (∀ q ∈ terase s.time.heard m, 3000000000 ≤ s.clk - q.2.2.2.1) →
       Answers (exec .masterSyncTimeout s) fun t => t.time.masterMod = some s.module ∧ t.armed .masterSync = false) ∧
     (s.time.masterMod = some s.module ∨ s.time.masterMod = none → exec .masterSyncTimeout s = .next s) ∧
     (f.crcOk = false → Answers (exec (.sync p f) s) fun t => t.time.offset = s.time.offset ∧ t.time.masterMod = s.time.masterMod) ∧
     (∀ m, (let g := if f.formed ∧ f.crcOk then syncOn f (s.link p).delay s.draw.1 else f
       (s.draw.2.receive p g).deliver = true → f.ty = 4 → kind = 1 → s.firmware = true → s.time.masterMod = some m → m = f.srcMod → m ≠ s.module →
         Answers (exec (.sync p f) s) fun t => t.time.masterMod = some m ∧ t.time.masterGrade = field f.payload 1 1 ∧ tdue t.timers .masterSync = some (s.clk + 50000000))))

/-- R400, R402, R404 to R406, R408 to R411, R415, R416: what the CAN channels do with frames, errors and the rate search: filters, queues and objects, the transmit slots and the reference message, aborts, bus-off and its end, integration. R401, R405, R409 to R411, R416: the commands on CAN channels, each with its checks in the order of R324: configuration, abort of a transmit slot, the rate search. -/
def Obligations.CanChannels : Prop :=
  (∀ (c : Fin 4) (f : CanFrame) (i : Fin 64) (o : CanTx) (inc : Byte) (d : CanDetect) (s : State),
     let x := s.canOf c
     let slot : Fin 65 := ⟨i.val, by omega⟩
     let ref : Fin 65 := 64
     let got := exec (.canFrameReceived c f) s
     let first := x.matches_ f i = true ∧ ∀ j, j < i.val → x.matches_ f j = false
     let toQ1 := (tget (0 : W32) x.match_ i).getLsbD 29
     let ended := fun (t : State) (n detail : Nat) => ∀ r, (s.mb.queue.filter fun r => r.running && decide (r.cmd = 0x0B02) && decide (field r.payload 0 1 = c.val) &&
       decide (field r.payload 1 1 = n)) = [r] → Answered s t r .ok detail []
     let found := fun (t : State) (index frames : Nat) => ∀ r, (s.mb.queue.find? fun r => decide (r.src = d.req) && decide (r.cmd = 0x0B03) && decide (r.seq = d.cmdSeq)) = some r →
       Answered s t r .ok 0 (leBytes 1 index ++ leBytes 3 0 ++ leBytes 4 frames)
     (x.live = false → got = .next s ∧ exec (.canFrameSent c slot) s = .next s ∧ exec (.canFrameSent c ref) s = .next s ∧ exec (.canTxRetransmit c slot inc) s = .next s ∧
       exec (.canTxRetransmit c ref inc) s = .next s ∧ exec (.canBusOff c) s = .next s ∧ exec (.canBusError c inc) s = .next s) ∧
     (x.live = true →
       (f.remote = true → Answers got fun t => (t.canOf c).remote = x.remote + 1 ∧ (t.canOf c).objs = x.objs ∧ (t.canOf c).q1 = x.q1) ∧
       (f.remote = false → (∀ j, j < 64 → x.matches_ f j = false) → Answers got fun t => (t.canOf c).noMatch = x.noMatch + 1 ∧ (t.canOf c).objs = x.objs) ∧
       (f.remote = false → first → toQ1 = true → x.q1.length < 64 → Answers got fun t => (t.canOf c).q1 = x.q1 ++ [f] ∧ (t.canOf c).dropped = x.dropped) ∧
       (f.remote = false → first → toQ1 = true → 64 ≤ x.q1.length → Answers got fun t => (t.canOf c).q1 = x.q1 ∧ (t.canOf c).dropped = x.dropped + 1 ∧ (t.canOf c).q1ovf = true) ∧
       (f.remote = false → first → toQ1 = false → x.q0 = [] → Answers got fun t => (t.canOf c).q0 = [] ∧
         (t.canOf c).objs = x.objs.map fun b => if b.cfg.filter = i.val then b.write f else b) ∧
       (f.remote = false → first → toQ1 = false → 64 ≤ x.q0.length → Answers got fun t => (t.canOf c).dropped0 = x.dropped0 + 1 ∧ (t.canOf c).q0ovf = true) ∧
       (s.active = true → x.tref.msb = true → f.ide = false → f.remote = false → x.refStop = false → f.id.toNat % 2 ^ 11 = bitsAt x.tref.toNat 0 11 →
         Answers got fun t => (t.canOf c).conflict = true ∧ (t.canOf c).refStop = true ∧ (t.canOf c).ref = none) ∧
       (x.detect = some d → d.good < 3 → Answers got fun t => (t.canOf c).detect = some { d with frames := d.frames + 1, good := d.good + 1 } ∧
         tdue t.timers (.canDwell c) = some (s.clk + d.dwell * 1000000)) ∧
       (x.detect = some d → 3 ≤ d.good → Answers got fun t => (t.canOf c).detect = none ∧ found t d.index (d.frames + 1) ∧ t.armed (.canSearch c) = false ∧
         ∀ y, d.apply = true → x.table[d.index]? = some y → (t.canOf c).nbt = CanTiming.nbt y ∧ (t.canOf c).dbt = CanTiming.dbt y)) ∧
     (x.live = true → x.tx[i.val]? = some o → o.onBus = true → o.pend = some f → Answers (exec (.canFrameSent c slot) s) fun t =>
       (o.aborting = false → t.out = .can c f :: s.out) ∧ (o.aborting = true → Out.can c f ∈ t.out ∧ ended t i 2) ∧
       (t.canOf c).tx = x.tx.set i { o with pend := o.next, next := none, onBus := false, aborting := false } ∧ (t.canOf c).tec = (if x.tec = 0 then 0 else x.tec - 1)) ∧
     (x.tx[i.val]? = none ∨ (x.tx[i.val]? = some o ∧ (o.onBus = false ∨ o.pend = none)) → exec (.canFrameSent c slot) s = .next s) ∧
     (x.live = true → x.ref = some f → s.canMode x = 1 → (∀ y ∈ x.tx, y.onBus = false) → Answers (exec (.canFrameSent c ref) s) fun t =>
       t.out = .can c f :: s.out ∧ (t.canOf c).ref = none ∧ (t.canOf c).tec = (if x.tec = 0 then 0 else x.tec - 1)) ∧
     (x.ref = none ∨ s.canMode x ≠ 1 ∨ (∃ y ∈ x.tx, y.onBus = true) → exec (.canFrameSent c ref) s = .next s) ∧
     (x.live = true → x.tx[i.val]? = some o → o.onBus = true → Answers (exec (.canTxRetransmit c slot inc) s) fun t =>
       (t.canOf c).tx = x.tx.set i { o with pend := if o.aborting then o.next else o.next.orElse fun _ => o.pend, next := none, onBus := false, aborting := false } ∧
       (t.canOf c).tec = BitVec.ofNat 8 (min 255 (x.tec.toNat + inc.toNat)) ∧ (o.aborting = false → t.out = s.out) ∧ (o.aborting = true → ended t i 1)) ∧
     (x.tx[i.val]? = none ∨ (x.tx[i.val]? = some o ∧ o.onBus = false) → exec (.canTxRetransmit c slot inc) s = .next s) ∧
     (x.live = true → x.ref = some f → Answers (exec (.canTxRetransmit c ref inc) s) fun t => (t.canOf c).ref = some f ∧
       (t.canOf c).tec = BitVec.ofNat 8 (min 255 (x.tec.toNat + inc.toNat))) ∧
     (x.ref = none → exec (.canTxRetransmit c ref inc) s = .next s) ∧
     (x.live = true → Answers (exec (.canBusOff c) s) fun t => (t.canOf c).estate = 2 ∧ (t.canOf c).tec = 255 ∧ (t.canOf c).q1 = x.q1 ∧
       (t.canOf c).tx = x.tx.map fun y => if y.onBus then CanTx.fails y else y) ∧
     (x.on = true → x.estate = 2 → Answers (exec (.canBusOffRecovery c) s) fun t => t.canOf c = { x with estate := 0, tec := 0, recCnt := 0 }) ∧
     (x.on = false ∨ x.estate ≠ 2 → exec (.canBusOffRecovery c) s = .next s) ∧
     (s.expired (.canOn c) = true → x.mode ≠ 0 → Answers (exec (.canIntegration c) s) fun t => t.canOf c = { x with on := true } ∧ t.armed (.canOn c) = false) ∧
     (s.expired (.canOn c) = true → x.mode = 0 → Answers (exec (.canIntegration c) s) fun t => t.can = s.can ∧ t.armed (.canOn c) = false) ∧
     (s.expired (.canOn c) = false → exec (.canIntegration c) s = .next s) ∧
     (x.live = true → Answers (exec (.canBusError c inc) s) fun t => (t.canOf c).recCnt = BitVec.ofNat 8 (min 255 (x.recCnt.toNat + inc.toNat)) ∧
       (x.detect = some d → (t.canOf c).detect = some { d with index := (d.index + 1) % 8, good := 0 })) ∧
     (x.detect = some d → s.expired (.canDwell c) = true → Answers (exec (.canDwellExpiry c) s) fun t =>
       (t.canOf c).detect = some { d with index := (d.index + 1) % 8, good := 0 } ∧ tdue t.timers (.canDwell c) = some (s.clk + d.dwell * 1000000)) ∧
     (x.detect = none ∨ s.expired (.canDwell c) = false → exec (.canDwellExpiry c) s = .next s) ∧
     (x.detect = some d → s.expired (.canSearch c) = true → Answers (exec (.canSearchExpiry c) s) fun t => (t.canOf c).detect = none ∧ (t.canOf c).nbt = x.nbt ∧
       t.armed (.canSearch c) = false ∧ found t 0xFF d.frames) ∧
     (x.detect = none ∨ s.expired (.canSearch c) = false → exec (.canSearchExpiry c) s = .next s)) ∧
  (∀ (q : ReqSrc) (r : Request) (c : Fin 4) (cfg : CanCfg) (s : State),
     let is := fun code : Nat => s.reqOf q code = some r
     let f := field r.payload
     let x := s.canOf (f 0 1)
     (is 0x0B01 → Runs (exec (.canConfig q c cfg) s) s r [sys r, (s.canCfgOk cfg, .checkFail)] .here (Answers (exec (.canConfig q c cfg) s) fun t =>
       Answered s t r .ok 0 [] ∧ t.canOf c = (s.canOf c).configure cfg ∧ (t.canOf c).mode = cfg.mode ∧ (∀ k, k ≠ c.val → t.canOf k = s.canOf k) ∧
       (s.joined = true → cfg.mode ≠ 0 → (s.canOf c).on = false → s.armed (.canOn c) = false → tdue t.timers (.canOn c) = some s.clk))) ∧
     (is 0x0B02 → Runs (exec (.canAbort q) s) s r [lenIs r 4, (decide (r.part = 0) || decide (((s.abortSlot r).bind fun o => s.canOwner o.cfg) = some r.part), .denied),
         ((s.abortSlot r).isSome, .checkFail)] .here (∀ o, x.tx[f 1 1]? = some o →
       (o.pend = none → AnswersOnly (exec (.canAbort q) s) s r []) ∧
       (o.pend ≠ none → o.onBus = false → Answers (exec (.canAbort q) s) fun t => Answered s t r .ok 1 [] ∧ (t.canOf (f 0 1)).tx = x.tx.set (f 1 1) { o with pend := none }) ∧
       (o.pend ≠ none → o.onBus = true → Answers (exec (.canAbort q) s) fun t => t.mb = (s.started r).mb ∧
         (t.canOf (f 0 1)).tx = x.tx.set (f 1 1) { o with next := none, aborting := true }))) ∧
     (is 0x0B03 → Runs (exec (.canDetectRate q) s) s r [lenIs r 12, sys r,
         (decide (f 0 1 < 4) && decide (f 1 1 < 2) && decide (100 ≤ f 4 4) && decide (f 4 4 ≤ 60000) && decide (10 ≤ f 8 2) && decide (f 8 2 ≤ 1000), .checkFail),
         (decide (x.mode = 3) && x.detect.isNone, .notNow)] .here (Answers (exec (.canDetectRate q) s) fun t =>
       (t.canOf (f 0 1)).detect = some { req := r.src, cmdSeq := r.seq, index := 0, good := 0, frames := 0, apply := decide (f 1 1 % 2 = 1), dwell := f 8 2 } ∧
       tdue t.timers (.canSearch (f 0 1)) = some (s.clk + f 4 4 * 1000000) ∧ tdue t.timers (.canDwell (f 0 1)) = some (s.clk + f 8 2 * 1000000) ∧ t.mb = (s.started r).mb)))

/-- R286, R327, R338, R412 to R416: the station ports: links, gratuitous ARP, the frame limit, ARP and ICMP echo replies, duplicates and wrong LANs under PRP, supervision frames, and the commands that configure them. R354, R355, R362: PTP on the station ports: the messages a port takes, the link delay, the choice of the port, and the Sync of the selected port's master. A servo rate or error estimate is a free value (log 10). -/
def Obligations.StationPortsAndPtp : Prop :=
  (∀ (q : ReqSrc) (r : Request) (port : Fin 2) (speed : Fin 3) (fr : EthFrame) (cfg : StationCfg) (pub : StationPub) (s : State),
     let up := fun x : Station => if port.val = 0 then x.link1 else x.link2
     let here := s.powered = true ∧ (s.mod.st = .recovery → port.val = 0)
     let owed := tget 0 s.stn.arp port
     (¬here → ∀ b, exec (.stationLinkUp port speed b) s = .next s) ∧
     (here → Answers (exec (.stationLinkUp port speed true) s) fun t => up t.stn = true ∧ (if port.val = 0 then t.stn.spd1 else t.stn.spd2) = BitVec.ofNat 2 speed ∧
       tget 0 t.stn.arp port = 3 ∧ tdue t.timers (.arp port) = some s.clk ∧
       (∀ ip mask gate, s.nv.pendIp = some (ip, mask, gate) → t.stn.ip = ip ∧ t.stn.ipMask = mask ∧ t.stn.ipGate = gate ∧ t.nv.pendIp = none) ∧
       (s.nv.pendIp = none → t.stn.ip = s.stn.ip)) ∧
     (here → Answers (exec (.stationLinkUp port speed false) s) fun t => up t.stn = false ∧ t.armed (.arp port) = false) ∧
     (Answers (exec (.stationLinkDown port) s) fun t => up t.stn = false ∧ tget 0 t.stn.arp port = 0 ∧ t.armed (.arp port) = false) ∧
     (owed = 0 ∨ s.expired (.arp port) = false → exec (.gratuitousArp port) s = .next s) ∧
     (∀ n, owed = n + 1 → s.expired (.arp port) = true → Answers (exec (.gratuitousArp port) s) fun t =>
       t.out = (if s.stackOn port then .arp port :: s.out else s.out) ∧ tget 0 t.stn.arp port = n ∧
       (n ≠ 0 → tdue t.timers (.arp port) = some (s.clk + 1000000000)) ∧ (n = 0 → t.armed (.arp port) = false)) ∧
     (let got := exec (.stationFrameReceived port fr) s
      let taken := s.stackOn port = true ∧ fr.ptp = false ∧ fr.vlanTagged = false ∧ fr.toStack = true
      let prp := s.stn.mode = 2 ∧ s.mod.st ≠ .recovery
      let cnt := match tfind s.stn.rxCnt port with | some (u, n) => if u = s.clk / 1000000000 then n else 0 | none => 0
      let processed := fun t : State =>
        (cnt < 20000 → tfind t.stn.rxCnt port = some (s.clk / 1000000000, cnt + 1) ∧ t.stn.rxDrop = s.stn.rxDrop ∧
          t.out = if fr.asks = .other then s.out else .ethReply port fr.src fr.asks :: s.out) ∧
        (20000 ≤ cnt → t.stn.rxCnt = s.stn.rxCnt ∧ t.stn.rxDrop = s.stn.rxDrop + 1 ∧ t.out = s.out)
      let lan := fun (t : State) (a : Bool) => let wrong := a ≠ decide (port.val = 0)
        t.stn.errA = (if wrong ∧ port.val = 0 then s.stn.errA + 1 else s.stn.errA) ∧ t.stn.errB = (if wrong ∧ port.val ≠ 0 then s.stn.errB + 1 else s.stn.errB)
      (¬taken → got = .next s) ∧
      (taken → fr.rct = none ∨ ¬prp → Answers got fun t => processed t ∧ t.stn.seen = s.stn.seen ∧ t.stn.dup = s.stn.dup) ∧
      (∀ sq a, taken → prp → fr.rct = some (sq, a) → (∃ u, (fr.src, sq, u) ∈ s.stn.seen ∧ s.clk - u < 400000000) → Answers got fun t =>
        t.stn.dup = s.stn.dup + 1 ∧ t.stn.rxCnt = s.stn.rxCnt ∧ t.out = s.out ∧ lan t a) ∧
      (∀ sq a, taken → prp → fr.rct = some (sq, a) → (∀ u, (fr.src, sq, u) ∈ s.stn.seen → 400000000 ≤ s.clk - u) → Answers got fun t =>
        processed t ∧ (fr.src, sq, s.clk) ∈ t.stn.seen ∧ t.stn.dup = s.stn.dup ∧ lan t a)) ∧
     (let on := s.stn.mode = 2 ∧ s.mod.st ≠ .recovery ∧ (s.stackOn 0 = true ∨ s.stackOn 1 = true)
      (s.due .prp = true → on → Answers (exec .prpSupervisionSend s) fun t => t.out = .prpSupervision :: s.out ∧
        tdue t.timers .prp = some ((tdue s.timers .prp).getD s.clk + 2000000000)) ∧
      (s.due .prp = false ∨ ¬on → exec .prpSupervisionSend s = .next s)) ∧
     (s.reqOf q 0x0B05 = some r → Runs (exec (.stationConfig q cfg) s) s r [sys r, (decide (cfg.mode ≠ 3) && decide (cfg.ptpDomain < 256), .checkFail)] .here (
       Answers (exec (.stationConfig q cfg) s) fun t => Answered s t r .ok 0 [] ∧ t.stn = { s.stn with mode := cfg.mode } ∧
         t.time = { s.time with ptpDomain := cfg.ptpDomain } ∧ t.nv.pendIp = if cfg.ipv4.isSome then cfg.ipv4 else s.nv.pendIp)) ∧
     (s.reqOf q 0x0B06 = some r → Runs (exec (.stationPubSet q pub) s) s r
         [own r pub.part, (((s.stn.pub? pub.id).map fun x => (own r x.1.part).1).getD true, .denied), s.epochIs r, (pubOk pub, .checkFail),
          ((s.part? pub.part).isSome, .checkFail), ((s.stn.pub? pub.id).isSome || decide (s.stn.pubs.length < 32), .noRoom)] .here (
       Answers (exec (.stationPubSet q pub) s) fun t => Answered s t r .ok 0 [] ∧
         (∃ x seq, t.stn.pub? pub.id = some (x, seq, 0) ∧ x = { pub with dstPort := if pub.dstPort = 0 then 4721 else pub.dstPort } ∧
           seq = ((s.stn.pub? pub.id).map (·.2.1)).getD 0) ∧
         ∀ k, k ≠ pub.id → t.stn.pub? k = s.stn.pub? k))) ∧
  (∀ (port : Fin 2) (m : PtpMsg) (d : PtpData) (turnaround : Nat) (s : State),
     let p := port.val
     let x := s.ptp p
     let takes := s.ptpTakes p m = true
     (s.ptpTakes p m = false → exec (.ptpPdelayReq port m) s = .next s ∧ exec (.ptpAnnounce port m d) s = .next s ∧ exec (.ptpSync port m) s = .next s ∧
       exec (.ptpPdelayResp port m turnaround) s = .next s) ∧
     (takes → Answers (exec (.ptpPdelayReq port m) s) fun t => t.out = .ptpPdelayResp p m.rx s.now :: s.out ∧ t = { s with out := t.out }) ∧
     (takes → ∀ t1, x.reqAt = some t1 → Answers (exec (.ptpPdelayResp port m turnaround) s) fun t =>
       t.ptp p = { x with delay := ((since m.rx t1).toNat - turnaround) / 2, reqAt := none } ∧ t = { s with time := { s.time with ptp := t.time.ptp } }) ∧
     (x.reqAt = none → exec (.ptpPdelayResp port m turnaround) s = .next s) ∧
     (s.firmware = true → s.ethUp p = true → s.due (.ptpPdelay p) = true → Answers (exec (.ptpPdelayReqSend port) s) fun t => t.out = .ptpPdelayReq p :: s.out ∧
       (t.ptp p).reqAt = some s.now ∧ tdue t.timers (.ptpPdelay p) = some ((tdue s.timers (.ptpPdelay p)).getD s.clk + 1000000000)) ∧
     (s.firmware = false ∨ s.ethUp p = false ∨ s.due (.ptpPdelay p) = false → exec (.ptpPdelayReqSend port) s = .next s) ∧
     (takes → (∀ id old, x.current s.clk = some (id, old) → id = m.identity ∨ ptpBetter d old = true) → Answers (exec (.ptpAnnounce port m d) s) fun t =>
       (t.ptp p).master = some (m.identity, d) ∧ (t.ptp p).annAt = s.clk ∧ t.time.ptpPort.isSome = true ∧ t.time.offset = s.time.offset) ∧
     (takes → ∀ id old, x.current s.clk = some (id, old) → id ≠ m.identity → ptpBetter d old = false → Answers (exec (.ptpAnnounce port m d) s) fun t => t.ptp p = x) ∧
     (let lost := usable s.clk (s.ptp p).lastSync = false ∧ ((s.ptp (1 - p)).current s.clk).isSome = true
      s.time.ptpPort = some p →
        (3 ≤ s.time.ptpBetter ∨ lost → Answers (exec .ptpPortSwitch s) fun t => t.time.ptpPort = some (1 - p) ∧ t.time.ptpBetter = 0) ∧
        (s.time.ptpBetter < 3 → ¬lost → exec .ptpPortSwitch s = .next s)) ∧
     (s.time.ptpPort = none → exec .ptpPortSwitch s = .next s) ∧
     (takes → (x.master.map (·.1)) = some m.identity → Answers (exec (.ptpSync port m) s) fun t => (t.ptp p).lastSync = some s.clk ∧ t.mem = s.mem) ∧
     (takes → (x.master.map (·.1)) ≠ some m.identity → exec (.ptpSync port m) s = .next s) ∧
     (let o := since (m.ts + BitVec.ofNat 64 x.delay) m.rx
      let u := s.setPtp p { x with lastSync := some s.clk }
      takes → (x.master.map (·.1)) = some m.identity → s.time.ptpPort = some p → u.timeSource = p + 1 → s.time.everSet = true → s.time.stepThr.toNat ≤ o.natAbs →
       s.time.step = none → Answers (exec (.ptpSync port m) s) fun t => t.time.stepRefused = true ∧ t.time.refused = BitVec.ofInt 64 o ∧ t.time.offset = s.time.offset ∧
         t.time.lastMeas = s.clk))

/-! ### Supply, start and stop -/

/-- R475: the inventory EEPROM answers at 0x50 with its 256 bytes, while INV_3V3 is supplied, and a write changes nothing. R444, R446, R450, R451, R453, R454, R459, R466 to R468: supply, straps, RST_N and PRESENT_N: the start delay, the converters, BOOT, and what a reset leaves (MRAM and the command queue stay, lanes and DRAM are empty). -/
def Obligations.SupplyAndStart : Prop :=
  (eeprom.length = 256 ∧ eeprom.take 4 = [0x51#8, 0x44, 0x4C, 0x49] ∧ eeprom.drop 252 = leBytes 4 (crc32c (eeprom.take 252)).toNat ∧
    (eeprom.drop 8).take 8 = leBytes 8 Config.serial.toNat ∧ (∀ i, i < 256 → eepromRead true 0x50 i = eeprom[i]?) ∧ (∀ i, eepromRead false 0x50 i = none) ∧
    ∀ a i v s, State.eepromWrite a i v s = s) ∧
  ∀ (mv : Nat) (addr : BitVec 12) (addrp side recoveryN : Bool) (s : State),
    let delay := s.pins.addr.toNat % 64 % 8 * 50 * 1000000
    let bypass := s.mod.st = .bypass
    let boots := fun (t : State) => t.mod.st = .boot ∧ t.pwr.convOn = true ∧ t.pins.hrdy = true ∧ t.host.stBoot = true ∧ tdue t.timers .bootLimit = some (s.clk + 60000000000)
    let wasReset := fun (t : State) (c : Byte) => t.mod.st = .bypass ∧ t.mod.stop = .none ∧ t.pwr.cause = c ∧ t.lanes = [] ∧ t.pending = s.pending ∧ t.clk = s.clk ∧
      (∀ a, Mem.rd t.mem a = if 0x5000000000 ≤ a ∧ a < 0x5008000000 then Mem.rd s.mem a else 0)
    (mv < 18500 → exec (.vinApplied mv) s = .next { s with pins := { s.pins with vin := mv } }) ∧
    (s.mod.st = .off → 18500 ≤ mv → mv ≤ 33000 → s.pins.vin < 18500 → s.pins.presentN = false → s.pins.parityOk = true → s.pwr.locked = false →
      Answers (exec (.vinApplied mv) s) fun t => wasReset t 0x00 ∧ t.pwr.vin = BitVec.ofNat 16 mv ∧ tdue t.timers .startDelay = some (s.clk + 10000000 + delay)) ∧
    (17000 ≤ mv → mv ≤ 33000 → Answers (exec (.powerLoss mv) s) fun t => t = { s with pins := t.pins } ∧ t.pins.vin = mv) ∧
    (mv < 17000 → bypass → s.pwr.convOn = false → Answers (exec (.powerLoss mv) s) fun t => t.mod.st = .off ∧ t.timers = [] ∧ t.pwr.vin = 0) ∧
    (mv < 17000 → s.powered = true → s.pwr.convOn = true → s.pwr.holdupOk = true → s.mod.stop = .none → Answers (exec (.powerLoss mv) s) fun t =>
      t.mod.stop = .waiting 0x01 false ∧ t.trip.drive = 0 ∧ t.mod.st = s.mod.st ∧ t.mem = s.mem) ∧
    (bypass → s.mayStart = true → s.stopping = false → s.expired .startDelay = true →
      (s.pins.rstN = true → Answers (exec .startDelayExpiry s) boots) ∧
      (s.pins.rstN = false → Answers (exec .startDelayExpiry s) fun t => t.mod.st = .bypass ∧ t.pwr.convOn = true)) ∧
    (bypass → s.pwr.convOn = true → s.pins.rstN = true → s.pwr.tcxoBad = false → s.stopping = false → s.expired .rstRelease = true →
      Answers (exec .startDelayExpiry s) boots) ∧
    (s.pwr.convOn = true → exec .holdupCharged s = .next { s with pwr := { s.pwr with holdupOk := true } }) ∧
    (s.pwr.convOn = false → exec .holdupCharged s = .next s) ∧
    (let p := { s.pins with addr := addr, addrp := addrp, pairSide := side, recoveryN := recoveryN };
      (bypass → Answers (exec (.strapChange addr addrp side recoveryN) s) fun t => t.pwr.strap = p.strapWord ∧ t.pins = p) ∧
      (s.mod.st ≠ .bypass → exec (.strapChange addr addrp side recoveryN) s = .next { s with pins := p })) ∧
    (s.powered = true → s.resettable = true → Answers (exec .rstNLow s) fun t => wasReset t 0x10 ∧ t.pins.rstN = false ∧ t.pwr.convOn = s.pwr.convOn) ∧
    (bypass → s.pins.rstN = false → s.pwr.convOn = true → Answers (exec .rstNHigh s) fun t => t.pins.rstN = true ∧ tdue t.timers .rstRelease = some (s.clk + 1000000)) ∧
    (s.powered = true → s.pins.presentN = false → s.mod.stop = .none → Answers (exec .presentNHigh s) fun t => t.mod.stop = .waiting 0 true ∧ t.pins.presentN = true ∧
      t.trip.drive = 0 ∧ tdue t.timers .stopWait = some (s.clk + if s.mod.st = .active then 1000000 else 100000)) ∧
    (s.mod.st ≠ .off → s.mod.withdrawn = true → Answers (exec .presentNLow s) fun t => wasReset t 0x10 ∧ t.pins.presentN = false)

/-- R208, R230, R258, R449, R453, R455 to R458: the stop in order and its end, rails, temperatures, restarts, the watchdog, the BOOT limit and the clock monitor. R254, R271, R278, R279, R283, R459, R460: BOOT ends in JOINING, in SERVICE after a failed self-test, or in RECOVERY; the running time of a TRIAL slot and its limit; the LED test. -/
def Obligations.StopsFaultsAndBoot : Prop :=
  (∀ (c : Byte) (w : Bool) (rail : Fin 8) (core : Fin 4) (tdie tinlet : W16) (s : State),
     let reset := fun (t : State) (c : Byte) => t.mod.st = .bypass ∧ t.mod.stop = .none ∧ t.pwr.cause = c ∧ t.pending = s.pending ∧ t.lanes = []
     (s.mod.stop = .waiting c w → s.expired .stopWait = true → Answers (exec .stopInOrderWaitEnd s) fun t => t.mod.stop = .planned c w ∧
       tdue t.timers .bypassClose = some (s.clk + 70000) ∧ t.armed .stopWait = false) ∧
     (s.mod.stop = .waiting c w → s.expired .stopWait = false → s.partnerTook = false → exec .stopInOrderWaitEnd s = .next s) ∧
     (s.mod.stop = .powerSeq c → s.expired .powerSeq = true → Answers (exec .powerLossSequenceDone s) fun t => t.pwr.convOn = false ∧ t.rcd.staging = [] ∧
       t.mod.st = (if s.pins.vin < 17000 then .off else .bypass) ∧ t.mod.stop = .none) ∧
     (s.mod.st = .off → exec (.railOut5 rail) s = .next s ∧ exec (.railFault rail) s = .next s ∧ exec (.tempWarning tdie tinlet) s = .next s ∧
       exec (.tempFault tdie tinlet) s = .next s) ∧
     (s.mod.st ≠ .off → Answers (exec (.railOut5 rail) s) fun t => t.pwr.out5.getLsbD rail = true ∧ t.pwr.railOk.getLsbD rail = false ∧ t.mod.supply = true) ∧
     (s.mod.st ≠ .off → s.pwr.convOn = true → s.mod.stop = .none → Answers (exec (.railFault rail) s) fun t => t.pwr.out10.getLsbD rail = true ∧
       t.mod.stop = .waiting 0x02 false ∧ t.trip.drive = 0) ∧
     (s.mod.st ≠ .off → 1050 ≤ tdie.toInt ∨ 750 ≤ tinlet.toInt → Answers (exec (.tempWarning tdie tinlet) s) fun t => t.pwr.tdie = tdie ∧ t.pwr.tinlet = tinlet ∧ t.mod.temp = true) ∧
     (s.mod.st ≠ .off → s.pwr.convOn = true → s.mod.stop = .none → 1250 ≤ tdie.toInt → Answers (exec (.tempFault tdie tinlet) s) fun t =>
       t.mod.stop = .waiting 0x03 false ∧ t.pwr.tdie = tdie) ∧
     (s.mod.st ≠ .off → tdie.toInt < 1250 → Answers (exec (.tempFault tdie tinlet) s) fun t => t.mod.stop = s.mod.stop ∧ t.mod.st = s.mod.st) ∧
     (s.mod.st = .bypass → s.expired .restart = true → s.pwr.cause ≠ 0x03 ∨ tdie.toInt < 950 →
       let past := s.mod.restarts.filter fun t => decide (s.clk - t ≤ 600000000000)
       (past.length < 3 → Answers (exec (.faultRestart tdie) s) fun t => t.mod.restarts = s.clk :: past ∧ t.pwr.locked = s.pwr.locked ∧ t.armed .restart = false) ∧
       (3 ≤ past.length → Answers (exec (.faultRestart tdie) s) fun t => t.pwr.locked = true ∧ t.armed .restart = false)) ∧
     (s.powered = true → s.resettable = true → Answers (exec (.watchdogExpiry core) s) fun t => reset t 0x40 ∧ t.mod.watchdog = true) ∧
     (s.mod.st = .boot → s.expired .bootLimit = true → s.resettable = true → Answers (exec .bootTimeout s) fun t => reset t 0x41) ∧
     (s.pwr.convOn = true → s.resettable = true → Answers (exec .clockMonitorFault s) fun t => reset t 0x42 ∧ t.pwr.tcxoBad = true ∧ t.pwr.convOn = true) ∧
     (s.pwr.tcxoBad = true → Answers (exec .tcxoValid s) fun t => t.pwr.tcxoBad = false ∧
       (s.mod.st = .bypass → s.pwr.convOn = true → s.pins.rstN = true → tdue t.timers .rstRelease = some s.clk))) ∧
  (∀ (b : BootResult) (s : State),
     let trial := (if s.nv.runB then s.nv.slotB.st else s.nv.slotA.st) = .trial
     (s.mod.st = .boot → s.stopping = false → b.slotAOk = false → b.slotBOk = false → Answers (exec (.bootComplete b) s) fun t => t.mod.st = .recovery ∧
       t.nv.recCause = some 0 ∧ t.nv.slotA.st = .invalid ∧ t.nv.slotB.st = .invalid) ∧
     (s.mod.st = .boot → s.stopping = false → b.slotAOk = true → b.slotBOk = true → s.nv.slotA.st = .confirmed → s.nv.slotB.st = .valid →
       (s.pwr.recoveryN = false → Answers (exec (.bootComplete b) s) fun t => t.mod.st = .recovery ∧ t.nv.recCause = some 1) ∧
       (s.pwr.recoveryN = true → s.nv.recReq = true → Answers (exec (.bootComplete b) s) fun t => t.mod.st = .recovery ∧ t.nv.recCause = some 2 ∧ t.nv.recReq = false) ∧
       (s.pwr.recoveryN = true → s.nv.recReq = false → Answers (exec (.bootComplete b) s) fun t =>
         t.mod.st = (if b.selfTestOk = true ∧ s.pwr.pairSide = s.pwr.strap.getLsbD 0 ∧ (roundOrder.filter fun u => (s.bootFinds b.cmpFailed u).isSome).length < 2
           then .joining else .service) ∧ t.nv.runB = false ∧ t.armed .bootLimit = false)) ∧
     (s.mod.st = .boot → s.stopping = false → (∀ m ∈ s.nv.moves, m.written = false) → Answers (exec (.bootComplete b) s) fun t => t.nv.moves = []) ∧
     (s.mod.st ≠ .boot → exec (.bootComplete b) s = .next s) ∧
     (trial → s.expired .trialSave = true → Answers (exec .trialTimeSave s) fun t => t.nv = { s.nv with trialTime := s.nv.trialTime + 60 } ∧
       tdue t.timers .trialSave = (tdue s.timers .trialSave).map (· + 60000000000)) ∧
     (trial → s.expired .trialLimit = true → s.mod.stop = .none → s.mod.st ≠ .active → Answers (exec .trialTimeLimit s) fun t => t.mod.stop = .waiting 0x30 false ∧
       t.nv.fallback = some 1 ∧ 7200 ≤ t.nv.trialTime ∧ t.armed .trialLimit = false) ∧
     (trial → s.expired .trialLimit = true → s.active = true → s.stopping = false → s.partnerSynced = true → Answers (exec .trialTimeLimit s) fun t => s.Tells t (.role (.propose 0 true)) ∧
       t.mod.st = .active ∧ tdue t.timers .fallback = some (s.clk + 60000000000)) ∧
     (s.nv.fallback.isSome = true → s.expired .fallback = true → s.active = true → s.stopping = false → s.partnerSynced = false → Answers (exec .fallbackRetry s) fun t => t.mod = s.mod ∧
       t.out = s.out ∧ tdue t.timers .fallback = some (s.clk + 60000000000)) ∧
     (s.nv.fallback = none ∨ s.expired .fallback = false → exec .fallbackRetry s = .next s) ∧
     (¬trial ∨ s.expired .trialSave = false → exec .trialTimeSave s = .next s) ∧ (¬trial ∨ s.expired .trialLimit = false → exec .trialTimeLimit s = .next s) ∧
     (Answers (exec .ledtest s) fun t => t.pins = { s.pins with ledTest := true } ∧ tdue t.timers .led = some (s.clk + 2000000000)) ∧
     (s.expired .led = true → Answers (exec .ledtestEnd s) fun t => t.pins = { s.pins with ledTest := false } ∧ t.armed .led = false) ∧
     (s.expired .led = false → exec .ledtestEnd s = .next s))
end

