-- ==== Sys2Proof/Laws/State.lean ====
section
/-! SUPPORT. What each plain update of the state leaves: one lemma per field and update. -/
namespace Sys2Proof.Machine

/-! ### setLane changes only lanes -/

@[simp] theorem State.setLane_pending (s : State) (l : Nat) (x : Lane) : (s.setLane l x).pending = s.pending := rfl
@[simp] theorem State.setLane_clk (s : State) (l : Nat) (x : Lane) : (s.setLane l x).clk = s.clk := rfl
@[simp] theorem State.setLane_free (s : State) (l : Nat) (x : Lane) : (s.setLane l x).free = s.free := rfl
@[simp] theorem State.setLane_out (s : State) (l : Nat) (x : Lane) : (s.setLane l x).out = s.out := rfl
@[simp] theorem State.setLane_timers (s : State) (l : Nat) (x : Lane) : (s.setLane l x).timers = s.timers := rfl
@[simp] theorem State.setLane_mod (s : State) (l : Nat) (x : Lane) : (s.setLane l x).mod = s.mod := rfl
@[simp] theorem State.setLane_pins (s : State) (l : Nat) (x : Lane) : (s.setLane l x).pins = s.pins := rfl
@[simp] theorem State.setLane_time (s : State) (l : Nat) (x : Lane) : (s.setLane l x).time = s.time := rfl
@[simp] theorem State.setLane_mem (s : State) (l : Nat) (x : Lane) : (s.setLane l x).mem = s.mem := rfl
@[simp] theorem State.setLane_memErr (s : State) (l : Nat) (x : Lane) : (s.setLane l x).memErr = s.memErr := rfl
@[simp] theorem State.setLane_cls (s : State) (l : Nat) (x : Lane) : (s.setLane l x).cls = s.cls := rfl
@[simp] theorem State.setLane_cycles (s : State) (l : Nat) (x : Lane) : (s.setLane l x).cycles = s.cycles := rfl
@[simp] theorem State.setLane_inNext (s : State) (l : Nat) (x : Lane) : (s.setLane l x).inNext = s.inNext := rfl
@[simp] theorem State.setLane_words (s : State) (l : Nat) (x : Lane) : (s.setLane l x).words = s.words := rfl
@[simp] theorem State.setLane_overrun (s : State) (l : Nat) (x : Lane) : (s.setLane l x).overrun = s.overrun := rfl
@[simp] theorem State.setLane_delays (s : State) (l : Nat) (x : Lane) : (s.setLane l x).delays = s.delays := rfl
@[simp] theorem State.setLane_late (s : State) (l : Nat) (x : Lane) : (s.setLane l x).late = s.late := rfl
@[simp] theorem State.setLane_setRx (s : State) (l : Nat) (x : Lane) : (s.setLane l x).setRx = s.setRx := rfl
@[simp] theorem State.setLane_pubSeq (s : State) (l : Nat) (x : Lane) : (s.setLane l x).pubSeq = s.pubSeq := rfl
@[simp] theorem State.setLane_parts (s : State) (l : Nat) (x : Lane) : (s.setLane l x).parts = s.parts := rfl
@[simp] theorem State.setLane_cmp (s : State) (l : Nat) (x : Lane) : (s.setLane l x).cmp = s.cmp := rfl
@[simp] theorem State.setLane_rnd (s : State) (l : Nat) (x : Lane) : (s.setLane l x).rnd = s.rnd := rfl
@[simp] theorem State.setLane_coll (s : State) (l : Nat) (x : Lane) : (s.setLane l x).coll = s.coll := rfl
@[simp] theorem State.setLane_guard (s : State) (l : Nat) (x : Lane) : (s.setLane l x).guard = s.guard := rfl
@[simp] theorem State.setLane_pl (s : State) (l : Nat) (x : Lane) : (s.setLane l x).pl = s.pl := rfl
@[simp] theorem State.setLane_ring (s : State) (l : Nat) (x : Lane) : (s.setLane l x).ring = s.ring := rfl
@[simp] theorem State.setLane_pair (s : State) (l : Nat) (x : Lane) : (s.setLane l x).pair = s.pair := rfl
@[simp] theorem State.setLane_forces (s : State) (l : Nat) (x : Lane) : (s.setLane l x).forces = s.forces := rfl
@[simp] theorem State.setLane_host (s : State) (l : Nat) (x : Lane) : (s.setLane l x).host = s.host := rfl
@[simp] theorem State.setLane_mb (s : State) (l : Nat) (x : Lane) : (s.setLane l x).mb = s.mb := rfl
@[simp] theorem State.setLane_trip (s : State) (l : Nat) (x : Lane) : (s.setLane l x).trip = s.trip := rfl
@[simp] theorem State.setLane_can (s : State) (l : Nat) (x : Lane) : (s.setLane l x).can = s.can := rfl
@[simp] theorem State.setLane_stn (s : State) (l : Nat) (x : Lane) : (s.setLane l x).stn = s.stn := rfl
@[simp] theorem State.setLane_rcd (s : State) (l : Nat) (x : Lane) : (s.setLane l x).rcd = s.rcd := rfl
@[simp] theorem State.setLane_ctr (s : State) (l : Nat) (x : Lane) : (s.setLane l x).ctr = s.ctr := rfl
@[simp] theorem State.setLane_pwr (s : State) (l : Nat) (x : Lane) : (s.setLane l x).pwr = s.pwr := rfl
@[simp] theorem State.setLane_nv (s : State) (l : Nat) (x : Lane) : (s.setLane l x).nv = s.nv := rfl

/-! ### setPart changes only parts -/

@[simp] theorem State.setPart_pending (s : State) (p : Nat) (x : Part) : (s.setPart p x).pending = s.pending := rfl
@[simp] theorem State.setPart_clk (s : State) (p : Nat) (x : Part) : (s.setPart p x).clk = s.clk := rfl
@[simp] theorem State.setPart_free (s : State) (p : Nat) (x : Part) : (s.setPart p x).free = s.free := rfl
@[simp] theorem State.setPart_out (s : State) (p : Nat) (x : Part) : (s.setPart p x).out = s.out := rfl
@[simp] theorem State.setPart_timers (s : State) (p : Nat) (x : Part) : (s.setPart p x).timers = s.timers := rfl
@[simp] theorem State.setPart_mod (s : State) (p : Nat) (x : Part) : (s.setPart p x).mod = s.mod := rfl
@[simp] theorem State.setPart_pins (s : State) (p : Nat) (x : Part) : (s.setPart p x).pins = s.pins := rfl
@[simp] theorem State.setPart_time (s : State) (p : Nat) (x : Part) : (s.setPart p x).time = s.time := rfl
@[simp] theorem State.setPart_lanes (s : State) (p : Nat) (x : Part) : (s.setPart p x).lanes = s.lanes := rfl
@[simp] theorem State.setPart_mem (s : State) (p : Nat) (x : Part) : (s.setPart p x).mem = s.mem := rfl
@[simp] theorem State.setPart_memErr (s : State) (p : Nat) (x : Part) : (s.setPart p x).memErr = s.memErr := rfl
@[simp] theorem State.setPart_cls (s : State) (p : Nat) (x : Part) : (s.setPart p x).cls = s.cls := rfl
@[simp] theorem State.setPart_cycles (s : State) (p : Nat) (x : Part) : (s.setPart p x).cycles = s.cycles := rfl
@[simp] theorem State.setPart_inNext (s : State) (p : Nat) (x : Part) : (s.setPart p x).inNext = s.inNext := rfl
@[simp] theorem State.setPart_words (s : State) (p : Nat) (x : Part) : (s.setPart p x).words = s.words := rfl
@[simp] theorem State.setPart_overrun (s : State) (p : Nat) (x : Part) : (s.setPart p x).overrun = s.overrun := rfl
@[simp] theorem State.setPart_delays (s : State) (p : Nat) (x : Part) : (s.setPart p x).delays = s.delays := rfl
@[simp] theorem State.setPart_late (s : State) (p : Nat) (x : Part) : (s.setPart p x).late = s.late := rfl
@[simp] theorem State.setPart_setRx (s : State) (p : Nat) (x : Part) : (s.setPart p x).setRx = s.setRx := rfl
@[simp] theorem State.setPart_pubSeq (s : State) (p : Nat) (x : Part) : (s.setPart p x).pubSeq = s.pubSeq := rfl
@[simp] theorem State.setPart_cmp (s : State) (p : Nat) (x : Part) : (s.setPart p x).cmp = s.cmp := rfl
@[simp] theorem State.setPart_rnd (s : State) (p : Nat) (x : Part) : (s.setPart p x).rnd = s.rnd := rfl
@[simp] theorem State.setPart_coll (s : State) (p : Nat) (x : Part) : (s.setPart p x).coll = s.coll := rfl
@[simp] theorem State.setPart_guard (s : State) (p : Nat) (x : Part) : (s.setPart p x).guard = s.guard := rfl
@[simp] theorem State.setPart_pl (s : State) (p : Nat) (x : Part) : (s.setPart p x).pl = s.pl := rfl
@[simp] theorem State.setPart_ring (s : State) (p : Nat) (x : Part) : (s.setPart p x).ring = s.ring := rfl
@[simp] theorem State.setPart_pair (s : State) (p : Nat) (x : Part) : (s.setPart p x).pair = s.pair := rfl
@[simp] theorem State.setPart_forces (s : State) (p : Nat) (x : Part) : (s.setPart p x).forces = s.forces := rfl
@[simp] theorem State.setPart_host (s : State) (p : Nat) (x : Part) : (s.setPart p x).host = s.host := rfl
@[simp] theorem State.setPart_mb (s : State) (p : Nat) (x : Part) : (s.setPart p x).mb = s.mb := rfl
@[simp] theorem State.setPart_trip (s : State) (p : Nat) (x : Part) : (s.setPart p x).trip = s.trip := rfl
@[simp] theorem State.setPart_can (s : State) (p : Nat) (x : Part) : (s.setPart p x).can = s.can := rfl
@[simp] theorem State.setPart_stn (s : State) (p : Nat) (x : Part) : (s.setPart p x).stn = s.stn := rfl
@[simp] theorem State.setPart_rcd (s : State) (p : Nat) (x : Part) : (s.setPart p x).rcd = s.rcd := rfl
@[simp] theorem State.setPart_ctr (s : State) (p : Nat) (x : Part) : (s.setPart p x).ctr = s.ctr := rfl
@[simp] theorem State.setPart_pwr (s : State) (p : Nat) (x : Part) : (s.setPart p x).pwr = s.pwr := rfl
@[simp] theorem State.setPart_nv (s : State) (p : Nat) (x : Part) : (s.setPart p x).nv = s.nv := rfl

/-! ### setCls changes only cls -/

@[simp] theorem State.setCls_pending (s : State) (k : Nat) (c : Cls) : (s.setCls k c).pending = s.pending := rfl
@[simp] theorem State.setCls_clk (s : State) (k : Nat) (c : Cls) : (s.setCls k c).clk = s.clk := rfl
@[simp] theorem State.setCls_free (s : State) (k : Nat) (c : Cls) : (s.setCls k c).free = s.free := rfl
@[simp] theorem State.setCls_out (s : State) (k : Nat) (c : Cls) : (s.setCls k c).out = s.out := rfl
@[simp] theorem State.setCls_timers (s : State) (k : Nat) (c : Cls) : (s.setCls k c).timers = s.timers := rfl
@[simp] theorem State.setCls_mod (s : State) (k : Nat) (c : Cls) : (s.setCls k c).mod = s.mod := rfl
@[simp] theorem State.setCls_pins (s : State) (k : Nat) (c : Cls) : (s.setCls k c).pins = s.pins := rfl
@[simp] theorem State.setCls_time (s : State) (k : Nat) (c : Cls) : (s.setCls k c).time = s.time := rfl
@[simp] theorem State.setCls_lanes (s : State) (k : Nat) (c : Cls) : (s.setCls k c).lanes = s.lanes := rfl
@[simp] theorem State.setCls_mem (s : State) (k : Nat) (c : Cls) : (s.setCls k c).mem = s.mem := rfl
@[simp] theorem State.setCls_memErr (s : State) (k : Nat) (c : Cls) : (s.setCls k c).memErr = s.memErr := rfl
@[simp] theorem State.setCls_cycles (s : State) (k : Nat) (c : Cls) : (s.setCls k c).cycles = s.cycles := rfl
@[simp] theorem State.setCls_inNext (s : State) (k : Nat) (c : Cls) : (s.setCls k c).inNext = s.inNext := rfl
@[simp] theorem State.setCls_words (s : State) (k : Nat) (c : Cls) : (s.setCls k c).words = s.words := rfl
@[simp] theorem State.setCls_overrun (s : State) (k : Nat) (c : Cls) : (s.setCls k c).overrun = s.overrun := rfl
@[simp] theorem State.setCls_delays (s : State) (k : Nat) (c : Cls) : (s.setCls k c).delays = s.delays := rfl
@[simp] theorem State.setCls_late (s : State) (k : Nat) (c : Cls) : (s.setCls k c).late = s.late := rfl
@[simp] theorem State.setCls_setRx (s : State) (k : Nat) (c : Cls) : (s.setCls k c).setRx = s.setRx := rfl
@[simp] theorem State.setCls_pubSeq (s : State) (k : Nat) (c : Cls) : (s.setCls k c).pubSeq = s.pubSeq := rfl
@[simp] theorem State.setCls_parts (s : State) (k : Nat) (c : Cls) : (s.setCls k c).parts = s.parts := rfl
@[simp] theorem State.setCls_cmp (s : State) (k : Nat) (c : Cls) : (s.setCls k c).cmp = s.cmp := rfl
@[simp] theorem State.setCls_rnd (s : State) (k : Nat) (c : Cls) : (s.setCls k c).rnd = s.rnd := rfl
@[simp] theorem State.setCls_coll (s : State) (k : Nat) (c : Cls) : (s.setCls k c).coll = s.coll := rfl
@[simp] theorem State.setCls_guard (s : State) (k : Nat) (c : Cls) : (s.setCls k c).guard = s.guard := rfl
@[simp] theorem State.setCls_pl (s : State) (k : Nat) (c : Cls) : (s.setCls k c).pl = s.pl := rfl
@[simp] theorem State.setCls_ring (s : State) (k : Nat) (c : Cls) : (s.setCls k c).ring = s.ring := rfl
@[simp] theorem State.setCls_pair (s : State) (k : Nat) (c : Cls) : (s.setCls k c).pair = s.pair := rfl
@[simp] theorem State.setCls_forces (s : State) (k : Nat) (c : Cls) : (s.setCls k c).forces = s.forces := rfl
@[simp] theorem State.setCls_host (s : State) (k : Nat) (c : Cls) : (s.setCls k c).host = s.host := rfl
@[simp] theorem State.setCls_mb (s : State) (k : Nat) (c : Cls) : (s.setCls k c).mb = s.mb := rfl
@[simp] theorem State.setCls_trip (s : State) (k : Nat) (c : Cls) : (s.setCls k c).trip = s.trip := rfl
@[simp] theorem State.setCls_can (s : State) (k : Nat) (c : Cls) : (s.setCls k c).can = s.can := rfl
@[simp] theorem State.setCls_stn (s : State) (k : Nat) (c : Cls) : (s.setCls k c).stn = s.stn := rfl
@[simp] theorem State.setCls_rcd (s : State) (k : Nat) (c : Cls) : (s.setCls k c).rcd = s.rcd := rfl
@[simp] theorem State.setCls_ctr (s : State) (k : Nat) (c : Cls) : (s.setCls k c).ctr = s.ctr := rfl
@[simp] theorem State.setCls_pwr (s : State) (k : Nat) (c : Cls) : (s.setCls k c).pwr = s.pwr := rfl
@[simp] theorem State.setCls_nv (s : State) (k : Nat) (c : Cls) : (s.setCls k c).nv = s.nv := rfl

/-! ### setCmp changes only cmp -/

@[simp] theorem State.setCmp_pending (s : State) (u : Nat) (c : Cmp) : (s.setCmp u c).pending = s.pending := rfl
@[simp] theorem State.setCmp_clk (s : State) (u : Nat) (c : Cmp) : (s.setCmp u c).clk = s.clk := rfl
@[simp] theorem State.setCmp_free (s : State) (u : Nat) (c : Cmp) : (s.setCmp u c).free = s.free := rfl
@[simp] theorem State.setCmp_out (s : State) (u : Nat) (c : Cmp) : (s.setCmp u c).out = s.out := rfl
@[simp] theorem State.setCmp_timers (s : State) (u : Nat) (c : Cmp) : (s.setCmp u c).timers = s.timers := rfl
@[simp] theorem State.setCmp_mod (s : State) (u : Nat) (c : Cmp) : (s.setCmp u c).mod = s.mod := rfl
@[simp] theorem State.setCmp_pins (s : State) (u : Nat) (c : Cmp) : (s.setCmp u c).pins = s.pins := rfl
@[simp] theorem State.setCmp_time (s : State) (u : Nat) (c : Cmp) : (s.setCmp u c).time = s.time := rfl
@[simp] theorem State.setCmp_lanes (s : State) (u : Nat) (c : Cmp) : (s.setCmp u c).lanes = s.lanes := rfl
@[simp] theorem State.setCmp_mem (s : State) (u : Nat) (c : Cmp) : (s.setCmp u c).mem = s.mem := rfl
@[simp] theorem State.setCmp_memErr (s : State) (u : Nat) (c : Cmp) : (s.setCmp u c).memErr = s.memErr := rfl
@[simp] theorem State.setCmp_cls (s : State) (u : Nat) (c : Cmp) : (s.setCmp u c).cls = s.cls := rfl
@[simp] theorem State.setCmp_cycles (s : State) (u : Nat) (c : Cmp) : (s.setCmp u c).cycles = s.cycles := rfl
@[simp] theorem State.setCmp_inNext (s : State) (u : Nat) (c : Cmp) : (s.setCmp u c).inNext = s.inNext := rfl
@[simp] theorem State.setCmp_words (s : State) (u : Nat) (c : Cmp) : (s.setCmp u c).words = s.words := rfl
@[simp] theorem State.setCmp_overrun (s : State) (u : Nat) (c : Cmp) : (s.setCmp u c).overrun = s.overrun := rfl
@[simp] theorem State.setCmp_delays (s : State) (u : Nat) (c : Cmp) : (s.setCmp u c).delays = s.delays := rfl
@[simp] theorem State.setCmp_late (s : State) (u : Nat) (c : Cmp) : (s.setCmp u c).late = s.late := rfl
@[simp] theorem State.setCmp_setRx (s : State) (u : Nat) (c : Cmp) : (s.setCmp u c).setRx = s.setRx := rfl
@[simp] theorem State.setCmp_pubSeq (s : State) (u : Nat) (c : Cmp) : (s.setCmp u c).pubSeq = s.pubSeq := rfl
@[simp] theorem State.setCmp_parts (s : State) (u : Nat) (c : Cmp) : (s.setCmp u c).parts = s.parts := rfl
@[simp] theorem State.setCmp_rnd (s : State) (u : Nat) (c : Cmp) : (s.setCmp u c).rnd = s.rnd := rfl
@[simp] theorem State.setCmp_coll (s : State) (u : Nat) (c : Cmp) : (s.setCmp u c).coll = s.coll := rfl
@[simp] theorem State.setCmp_guard (s : State) (u : Nat) (c : Cmp) : (s.setCmp u c).guard = s.guard := rfl
@[simp] theorem State.setCmp_pl (s : State) (u : Nat) (c : Cmp) : (s.setCmp u c).pl = s.pl := rfl
@[simp] theorem State.setCmp_ring (s : State) (u : Nat) (c : Cmp) : (s.setCmp u c).ring = s.ring := rfl
@[simp] theorem State.setCmp_pair (s : State) (u : Nat) (c : Cmp) : (s.setCmp u c).pair = s.pair := rfl
@[simp] theorem State.setCmp_forces (s : State) (u : Nat) (c : Cmp) : (s.setCmp u c).forces = s.forces := rfl
@[simp] theorem State.setCmp_host (s : State) (u : Nat) (c : Cmp) : (s.setCmp u c).host = s.host := rfl
@[simp] theorem State.setCmp_mb (s : State) (u : Nat) (c : Cmp) : (s.setCmp u c).mb = s.mb := rfl
@[simp] theorem State.setCmp_trip (s : State) (u : Nat) (c : Cmp) : (s.setCmp u c).trip = s.trip := rfl
@[simp] theorem State.setCmp_can (s : State) (u : Nat) (c : Cmp) : (s.setCmp u c).can = s.can := rfl
@[simp] theorem State.setCmp_stn (s : State) (u : Nat) (c : Cmp) : (s.setCmp u c).stn = s.stn := rfl
@[simp] theorem State.setCmp_rcd (s : State) (u : Nat) (c : Cmp) : (s.setCmp u c).rcd = s.rcd := rfl
@[simp] theorem State.setCmp_ctr (s : State) (u : Nat) (c : Cmp) : (s.setCmp u c).ctr = s.ctr := rfl
@[simp] theorem State.setCmp_pwr (s : State) (u : Nat) (c : Cmp) : (s.setCmp u c).pwr = s.pwr := rfl
@[simp] theorem State.setCmp_nv (s : State) (u : Nat) (c : Cmp) : (s.setCmp u c).nv = s.nv := rfl

/-! ### setCan changes only can -/

@[simp] theorem State.setCan_pending (s : State) (c : Nat) (x : Can) : (s.setCan c x).pending = s.pending := rfl
@[simp] theorem State.setCan_clk (s : State) (c : Nat) (x : Can) : (s.setCan c x).clk = s.clk := rfl
@[simp] theorem State.setCan_free (s : State) (c : Nat) (x : Can) : (s.setCan c x).free = s.free := rfl
@[simp] theorem State.setCan_out (s : State) (c : Nat) (x : Can) : (s.setCan c x).out = s.out := rfl
@[simp] theorem State.setCan_timers (s : State) (c : Nat) (x : Can) : (s.setCan c x).timers = s.timers := rfl
@[simp] theorem State.setCan_mod (s : State) (c : Nat) (x : Can) : (s.setCan c x).mod = s.mod := rfl
@[simp] theorem State.setCan_pins (s : State) (c : Nat) (x : Can) : (s.setCan c x).pins = s.pins := rfl
@[simp] theorem State.setCan_time (s : State) (c : Nat) (x : Can) : (s.setCan c x).time = s.time := rfl
@[simp] theorem State.setCan_lanes (s : State) (c : Nat) (x : Can) : (s.setCan c x).lanes = s.lanes := rfl
@[simp] theorem State.setCan_mem (s : State) (c : Nat) (x : Can) : (s.setCan c x).mem = s.mem := rfl
@[simp] theorem State.setCan_memErr (s : State) (c : Nat) (x : Can) : (s.setCan c x).memErr = s.memErr := rfl
@[simp] theorem State.setCan_cls (s : State) (c : Nat) (x : Can) : (s.setCan c x).cls = s.cls := rfl
@[simp] theorem State.setCan_cycles (s : State) (c : Nat) (x : Can) : (s.setCan c x).cycles = s.cycles := rfl
@[simp] theorem State.setCan_inNext (s : State) (c : Nat) (x : Can) : (s.setCan c x).inNext = s.inNext := rfl
@[simp] theorem State.setCan_words (s : State) (c : Nat) (x : Can) : (s.setCan c x).words = s.words := rfl
@[simp] theorem State.setCan_overrun (s : State) (c : Nat) (x : Can) : (s.setCan c x).overrun = s.overrun := rfl
@[simp] theorem State.setCan_delays (s : State) (c : Nat) (x : Can) : (s.setCan c x).delays = s.delays := rfl
@[simp] theorem State.setCan_late (s : State) (c : Nat) (x : Can) : (s.setCan c x).late = s.late := rfl
@[simp] theorem State.setCan_setRx (s : State) (c : Nat) (x : Can) : (s.setCan c x).setRx = s.setRx := rfl
@[simp] theorem State.setCan_pubSeq (s : State) (c : Nat) (x : Can) : (s.setCan c x).pubSeq = s.pubSeq := rfl
@[simp] theorem State.setCan_parts (s : State) (c : Nat) (x : Can) : (s.setCan c x).parts = s.parts := rfl
@[simp] theorem State.setCan_cmp (s : State) (c : Nat) (x : Can) : (s.setCan c x).cmp = s.cmp := rfl
@[simp] theorem State.setCan_rnd (s : State) (c : Nat) (x : Can) : (s.setCan c x).rnd = s.rnd := rfl
@[simp] theorem State.setCan_coll (s : State) (c : Nat) (x : Can) : (s.setCan c x).coll = s.coll := rfl
@[simp] theorem State.setCan_guard (s : State) (c : Nat) (x : Can) : (s.setCan c x).guard = s.guard := rfl
@[simp] theorem State.setCan_pl (s : State) (c : Nat) (x : Can) : (s.setCan c x).pl = s.pl := rfl
@[simp] theorem State.setCan_ring (s : State) (c : Nat) (x : Can) : (s.setCan c x).ring = s.ring := rfl
@[simp] theorem State.setCan_pair (s : State) (c : Nat) (x : Can) : (s.setCan c x).pair = s.pair := rfl
@[simp] theorem State.setCan_forces (s : State) (c : Nat) (x : Can) : (s.setCan c x).forces = s.forces := rfl
@[simp] theorem State.setCan_host (s : State) (c : Nat) (x : Can) : (s.setCan c x).host = s.host := rfl
@[simp] theorem State.setCan_mb (s : State) (c : Nat) (x : Can) : (s.setCan c x).mb = s.mb := rfl
@[simp] theorem State.setCan_trip (s : State) (c : Nat) (x : Can) : (s.setCan c x).trip = s.trip := rfl
@[simp] theorem State.setCan_stn (s : State) (c : Nat) (x : Can) : (s.setCan c x).stn = s.stn := rfl
@[simp] theorem State.setCan_rcd (s : State) (c : Nat) (x : Can) : (s.setCan c x).rcd = s.rcd := rfl
@[simp] theorem State.setCan_ctr (s : State) (c : Nat) (x : Can) : (s.setCan c x).ctr = s.ctr := rfl
@[simp] theorem State.setCan_pwr (s : State) (c : Nat) (x : Can) : (s.setCan c x).pwr = s.pwr := rfl
@[simp] theorem State.setCan_nv (s : State) (c : Nat) (x : Can) : (s.setCan c x).nv = s.nv := rfl

/-! ### setCycle changes only cycles -/

@[simp] theorem State.setCycle_pending (s : State) (c : Cycle) : (s.setCycle c).pending = s.pending := rfl
@[simp] theorem State.setCycle_clk (s : State) (c : Cycle) : (s.setCycle c).clk = s.clk := rfl
@[simp] theorem State.setCycle_free (s : State) (c : Cycle) : (s.setCycle c).free = s.free := rfl
@[simp] theorem State.setCycle_out (s : State) (c : Cycle) : (s.setCycle c).out = s.out := rfl
@[simp] theorem State.setCycle_timers (s : State) (c : Cycle) : (s.setCycle c).timers = s.timers := rfl
@[simp] theorem State.setCycle_mod (s : State) (c : Cycle) : (s.setCycle c).mod = s.mod := rfl
@[simp] theorem State.setCycle_pins (s : State) (c : Cycle) : (s.setCycle c).pins = s.pins := rfl
@[simp] theorem State.setCycle_time (s : State) (c : Cycle) : (s.setCycle c).time = s.time := rfl
@[simp] theorem State.setCycle_lanes (s : State) (c : Cycle) : (s.setCycle c).lanes = s.lanes := rfl
@[simp] theorem State.setCycle_mem (s : State) (c : Cycle) : (s.setCycle c).mem = s.mem := rfl
@[simp] theorem State.setCycle_memErr (s : State) (c : Cycle) : (s.setCycle c).memErr = s.memErr := rfl
@[simp] theorem State.setCycle_cls (s : State) (c : Cycle) : (s.setCycle c).cls = s.cls := rfl
@[simp] theorem State.setCycle_inNext (s : State) (c : Cycle) : (s.setCycle c).inNext = s.inNext := rfl
@[simp] theorem State.setCycle_words (s : State) (c : Cycle) : (s.setCycle c).words = s.words := rfl
@[simp] theorem State.setCycle_overrun (s : State) (c : Cycle) : (s.setCycle c).overrun = s.overrun := rfl
@[simp] theorem State.setCycle_delays (s : State) (c : Cycle) : (s.setCycle c).delays = s.delays := rfl
@[simp] theorem State.setCycle_late (s : State) (c : Cycle) : (s.setCycle c).late = s.late := rfl
@[simp] theorem State.setCycle_setRx (s : State) (c : Cycle) : (s.setCycle c).setRx = s.setRx := rfl
@[simp] theorem State.setCycle_pubSeq (s : State) (c : Cycle) : (s.setCycle c).pubSeq = s.pubSeq := rfl
@[simp] theorem State.setCycle_parts (s : State) (c : Cycle) : (s.setCycle c).parts = s.parts := rfl
@[simp] theorem State.setCycle_cmp (s : State) (c : Cycle) : (s.setCycle c).cmp = s.cmp := rfl
@[simp] theorem State.setCycle_rnd (s : State) (c : Cycle) : (s.setCycle c).rnd = s.rnd := rfl
@[simp] theorem State.setCycle_coll (s : State) (c : Cycle) : (s.setCycle c).coll = s.coll := rfl
@[simp] theorem State.setCycle_guard (s : State) (c : Cycle) : (s.setCycle c).guard = s.guard := rfl
@[simp] theorem State.setCycle_pl (s : State) (c : Cycle) : (s.setCycle c).pl = s.pl := rfl
@[simp] theorem State.setCycle_ring (s : State) (c : Cycle) : (s.setCycle c).ring = s.ring := rfl
@[simp] theorem State.setCycle_pair (s : State) (c : Cycle) : (s.setCycle c).pair = s.pair := rfl
@[simp] theorem State.setCycle_forces (s : State) (c : Cycle) : (s.setCycle c).forces = s.forces := rfl
@[simp] theorem State.setCycle_host (s : State) (c : Cycle) : (s.setCycle c).host = s.host := rfl
@[simp] theorem State.setCycle_mb (s : State) (c : Cycle) : (s.setCycle c).mb = s.mb := rfl
@[simp] theorem State.setCycle_trip (s : State) (c : Cycle) : (s.setCycle c).trip = s.trip := rfl
@[simp] theorem State.setCycle_can (s : State) (c : Cycle) : (s.setCycle c).can = s.can := rfl
@[simp] theorem State.setCycle_stn (s : State) (c : Cycle) : (s.setCycle c).stn = s.stn := rfl
@[simp] theorem State.setCycle_rcd (s : State) (c : Cycle) : (s.setCycle c).rcd = s.rcd := rfl
@[simp] theorem State.setCycle_ctr (s : State) (c : Cycle) : (s.setCycle c).ctr = s.ctr := rfl
@[simp] theorem State.setCycle_pwr (s : State) (c : Cycle) : (s.setCycle c).pwr = s.pwr := rfl
@[simp] theorem State.setCycle_nv (s : State) (c : Cycle) : (s.setCycle c).nv = s.nv := rfl

/-! ### setView changes only rcd -/

@[simp] theorem State.setView_pending (s : State) (n : Nat) (v : View) : (s.setView n v).pending = s.pending := rfl
@[simp] theorem State.setView_clk (s : State) (n : Nat) (v : View) : (s.setView n v).clk = s.clk := rfl
@[simp] theorem State.setView_free (s : State) (n : Nat) (v : View) : (s.setView n v).free = s.free := rfl
@[simp] theorem State.setView_out (s : State) (n : Nat) (v : View) : (s.setView n v).out = s.out := rfl
@[simp] theorem State.setView_timers (s : State) (n : Nat) (v : View) : (s.setView n v).timers = s.timers := rfl
@[simp] theorem State.setView_mod (s : State) (n : Nat) (v : View) : (s.setView n v).mod = s.mod := rfl
@[simp] theorem State.setView_pins (s : State) (n : Nat) (v : View) : (s.setView n v).pins = s.pins := rfl
@[simp] theorem State.setView_time (s : State) (n : Nat) (v : View) : (s.setView n v).time = s.time := rfl
@[simp] theorem State.setView_lanes (s : State) (n : Nat) (v : View) : (s.setView n v).lanes = s.lanes := rfl
@[simp] theorem State.setView_mem (s : State) (n : Nat) (v : View) : (s.setView n v).mem = s.mem := rfl
@[simp] theorem State.setView_memErr (s : State) (n : Nat) (v : View) : (s.setView n v).memErr = s.memErr := rfl
@[simp] theorem State.setView_cls (s : State) (n : Nat) (v : View) : (s.setView n v).cls = s.cls := rfl
@[simp] theorem State.setView_cycles (s : State) (n : Nat) (v : View) : (s.setView n v).cycles = s.cycles := rfl
@[simp] theorem State.setView_inNext (s : State) (n : Nat) (v : View) : (s.setView n v).inNext = s.inNext := rfl
@[simp] theorem State.setView_words (s : State) (n : Nat) (v : View) : (s.setView n v).words = s.words := rfl
@[simp] theorem State.setView_overrun (s : State) (n : Nat) (v : View) : (s.setView n v).overrun = s.overrun := rfl
@[simp] theorem State.setView_delays (s : State) (n : Nat) (v : View) : (s.setView n v).delays = s.delays := rfl
@[simp] theorem State.setView_late (s : State) (n : Nat) (v : View) : (s.setView n v).late = s.late := rfl
@[simp] theorem State.setView_setRx (s : State) (n : Nat) (v : View) : (s.setView n v).setRx = s.setRx := rfl
@[simp] theorem State.setView_pubSeq (s : State) (n : Nat) (v : View) : (s.setView n v).pubSeq = s.pubSeq := rfl
@[simp] theorem State.setView_parts (s : State) (n : Nat) (v : View) : (s.setView n v).parts = s.parts := rfl
@[simp] theorem State.setView_cmp (s : State) (n : Nat) (v : View) : (s.setView n v).cmp = s.cmp := rfl
@[simp] theorem State.setView_rnd (s : State) (n : Nat) (v : View) : (s.setView n v).rnd = s.rnd := rfl
@[simp] theorem State.setView_coll (s : State) (n : Nat) (v : View) : (s.setView n v).coll = s.coll := rfl
@[simp] theorem State.setView_guard (s : State) (n : Nat) (v : View) : (s.setView n v).guard = s.guard := rfl
@[simp] theorem State.setView_pl (s : State) (n : Nat) (v : View) : (s.setView n v).pl = s.pl := rfl
@[simp] theorem State.setView_ring (s : State) (n : Nat) (v : View) : (s.setView n v).ring = s.ring := rfl
@[simp] theorem State.setView_pair (s : State) (n : Nat) (v : View) : (s.setView n v).pair = s.pair := rfl
@[simp] theorem State.setView_forces (s : State) (n : Nat) (v : View) : (s.setView n v).forces = s.forces := rfl
@[simp] theorem State.setView_host (s : State) (n : Nat) (v : View) : (s.setView n v).host = s.host := rfl
@[simp] theorem State.setView_mb (s : State) (n : Nat) (v : View) : (s.setView n v).mb = s.mb := rfl
@[simp] theorem State.setView_trip (s : State) (n : Nat) (v : View) : (s.setView n v).trip = s.trip := rfl
@[simp] theorem State.setView_can (s : State) (n : Nat) (v : View) : (s.setView n v).can = s.can := rfl
@[simp] theorem State.setView_stn (s : State) (n : Nat) (v : View) : (s.setView n v).stn = s.stn := rfl
@[simp] theorem State.setView_ctr (s : State) (n : Nat) (v : View) : (s.setView n v).ctr = s.ctr := rfl
@[simp] theorem State.setView_pwr (s : State) (n : Nat) (v : View) : (s.setView n v).pwr = s.pwr := rfl
@[simp] theorem State.setView_nv (s : State) (n : Nat) (v : View) : (s.setView n v).nv = s.nv := rfl

/-! ### setStn changes only stn -/

@[simp] theorem State.setStn_pending (s : State) (x : Station) : (s.setStn x).pending = s.pending := rfl
@[simp] theorem State.setStn_clk (s : State) (x : Station) : (s.setStn x).clk = s.clk := rfl
@[simp] theorem State.setStn_free (s : State) (x : Station) : (s.setStn x).free = s.free := rfl
@[simp] theorem State.setStn_out (s : State) (x : Station) : (s.setStn x).out = s.out := rfl
@[simp] theorem State.setStn_timers (s : State) (x : Station) : (s.setStn x).timers = s.timers := rfl
@[simp] theorem State.setStn_mod (s : State) (x : Station) : (s.setStn x).mod = s.mod := rfl
@[simp] theorem State.setStn_pins (s : State) (x : Station) : (s.setStn x).pins = s.pins := rfl
@[simp] theorem State.setStn_time (s : State) (x : Station) : (s.setStn x).time = s.time := rfl
@[simp] theorem State.setStn_lanes (s : State) (x : Station) : (s.setStn x).lanes = s.lanes := rfl
@[simp] theorem State.setStn_mem (s : State) (x : Station) : (s.setStn x).mem = s.mem := rfl
@[simp] theorem State.setStn_memErr (s : State) (x : Station) : (s.setStn x).memErr = s.memErr := rfl
@[simp] theorem State.setStn_cls (s : State) (x : Station) : (s.setStn x).cls = s.cls := rfl
@[simp] theorem State.setStn_cycles (s : State) (x : Station) : (s.setStn x).cycles = s.cycles := rfl
@[simp] theorem State.setStn_inNext (s : State) (x : Station) : (s.setStn x).inNext = s.inNext := rfl
@[simp] theorem State.setStn_words (s : State) (x : Station) : (s.setStn x).words = s.words := rfl
@[simp] theorem State.setStn_overrun (s : State) (x : Station) : (s.setStn x).overrun = s.overrun := rfl
@[simp] theorem State.setStn_delays (s : State) (x : Station) : (s.setStn x).delays = s.delays := rfl
@[simp] theorem State.setStn_late (s : State) (x : Station) : (s.setStn x).late = s.late := rfl
@[simp] theorem State.setStn_setRx (s : State) (x : Station) : (s.setStn x).setRx = s.setRx := rfl
@[simp] theorem State.setStn_pubSeq (s : State) (x : Station) : (s.setStn x).pubSeq = s.pubSeq := rfl
@[simp] theorem State.setStn_parts (s : State) (x : Station) : (s.setStn x).parts = s.parts := rfl
@[simp] theorem State.setStn_cmp (s : State) (x : Station) : (s.setStn x).cmp = s.cmp := rfl
@[simp] theorem State.setStn_rnd (s : State) (x : Station) : (s.setStn x).rnd = s.rnd := rfl
@[simp] theorem State.setStn_coll (s : State) (x : Station) : (s.setStn x).coll = s.coll := rfl
@[simp] theorem State.setStn_guard (s : State) (x : Station) : (s.setStn x).guard = s.guard := rfl
@[simp] theorem State.setStn_pl (s : State) (x : Station) : (s.setStn x).pl = s.pl := rfl
@[simp] theorem State.setStn_ring (s : State) (x : Station) : (s.setStn x).ring = s.ring := rfl
@[simp] theorem State.setStn_pair (s : State) (x : Station) : (s.setStn x).pair = s.pair := rfl
@[simp] theorem State.setStn_forces (s : State) (x : Station) : (s.setStn x).forces = s.forces := rfl
@[simp] theorem State.setStn_host (s : State) (x : Station) : (s.setStn x).host = s.host := rfl
@[simp] theorem State.setStn_mb (s : State) (x : Station) : (s.setStn x).mb = s.mb := rfl
@[simp] theorem State.setStn_trip (s : State) (x : Station) : (s.setStn x).trip = s.trip := rfl
@[simp] theorem State.setStn_can (s : State) (x : Station) : (s.setStn x).can = s.can := rfl
@[simp] theorem State.setStn_rcd (s : State) (x : Station) : (s.setStn x).rcd = s.rcd := rfl
@[simp] theorem State.setStn_ctr (s : State) (x : Station) : (s.setStn x).ctr = s.ctr := rfl
@[simp] theorem State.setStn_pwr (s : State) (x : Station) : (s.setStn x).pwr = s.pwr := rfl
@[simp] theorem State.setStn_nv (s : State) (x : Station) : (s.setStn x).nv = s.nv := rfl

/-! ### setPort changes only ring -/

@[simp] theorem State.setPort_pending (s : State) (p : Port) (x : PortSt) : (s.setPort p x).pending = s.pending := rfl
@[simp] theorem State.setPort_clk (s : State) (p : Port) (x : PortSt) : (s.setPort p x).clk = s.clk := rfl
@[simp] theorem State.setPort_free (s : State) (p : Port) (x : PortSt) : (s.setPort p x).free = s.free := rfl
@[simp] theorem State.setPort_out (s : State) (p : Port) (x : PortSt) : (s.setPort p x).out = s.out := rfl
@[simp] theorem State.setPort_timers (s : State) (p : Port) (x : PortSt) : (s.setPort p x).timers = s.timers := rfl
@[simp] theorem State.setPort_mod (s : State) (p : Port) (x : PortSt) : (s.setPort p x).mod = s.mod := rfl
@[simp] theorem State.setPort_pins (s : State) (p : Port) (x : PortSt) : (s.setPort p x).pins = s.pins := rfl
@[simp] theorem State.setPort_time (s : State) (p : Port) (x : PortSt) : (s.setPort p x).time = s.time := rfl
@[simp] theorem State.setPort_lanes (s : State) (p : Port) (x : PortSt) : (s.setPort p x).lanes = s.lanes := rfl
@[simp] theorem State.setPort_mem (s : State) (p : Port) (x : PortSt) : (s.setPort p x).mem = s.mem := rfl
@[simp] theorem State.setPort_memErr (s : State) (p : Port) (x : PortSt) : (s.setPort p x).memErr = s.memErr := rfl
@[simp] theorem State.setPort_cls (s : State) (p : Port) (x : PortSt) : (s.setPort p x).cls = s.cls := rfl
@[simp] theorem State.setPort_cycles (s : State) (p : Port) (x : PortSt) : (s.setPort p x).cycles = s.cycles := rfl
@[simp] theorem State.setPort_inNext (s : State) (p : Port) (x : PortSt) : (s.setPort p x).inNext = s.inNext := rfl
@[simp] theorem State.setPort_words (s : State) (p : Port) (x : PortSt) : (s.setPort p x).words = s.words := rfl
@[simp] theorem State.setPort_overrun (s : State) (p : Port) (x : PortSt) : (s.setPort p x).overrun = s.overrun := rfl
@[simp] theorem State.setPort_delays (s : State) (p : Port) (x : PortSt) : (s.setPort p x).delays = s.delays := rfl
@[simp] theorem State.setPort_late (s : State) (p : Port) (x : PortSt) : (s.setPort p x).late = s.late := rfl
@[simp] theorem State.setPort_setRx (s : State) (p : Port) (x : PortSt) : (s.setPort p x).setRx = s.setRx := rfl
@[simp] theorem State.setPort_pubSeq (s : State) (p : Port) (x : PortSt) : (s.setPort p x).pubSeq = s.pubSeq := rfl
@[simp] theorem State.setPort_parts (s : State) (p : Port) (x : PortSt) : (s.setPort p x).parts = s.parts := rfl
@[simp] theorem State.setPort_cmp (s : State) (p : Port) (x : PortSt) : (s.setPort p x).cmp = s.cmp := rfl
@[simp] theorem State.setPort_rnd (s : State) (p : Port) (x : PortSt) : (s.setPort p x).rnd = s.rnd := rfl
@[simp] theorem State.setPort_coll (s : State) (p : Port) (x : PortSt) : (s.setPort p x).coll = s.coll := rfl
@[simp] theorem State.setPort_guard (s : State) (p : Port) (x : PortSt) : (s.setPort p x).guard = s.guard := rfl
@[simp] theorem State.setPort_pl (s : State) (p : Port) (x : PortSt) : (s.setPort p x).pl = s.pl := rfl
@[simp] theorem State.setPort_pair (s : State) (p : Port) (x : PortSt) : (s.setPort p x).pair = s.pair := rfl
@[simp] theorem State.setPort_forces (s : State) (p : Port) (x : PortSt) : (s.setPort p x).forces = s.forces := rfl
@[simp] theorem State.setPort_host (s : State) (p : Port) (x : PortSt) : (s.setPort p x).host = s.host := rfl
@[simp] theorem State.setPort_mb (s : State) (p : Port) (x : PortSt) : (s.setPort p x).mb = s.mb := rfl
@[simp] theorem State.setPort_trip (s : State) (p : Port) (x : PortSt) : (s.setPort p x).trip = s.trip := rfl
@[simp] theorem State.setPort_can (s : State) (p : Port) (x : PortSt) : (s.setPort p x).can = s.can := rfl
@[simp] theorem State.setPort_stn (s : State) (p : Port) (x : PortSt) : (s.setPort p x).stn = s.stn := rfl
@[simp] theorem State.setPort_rcd (s : State) (p : Port) (x : PortSt) : (s.setPort p x).rcd = s.rcd := rfl
@[simp] theorem State.setPort_ctr (s : State) (p : Port) (x : PortSt) : (s.setPort p x).ctr = s.ctr := rfl
@[simp] theorem State.setPort_pwr (s : State) (p : Port) (x : PortSt) : (s.setPort p x).pwr = s.pwr := rfl
@[simp] theorem State.setPort_nv (s : State) (p : Port) (x : PortSt) : (s.setPort p x).nv = s.nv := rfl

/-! ### markOnce changes only ring -/

@[simp] theorem State.markOnce_pending (s : State) (k n : Nat) : (s.markOnce k n).pending = s.pending := rfl
@[simp] theorem State.markOnce_clk (s : State) (k n : Nat) : (s.markOnce k n).clk = s.clk := rfl
@[simp] theorem State.markOnce_free (s : State) (k n : Nat) : (s.markOnce k n).free = s.free := rfl
@[simp] theorem State.markOnce_out (s : State) (k n : Nat) : (s.markOnce k n).out = s.out := rfl
@[simp] theorem State.markOnce_timers (s : State) (k n : Nat) : (s.markOnce k n).timers = s.timers := rfl
@[simp] theorem State.markOnce_mod (s : State) (k n : Nat) : (s.markOnce k n).mod = s.mod := rfl
@[simp] theorem State.markOnce_pins (s : State) (k n : Nat) : (s.markOnce k n).pins = s.pins := rfl
@[simp] theorem State.markOnce_time (s : State) (k n : Nat) : (s.markOnce k n).time = s.time := rfl
@[simp] theorem State.markOnce_lanes (s : State) (k n : Nat) : (s.markOnce k n).lanes = s.lanes := rfl
@[simp] theorem State.markOnce_mem (s : State) (k n : Nat) : (s.markOnce k n).mem = s.mem := rfl
@[simp] theorem State.markOnce_memErr (s : State) (k n : Nat) : (s.markOnce k n).memErr = s.memErr := rfl
@[simp] theorem State.markOnce_cls (s : State) (k n : Nat) : (s.markOnce k n).cls = s.cls := rfl
@[simp] theorem State.markOnce_cycles (s : State) (k n : Nat) : (s.markOnce k n).cycles = s.cycles := rfl
@[simp] theorem State.markOnce_inNext (s : State) (k n : Nat) : (s.markOnce k n).inNext = s.inNext := rfl
@[simp] theorem State.markOnce_words (s : State) (k n : Nat) : (s.markOnce k n).words = s.words := rfl
@[simp] theorem State.markOnce_overrun (s : State) (k n : Nat) : (s.markOnce k n).overrun = s.overrun := rfl
@[simp] theorem State.markOnce_delays (s : State) (k n : Nat) : (s.markOnce k n).delays = s.delays := rfl
@[simp] theorem State.markOnce_late (s : State) (k n : Nat) : (s.markOnce k n).late = s.late := rfl
@[simp] theorem State.markOnce_setRx (s : State) (k n : Nat) : (s.markOnce k n).setRx = s.setRx := rfl
@[simp] theorem State.markOnce_pubSeq (s : State) (k n : Nat) : (s.markOnce k n).pubSeq = s.pubSeq := rfl
@[simp] theorem State.markOnce_parts (s : State) (k n : Nat) : (s.markOnce k n).parts = s.parts := rfl
@[simp] theorem State.markOnce_cmp (s : State) (k n : Nat) : (s.markOnce k n).cmp = s.cmp := rfl
@[simp] theorem State.markOnce_rnd (s : State) (k n : Nat) : (s.markOnce k n).rnd = s.rnd := rfl
@[simp] theorem State.markOnce_coll (s : State) (k n : Nat) : (s.markOnce k n).coll = s.coll := rfl
@[simp] theorem State.markOnce_guard (s : State) (k n : Nat) : (s.markOnce k n).guard = s.guard := rfl
@[simp] theorem State.markOnce_pl (s : State) (k n : Nat) : (s.markOnce k n).pl = s.pl := rfl
@[simp] theorem State.markOnce_pair (s : State) (k n : Nat) : (s.markOnce k n).pair = s.pair := rfl
@[simp] theorem State.markOnce_forces (s : State) (k n : Nat) : (s.markOnce k n).forces = s.forces := rfl
@[simp] theorem State.markOnce_host (s : State) (k n : Nat) : (s.markOnce k n).host = s.host := rfl
@[simp] theorem State.markOnce_mb (s : State) (k n : Nat) : (s.markOnce k n).mb = s.mb := rfl
@[simp] theorem State.markOnce_trip (s : State) (k n : Nat) : (s.markOnce k n).trip = s.trip := rfl
@[simp] theorem State.markOnce_can (s : State) (k n : Nat) : (s.markOnce k n).can = s.can := rfl
@[simp] theorem State.markOnce_stn (s : State) (k n : Nat) : (s.markOnce k n).stn = s.stn := rfl
@[simp] theorem State.markOnce_rcd (s : State) (k n : Nat) : (s.markOnce k n).rcd = s.rcd := rfl
@[simp] theorem State.markOnce_ctr (s : State) (k n : Nat) : (s.markOnce k n).ctr = s.ctr := rfl
@[simp] theorem State.markOnce_pwr (s : State) (k n : Nat) : (s.markOnce k n).pwr = s.pwr := rfl
@[simp] theorem State.markOnce_nv (s : State) (k n : Nat) : (s.markOnce k n).nv = s.nv := rfl

/-! ### arm changes only timers -/

@[simp] theorem State.arm_pending (s : State) (t : Timer) (d : Nat) : (s.arm t d).pending = s.pending := rfl
@[simp] theorem State.arm_clk (s : State) (t : Timer) (d : Nat) : (s.arm t d).clk = s.clk := rfl
@[simp] theorem State.arm_free (s : State) (t : Timer) (d : Nat) : (s.arm t d).free = s.free := rfl
@[simp] theorem State.arm_out (s : State) (t : Timer) (d : Nat) : (s.arm t d).out = s.out := rfl
@[simp] theorem State.arm_mod (s : State) (t : Timer) (d : Nat) : (s.arm t d).mod = s.mod := rfl
@[simp] theorem State.arm_pins (s : State) (t : Timer) (d : Nat) : (s.arm t d).pins = s.pins := rfl
@[simp] theorem State.arm_time (s : State) (t : Timer) (d : Nat) : (s.arm t d).time = s.time := rfl
@[simp] theorem State.arm_lanes (s : State) (t : Timer) (d : Nat) : (s.arm t d).lanes = s.lanes := rfl
@[simp] theorem State.arm_mem (s : State) (t : Timer) (d : Nat) : (s.arm t d).mem = s.mem := rfl
@[simp] theorem State.arm_memErr (s : State) (t : Timer) (d : Nat) : (s.arm t d).memErr = s.memErr := rfl
@[simp] theorem State.arm_cls (s : State) (t : Timer) (d : Nat) : (s.arm t d).cls = s.cls := rfl
@[simp] theorem State.arm_cycles (s : State) (t : Timer) (d : Nat) : (s.arm t d).cycles = s.cycles := rfl
@[simp] theorem State.arm_inNext (s : State) (t : Timer) (d : Nat) : (s.arm t d).inNext = s.inNext := rfl
@[simp] theorem State.arm_words (s : State) (t : Timer) (d : Nat) : (s.arm t d).words = s.words := rfl
@[simp] theorem State.arm_overrun (s : State) (t : Timer) (d : Nat) : (s.arm t d).overrun = s.overrun := rfl
@[simp] theorem State.arm_delays (s : State) (t : Timer) (d : Nat) : (s.arm t d).delays = s.delays := rfl
@[simp] theorem State.arm_late (s : State) (t : Timer) (d : Nat) : (s.arm t d).late = s.late := rfl
@[simp] theorem State.arm_setRx (s : State) (t : Timer) (d : Nat) : (s.arm t d).setRx = s.setRx := rfl
@[simp] theorem State.arm_pubSeq (s : State) (t : Timer) (d : Nat) : (s.arm t d).pubSeq = s.pubSeq := rfl
@[simp] theorem State.arm_parts (s : State) (t : Timer) (d : Nat) : (s.arm t d).parts = s.parts := rfl
@[simp] theorem State.arm_cmp (s : State) (t : Timer) (d : Nat) : (s.arm t d).cmp = s.cmp := rfl
@[simp] theorem State.arm_rnd (s : State) (t : Timer) (d : Nat) : (s.arm t d).rnd = s.rnd := rfl
@[simp] theorem State.arm_coll (s : State) (t : Timer) (d : Nat) : (s.arm t d).coll = s.coll := rfl
@[simp] theorem State.arm_guard (s : State) (t : Timer) (d : Nat) : (s.arm t d).guard = s.guard := rfl
@[simp] theorem State.arm_pl (s : State) (t : Timer) (d : Nat) : (s.arm t d).pl = s.pl := rfl
@[simp] theorem State.arm_ring (s : State) (t : Timer) (d : Nat) : (s.arm t d).ring = s.ring := rfl
@[simp] theorem State.arm_pair (s : State) (t : Timer) (d : Nat) : (s.arm t d).pair = s.pair := rfl
@[simp] theorem State.arm_forces (s : State) (t : Timer) (d : Nat) : (s.arm t d).forces = s.forces := rfl
@[simp] theorem State.arm_host (s : State) (t : Timer) (d : Nat) : (s.arm t d).host = s.host := rfl
@[simp] theorem State.arm_mb (s : State) (t : Timer) (d : Nat) : (s.arm t d).mb = s.mb := rfl
@[simp] theorem State.arm_trip (s : State) (t : Timer) (d : Nat) : (s.arm t d).trip = s.trip := rfl
@[simp] theorem State.arm_can (s : State) (t : Timer) (d : Nat) : (s.arm t d).can = s.can := rfl
@[simp] theorem State.arm_stn (s : State) (t : Timer) (d : Nat) : (s.arm t d).stn = s.stn := rfl
@[simp] theorem State.arm_rcd (s : State) (t : Timer) (d : Nat) : (s.arm t d).rcd = s.rcd := rfl
@[simp] theorem State.arm_ctr (s : State) (t : Timer) (d : Nat) : (s.arm t d).ctr = s.ctr := rfl
@[simp] theorem State.arm_pwr (s : State) (t : Timer) (d : Nat) : (s.arm t d).pwr = s.pwr := rfl
@[simp] theorem State.arm_nv (s : State) (t : Timer) (d : Nat) : (s.arm t d).nv = s.nv := rfl

/-! ### disarm changes only timers -/

@[simp] theorem State.disarm_pending (s : State) (t : Timer) : (s.disarm t).pending = s.pending := rfl
@[simp] theorem State.disarm_clk (s : State) (t : Timer) : (s.disarm t).clk = s.clk := rfl
@[simp] theorem State.disarm_free (s : State) (t : Timer) : (s.disarm t).free = s.free := rfl
@[simp] theorem State.disarm_out (s : State) (t : Timer) : (s.disarm t).out = s.out := rfl
@[simp] theorem State.disarm_mod (s : State) (t : Timer) : (s.disarm t).mod = s.mod := rfl
@[simp] theorem State.disarm_pins (s : State) (t : Timer) : (s.disarm t).pins = s.pins := rfl
@[simp] theorem State.disarm_time (s : State) (t : Timer) : (s.disarm t).time = s.time := rfl
@[simp] theorem State.disarm_lanes (s : State) (t : Timer) : (s.disarm t).lanes = s.lanes := rfl
@[simp] theorem State.disarm_mem (s : State) (t : Timer) : (s.disarm t).mem = s.mem := rfl
@[simp] theorem State.disarm_memErr (s : State) (t : Timer) : (s.disarm t).memErr = s.memErr := rfl
@[simp] theorem State.disarm_cls (s : State) (t : Timer) : (s.disarm t).cls = s.cls := rfl
@[simp] theorem State.disarm_cycles (s : State) (t : Timer) : (s.disarm t).cycles = s.cycles := rfl
@[simp] theorem State.disarm_inNext (s : State) (t : Timer) : (s.disarm t).inNext = s.inNext := rfl
@[simp] theorem State.disarm_words (s : State) (t : Timer) : (s.disarm t).words = s.words := rfl
@[simp] theorem State.disarm_overrun (s : State) (t : Timer) : (s.disarm t).overrun = s.overrun := rfl
@[simp] theorem State.disarm_delays (s : State) (t : Timer) : (s.disarm t).delays = s.delays := rfl
@[simp] theorem State.disarm_late (s : State) (t : Timer) : (s.disarm t).late = s.late := rfl
@[simp] theorem State.disarm_setRx (s : State) (t : Timer) : (s.disarm t).setRx = s.setRx := rfl
@[simp] theorem State.disarm_pubSeq (s : State) (t : Timer) : (s.disarm t).pubSeq = s.pubSeq := rfl
@[simp] theorem State.disarm_parts (s : State) (t : Timer) : (s.disarm t).parts = s.parts := rfl
@[simp] theorem State.disarm_cmp (s : State) (t : Timer) : (s.disarm t).cmp = s.cmp := rfl
@[simp] theorem State.disarm_rnd (s : State) (t : Timer) : (s.disarm t).rnd = s.rnd := rfl
@[simp] theorem State.disarm_coll (s : State) (t : Timer) : (s.disarm t).coll = s.coll := rfl
@[simp] theorem State.disarm_guard (s : State) (t : Timer) : (s.disarm t).guard = s.guard := rfl
@[simp] theorem State.disarm_pl (s : State) (t : Timer) : (s.disarm t).pl = s.pl := rfl
@[simp] theorem State.disarm_ring (s : State) (t : Timer) : (s.disarm t).ring = s.ring := rfl
@[simp] theorem State.disarm_pair (s : State) (t : Timer) : (s.disarm t).pair = s.pair := rfl
@[simp] theorem State.disarm_forces (s : State) (t : Timer) : (s.disarm t).forces = s.forces := rfl
@[simp] theorem State.disarm_host (s : State) (t : Timer) : (s.disarm t).host = s.host := rfl
@[simp] theorem State.disarm_mb (s : State) (t : Timer) : (s.disarm t).mb = s.mb := rfl
@[simp] theorem State.disarm_trip (s : State) (t : Timer) : (s.disarm t).trip = s.trip := rfl
@[simp] theorem State.disarm_can (s : State) (t : Timer) : (s.disarm t).can = s.can := rfl
@[simp] theorem State.disarm_stn (s : State) (t : Timer) : (s.disarm t).stn = s.stn := rfl
@[simp] theorem State.disarm_rcd (s : State) (t : Timer) : (s.disarm t).rcd = s.rcd := rfl
@[simp] theorem State.disarm_ctr (s : State) (t : Timer) : (s.disarm t).ctr = s.ctr := rfl
@[simp] theorem State.disarm_pwr (s : State) (t : Timer) : (s.disarm t).pwr = s.pwr := rfl
@[simp] theorem State.disarm_nv (s : State) (t : Timer) : (s.disarm t).nv = s.nv := rfl

/-! ### after changes only timers -/

@[simp] theorem State.after_pending (s : State) (t : Timer) (d : Nat) : (s.after t d).pending = s.pending := rfl
@[simp] theorem State.after_clk (s : State) (t : Timer) (d : Nat) : (s.after t d).clk = s.clk := rfl
@[simp] theorem State.after_free (s : State) (t : Timer) (d : Nat) : (s.after t d).free = s.free := rfl
@[simp] theorem State.after_out (s : State) (t : Timer) (d : Nat) : (s.after t d).out = s.out := rfl
@[simp] theorem State.after_mod (s : State) (t : Timer) (d : Nat) : (s.after t d).mod = s.mod := rfl
@[simp] theorem State.after_pins (s : State) (t : Timer) (d : Nat) : (s.after t d).pins = s.pins := rfl
@[simp] theorem State.after_time (s : State) (t : Timer) (d : Nat) : (s.after t d).time = s.time := rfl
@[simp] theorem State.after_lanes (s : State) (t : Timer) (d : Nat) : (s.after t d).lanes = s.lanes := rfl
@[simp] theorem State.after_mem (s : State) (t : Timer) (d : Nat) : (s.after t d).mem = s.mem := rfl
@[simp] theorem State.after_memErr (s : State) (t : Timer) (d : Nat) : (s.after t d).memErr = s.memErr := rfl
@[simp] theorem State.after_cls (s : State) (t : Timer) (d : Nat) : (s.after t d).cls = s.cls := rfl
@[simp] theorem State.after_cycles (s : State) (t : Timer) (d : Nat) : (s.after t d).cycles = s.cycles := rfl
@[simp] theorem State.after_inNext (s : State) (t : Timer) (d : Nat) : (s.after t d).inNext = s.inNext := rfl
@[simp] theorem State.after_words (s : State) (t : Timer) (d : Nat) : (s.after t d).words = s.words := rfl
@[simp] theorem State.after_overrun (s : State) (t : Timer) (d : Nat) : (s.after t d).overrun = s.overrun := rfl
@[simp] theorem State.after_delays (s : State) (t : Timer) (d : Nat) : (s.after t d).delays = s.delays := rfl
@[simp] theorem State.after_late (s : State) (t : Timer) (d : Nat) : (s.after t d).late = s.late := rfl
@[simp] theorem State.after_setRx (s : State) (t : Timer) (d : Nat) : (s.after t d).setRx = s.setRx := rfl
@[simp] theorem State.after_pubSeq (s : State) (t : Timer) (d : Nat) : (s.after t d).pubSeq = s.pubSeq := rfl
@[simp] theorem State.after_parts (s : State) (t : Timer) (d : Nat) : (s.after t d).parts = s.parts := rfl
@[simp] theorem State.after_cmp (s : State) (t : Timer) (d : Nat) : (s.after t d).cmp = s.cmp := rfl
@[simp] theorem State.after_rnd (s : State) (t : Timer) (d : Nat) : (s.after t d).rnd = s.rnd := rfl
@[simp] theorem State.after_coll (s : State) (t : Timer) (d : Nat) : (s.after t d).coll = s.coll := rfl
@[simp] theorem State.after_guard (s : State) (t : Timer) (d : Nat) : (s.after t d).guard = s.guard := rfl
@[simp] theorem State.after_pl (s : State) (t : Timer) (d : Nat) : (s.after t d).pl = s.pl := rfl
@[simp] theorem State.after_ring (s : State) (t : Timer) (d : Nat) : (s.after t d).ring = s.ring := rfl
@[simp] theorem State.after_pair (s : State) (t : Timer) (d : Nat) : (s.after t d).pair = s.pair := rfl
@[simp] theorem State.after_forces (s : State) (t : Timer) (d : Nat) : (s.after t d).forces = s.forces := rfl
@[simp] theorem State.after_host (s : State) (t : Timer) (d : Nat) : (s.after t d).host = s.host := rfl
@[simp] theorem State.after_mb (s : State) (t : Timer) (d : Nat) : (s.after t d).mb = s.mb := rfl
@[simp] theorem State.after_trip (s : State) (t : Timer) (d : Nat) : (s.after t d).trip = s.trip := rfl
@[simp] theorem State.after_can (s : State) (t : Timer) (d : Nat) : (s.after t d).can = s.can := rfl
@[simp] theorem State.after_stn (s : State) (t : Timer) (d : Nat) : (s.after t d).stn = s.stn := rfl
@[simp] theorem State.after_rcd (s : State) (t : Timer) (d : Nat) : (s.after t d).rcd = s.rcd := rfl
@[simp] theorem State.after_ctr (s : State) (t : Timer) (d : Nat) : (s.after t d).ctr = s.ctr := rfl
@[simp] theorem State.after_pwr (s : State) (t : Timer) (d : Nat) : (s.after t d).pwr = s.pwr := rfl
@[simp] theorem State.after_nv (s : State) (t : Timer) (d : Nat) : (s.after t d).nv = s.nv := rfl

/-! ### count changes only ctr -/

@[simp] theorem State.count_pending (s : State) (e : CtrEv) : (s.count e).pending = s.pending := rfl
@[simp] theorem State.count_clk (s : State) (e : CtrEv) : (s.count e).clk = s.clk := rfl
@[simp] theorem State.count_free (s : State) (e : CtrEv) : (s.count e).free = s.free := rfl
@[simp] theorem State.count_out (s : State) (e : CtrEv) : (s.count e).out = s.out := rfl
@[simp] theorem State.count_timers (s : State) (e : CtrEv) : (s.count e).timers = s.timers := rfl
@[simp] theorem State.count_mod (s : State) (e : CtrEv) : (s.count e).mod = s.mod := rfl
@[simp] theorem State.count_pins (s : State) (e : CtrEv) : (s.count e).pins = s.pins := rfl
@[simp] theorem State.count_time (s : State) (e : CtrEv) : (s.count e).time = s.time := rfl
@[simp] theorem State.count_lanes (s : State) (e : CtrEv) : (s.count e).lanes = s.lanes := rfl
@[simp] theorem State.count_mem (s : State) (e : CtrEv) : (s.count e).mem = s.mem := rfl
@[simp] theorem State.count_memErr (s : State) (e : CtrEv) : (s.count e).memErr = s.memErr := rfl
@[simp] theorem State.count_cls (s : State) (e : CtrEv) : (s.count e).cls = s.cls := rfl
@[simp] theorem State.count_cycles (s : State) (e : CtrEv) : (s.count e).cycles = s.cycles := rfl
@[simp] theorem State.count_inNext (s : State) (e : CtrEv) : (s.count e).inNext = s.inNext := rfl
@[simp] theorem State.count_words (s : State) (e : CtrEv) : (s.count e).words = s.words := rfl
@[simp] theorem State.count_overrun (s : State) (e : CtrEv) : (s.count e).overrun = s.overrun := rfl
@[simp] theorem State.count_delays (s : State) (e : CtrEv) : (s.count e).delays = s.delays := rfl
@[simp] theorem State.count_late (s : State) (e : CtrEv) : (s.count e).late = s.late := rfl
@[simp] theorem State.count_setRx (s : State) (e : CtrEv) : (s.count e).setRx = s.setRx := rfl
@[simp] theorem State.count_pubSeq (s : State) (e : CtrEv) : (s.count e).pubSeq = s.pubSeq := rfl
@[simp] theorem State.count_parts (s : State) (e : CtrEv) : (s.count e).parts = s.parts := rfl
@[simp] theorem State.count_cmp (s : State) (e : CtrEv) : (s.count e).cmp = s.cmp := rfl
@[simp] theorem State.count_rnd (s : State) (e : CtrEv) : (s.count e).rnd = s.rnd := rfl
@[simp] theorem State.count_coll (s : State) (e : CtrEv) : (s.count e).coll = s.coll := rfl
@[simp] theorem State.count_guard (s : State) (e : CtrEv) : (s.count e).guard = s.guard := rfl
@[simp] theorem State.count_pl (s : State) (e : CtrEv) : (s.count e).pl = s.pl := rfl
@[simp] theorem State.count_ring (s : State) (e : CtrEv) : (s.count e).ring = s.ring := rfl
@[simp] theorem State.count_pair (s : State) (e : CtrEv) : (s.count e).pair = s.pair := rfl
@[simp] theorem State.count_forces (s : State) (e : CtrEv) : (s.count e).forces = s.forces := rfl
@[simp] theorem State.count_host (s : State) (e : CtrEv) : (s.count e).host = s.host := rfl
@[simp] theorem State.count_mb (s : State) (e : CtrEv) : (s.count e).mb = s.mb := rfl
@[simp] theorem State.count_trip (s : State) (e : CtrEv) : (s.count e).trip = s.trip := rfl
@[simp] theorem State.count_can (s : State) (e : CtrEv) : (s.count e).can = s.can := rfl
@[simp] theorem State.count_stn (s : State) (e : CtrEv) : (s.count e).stn = s.stn := rfl
@[simp] theorem State.count_rcd (s : State) (e : CtrEv) : (s.count e).rcd = s.rcd := rfl
@[simp] theorem State.count_pwr (s : State) (e : CtrEv) : (s.count e).pwr = s.pwr := rfl
@[simp] theorem State.count_nv (s : State) (e : CtrEv) : (s.count e).nv = s.nv := rfl

/-! ### record changes only rcd -/

@[simp] theorem State.record_pending (s : State) (c p q : Nat) (a b x y : W32) : (s.record c p q a b x y).pending = s.pending := rfl
@[simp] theorem State.record_clk (s : State) (c p q : Nat) (a b x y : W32) : (s.record c p q a b x y).clk = s.clk := rfl
@[simp] theorem State.record_free (s : State) (c p q : Nat) (a b x y : W32) : (s.record c p q a b x y).free = s.free := rfl
@[simp] theorem State.record_out (s : State) (c p q : Nat) (a b x y : W32) : (s.record c p q a b x y).out = s.out := rfl
@[simp] theorem State.record_timers (s : State) (c p q : Nat) (a b x y : W32) : (s.record c p q a b x y).timers = s.timers := rfl
@[simp] theorem State.record_mod (s : State) (c p q : Nat) (a b x y : W32) : (s.record c p q a b x y).mod = s.mod := rfl
@[simp] theorem State.record_pins (s : State) (c p q : Nat) (a b x y : W32) : (s.record c p q a b x y).pins = s.pins := rfl
@[simp] theorem State.record_time (s : State) (c p q : Nat) (a b x y : W32) : (s.record c p q a b x y).time = s.time := rfl
@[simp] theorem State.record_lanes (s : State) (c p q : Nat) (a b x y : W32) : (s.record c p q a b x y).lanes = s.lanes := rfl
@[simp] theorem State.record_mem (s : State) (c p q : Nat) (a b x y : W32) : (s.record c p q a b x y).mem = s.mem := rfl
@[simp] theorem State.record_memErr (s : State) (c p q : Nat) (a b x y : W32) : (s.record c p q a b x y).memErr = s.memErr := rfl
@[simp] theorem State.record_cls (s : State) (c p q : Nat) (a b x y : W32) : (s.record c p q a b x y).cls = s.cls := rfl
@[simp] theorem State.record_cycles (s : State) (c p q : Nat) (a b x y : W32) : (s.record c p q a b x y).cycles = s.cycles := rfl
@[simp] theorem State.record_inNext (s : State) (c p q : Nat) (a b x y : W32) : (s.record c p q a b x y).inNext = s.inNext := rfl
@[simp] theorem State.record_words (s : State) (c p q : Nat) (a b x y : W32) : (s.record c p q a b x y).words = s.words := rfl
@[simp] theorem State.record_overrun (s : State) (c p q : Nat) (a b x y : W32) : (s.record c p q a b x y).overrun = s.overrun := rfl
@[simp] theorem State.record_delays (s : State) (c p q : Nat) (a b x y : W32) : (s.record c p q a b x y).delays = s.delays := rfl
@[simp] theorem State.record_late (s : State) (c p q : Nat) (a b x y : W32) : (s.record c p q a b x y).late = s.late := rfl
@[simp] theorem State.record_setRx (s : State) (c p q : Nat) (a b x y : W32) : (s.record c p q a b x y).setRx = s.setRx := rfl
@[simp] theorem State.record_pubSeq (s : State) (c p q : Nat) (a b x y : W32) : (s.record c p q a b x y).pubSeq = s.pubSeq := rfl
@[simp] theorem State.record_parts (s : State) (c p q : Nat) (a b x y : W32) : (s.record c p q a b x y).parts = s.parts := rfl
@[simp] theorem State.record_cmp (s : State) (c p q : Nat) (a b x y : W32) : (s.record c p q a b x y).cmp = s.cmp := rfl
@[simp] theorem State.record_rnd (s : State) (c p q : Nat) (a b x y : W32) : (s.record c p q a b x y).rnd = s.rnd := rfl
@[simp] theorem State.record_coll (s : State) (c p q : Nat) (a b x y : W32) : (s.record c p q a b x y).coll = s.coll := rfl
@[simp] theorem State.record_guard (s : State) (c p q : Nat) (a b x y : W32) : (s.record c p q a b x y).guard = s.guard := rfl
@[simp] theorem State.record_pl (s : State) (c p q : Nat) (a b x y : W32) : (s.record c p q a b x y).pl = s.pl := rfl
@[simp] theorem State.record_ring (s : State) (c p q : Nat) (a b x y : W32) : (s.record c p q a b x y).ring = s.ring := rfl
@[simp] theorem State.record_pair (s : State) (c p q : Nat) (a b x y : W32) : (s.record c p q a b x y).pair = s.pair := rfl
@[simp] theorem State.record_forces (s : State) (c p q : Nat) (a b x y : W32) : (s.record c p q a b x y).forces = s.forces := rfl
@[simp] theorem State.record_host (s : State) (c p q : Nat) (a b x y : W32) : (s.record c p q a b x y).host = s.host := rfl
@[simp] theorem State.record_mb (s : State) (c p q : Nat) (a b x y : W32) : (s.record c p q a b x y).mb = s.mb := rfl
@[simp] theorem State.record_trip (s : State) (c p q : Nat) (a b x y : W32) : (s.record c p q a b x y).trip = s.trip := rfl
@[simp] theorem State.record_can (s : State) (c p q : Nat) (a b x y : W32) : (s.record c p q a b x y).can = s.can := rfl
@[simp] theorem State.record_stn (s : State) (c p q : Nat) (a b x y : W32) : (s.record c p q a b x y).stn = s.stn := rfl
@[simp] theorem State.record_ctr (s : State) (c p q : Nat) (a b x y : W32) : (s.record c p q a b x y).ctr = s.ctr := rfl
@[simp] theorem State.record_pwr (s : State) (c p q : Nat) (a b x y : W32) : (s.record c p q a b x y).pwr = s.pwr := rfl
@[simp] theorem State.record_nv (s : State) (c p q : Nat) (a b x y : W32) : (s.record c p q a b x y).nv = s.nv := rfl

/-! ### recordAt changes only rcd -/

@[simp] theorem State.recordAt_pending (s : State) (t : W32) (c p q : Nat) (a b x y : W32) : (s.recordAt t c p q a b x y).pending = s.pending := rfl
@[simp] theorem State.recordAt_clk (s : State) (t : W32) (c p q : Nat) (a b x y : W32) : (s.recordAt t c p q a b x y).clk = s.clk := rfl
@[simp] theorem State.recordAt_free (s : State) (t : W32) (c p q : Nat) (a b x y : W32) : (s.recordAt t c p q a b x y).free = s.free := rfl
@[simp] theorem State.recordAt_out (s : State) (t : W32) (c p q : Nat) (a b x y : W32) : (s.recordAt t c p q a b x y).out = s.out := rfl
@[simp] theorem State.recordAt_timers (s : State) (t : W32) (c p q : Nat) (a b x y : W32) : (s.recordAt t c p q a b x y).timers = s.timers := rfl
@[simp] theorem State.recordAt_mod (s : State) (t : W32) (c p q : Nat) (a b x y : W32) : (s.recordAt t c p q a b x y).mod = s.mod := rfl
@[simp] theorem State.recordAt_pins (s : State) (t : W32) (c p q : Nat) (a b x y : W32) : (s.recordAt t c p q a b x y).pins = s.pins := rfl
@[simp] theorem State.recordAt_time (s : State) (t : W32) (c p q : Nat) (a b x y : W32) : (s.recordAt t c p q a b x y).time = s.time := rfl
@[simp] theorem State.recordAt_lanes (s : State) (t : W32) (c p q : Nat) (a b x y : W32) : (s.recordAt t c p q a b x y).lanes = s.lanes := rfl
@[simp] theorem State.recordAt_mem (s : State) (t : W32) (c p q : Nat) (a b x y : W32) : (s.recordAt t c p q a b x y).mem = s.mem := rfl
@[simp] theorem State.recordAt_memErr (s : State) (t : W32) (c p q : Nat) (a b x y : W32) : (s.recordAt t c p q a b x y).memErr = s.memErr := rfl
@[simp] theorem State.recordAt_cls (s : State) (t : W32) (c p q : Nat) (a b x y : W32) : (s.recordAt t c p q a b x y).cls = s.cls := rfl
@[simp] theorem State.recordAt_cycles (s : State) (t : W32) (c p q : Nat) (a b x y : W32) : (s.recordAt t c p q a b x y).cycles = s.cycles := rfl
@[simp] theorem State.recordAt_inNext (s : State) (t : W32) (c p q : Nat) (a b x y : W32) : (s.recordAt t c p q a b x y).inNext = s.inNext := rfl
@[simp] theorem State.recordAt_words (s : State) (t : W32) (c p q : Nat) (a b x y : W32) : (s.recordAt t c p q a b x y).words = s.words := rfl
@[simp] theorem State.recordAt_overrun (s : State) (t : W32) (c p q : Nat) (a b x y : W32) : (s.recordAt t c p q a b x y).overrun = s.overrun := rfl
@[simp] theorem State.recordAt_delays (s : State) (t : W32) (c p q : Nat) (a b x y : W32) : (s.recordAt t c p q a b x y).delays = s.delays := rfl
@[simp] theorem State.recordAt_late (s : State) (t : W32) (c p q : Nat) (a b x y : W32) : (s.recordAt t c p q a b x y).late = s.late := rfl
@[simp] theorem State.recordAt_setRx (s : State) (t : W32) (c p q : Nat) (a b x y : W32) : (s.recordAt t c p q a b x y).setRx = s.setRx := rfl
@[simp] theorem State.recordAt_pubSeq (s : State) (t : W32) (c p q : Nat) (a b x y : W32) : (s.recordAt t c p q a b x y).pubSeq = s.pubSeq := rfl
@[simp] theorem State.recordAt_parts (s : State) (t : W32) (c p q : Nat) (a b x y : W32) : (s.recordAt t c p q a b x y).parts = s.parts := rfl
@[simp] theorem State.recordAt_cmp (s : State) (t : W32) (c p q : Nat) (a b x y : W32) : (s.recordAt t c p q a b x y).cmp = s.cmp := rfl
@[simp] theorem State.recordAt_rnd (s : State) (t : W32) (c p q : Nat) (a b x y : W32) : (s.recordAt t c p q a b x y).rnd = s.rnd := rfl
@[simp] theorem State.recordAt_coll (s : State) (t : W32) (c p q : Nat) (a b x y : W32) : (s.recordAt t c p q a b x y).coll = s.coll := rfl
@[simp] theorem State.recordAt_guard (s : State) (t : W32) (c p q : Nat) (a b x y : W32) : (s.recordAt t c p q a b x y).guard = s.guard := rfl
@[simp] theorem State.recordAt_pl (s : State) (t : W32) (c p q : Nat) (a b x y : W32) : (s.recordAt t c p q a b x y).pl = s.pl := rfl
@[simp] theorem State.recordAt_ring (s : State) (t : W32) (c p q : Nat) (a b x y : W32) : (s.recordAt t c p q a b x y).ring = s.ring := rfl
@[simp] theorem State.recordAt_pair (s : State) (t : W32) (c p q : Nat) (a b x y : W32) : (s.recordAt t c p q a b x y).pair = s.pair := rfl
@[simp] theorem State.recordAt_forces (s : State) (t : W32) (c p q : Nat) (a b x y : W32) : (s.recordAt t c p q a b x y).forces = s.forces := rfl
@[simp] theorem State.recordAt_host (s : State) (t : W32) (c p q : Nat) (a b x y : W32) : (s.recordAt t c p q a b x y).host = s.host := rfl
@[simp] theorem State.recordAt_mb (s : State) (t : W32) (c p q : Nat) (a b x y : W32) : (s.recordAt t c p q a b x y).mb = s.mb := rfl
@[simp] theorem State.recordAt_trip (s : State) (t : W32) (c p q : Nat) (a b x y : W32) : (s.recordAt t c p q a b x y).trip = s.trip := rfl
@[simp] theorem State.recordAt_can (s : State) (t : W32) (c p q : Nat) (a b x y : W32) : (s.recordAt t c p q a b x y).can = s.can := rfl
@[simp] theorem State.recordAt_stn (s : State) (t : W32) (c p q : Nat) (a b x y : W32) : (s.recordAt t c p q a b x y).stn = s.stn := rfl
@[simp] theorem State.recordAt_ctr (s : State) (t : W32) (c p q : Nat) (a b x y : W32) : (s.recordAt t c p q a b x y).ctr = s.ctr := rfl
@[simp] theorem State.recordAt_pwr (s : State) (t : W32) (c p q : Nat) (a b x y : W32) : (s.recordAt t c p q a b x y).pwr = s.pwr := rfl
@[simp] theorem State.recordAt_nv (s : State) (t : W32) (c p q : Nat) (a b x y : W32) : (s.recordAt t c p q a b x y).nv = s.nv := rfl

/-! ### notify changes only mb and out -/

@[simp] theorem State.notify_pending (s : State) (p c : Nat) (bs : List Byte) : (s.notify p c bs).pending = s.pending := rfl
@[simp] theorem State.notify_clk (s : State) (p c : Nat) (bs : List Byte) : (s.notify p c bs).clk = s.clk := rfl
@[simp] theorem State.notify_free (s : State) (p c : Nat) (bs : List Byte) : (s.notify p c bs).free = s.free := rfl
@[simp] theorem State.notify_timers (s : State) (p c : Nat) (bs : List Byte) : (s.notify p c bs).timers = s.timers := rfl
@[simp] theorem State.notify_mod (s : State) (p c : Nat) (bs : List Byte) : (s.notify p c bs).mod = s.mod := rfl
@[simp] theorem State.notify_pins (s : State) (p c : Nat) (bs : List Byte) : (s.notify p c bs).pins = s.pins := rfl
@[simp] theorem State.notify_time (s : State) (p c : Nat) (bs : List Byte) : (s.notify p c bs).time = s.time := rfl
@[simp] theorem State.notify_lanes (s : State) (p c : Nat) (bs : List Byte) : (s.notify p c bs).lanes = s.lanes := rfl
@[simp] theorem State.notify_mem (s : State) (p c : Nat) (bs : List Byte) : (s.notify p c bs).mem = s.mem := rfl
@[simp] theorem State.notify_memErr (s : State) (p c : Nat) (bs : List Byte) : (s.notify p c bs).memErr = s.memErr := rfl
@[simp] theorem State.notify_cls (s : State) (p c : Nat) (bs : List Byte) : (s.notify p c bs).cls = s.cls := rfl
@[simp] theorem State.notify_cycles (s : State) (p c : Nat) (bs : List Byte) : (s.notify p c bs).cycles = s.cycles := rfl
@[simp] theorem State.notify_inNext (s : State) (p c : Nat) (bs : List Byte) : (s.notify p c bs).inNext = s.inNext := rfl
@[simp] theorem State.notify_words (s : State) (p c : Nat) (bs : List Byte) : (s.notify p c bs).words = s.words := rfl
@[simp] theorem State.notify_overrun (s : State) (p c : Nat) (bs : List Byte) : (s.notify p c bs).overrun = s.overrun := rfl
@[simp] theorem State.notify_delays (s : State) (p c : Nat) (bs : List Byte) : (s.notify p c bs).delays = s.delays := rfl
@[simp] theorem State.notify_late (s : State) (p c : Nat) (bs : List Byte) : (s.notify p c bs).late = s.late := rfl
@[simp] theorem State.notify_setRx (s : State) (p c : Nat) (bs : List Byte) : (s.notify p c bs).setRx = s.setRx := rfl
@[simp] theorem State.notify_pubSeq (s : State) (p c : Nat) (bs : List Byte) : (s.notify p c bs).pubSeq = s.pubSeq := rfl
@[simp] theorem State.notify_parts (s : State) (p c : Nat) (bs : List Byte) : (s.notify p c bs).parts = s.parts := rfl
@[simp] theorem State.notify_cmp (s : State) (p c : Nat) (bs : List Byte) : (s.notify p c bs).cmp = s.cmp := rfl
@[simp] theorem State.notify_rnd (s : State) (p c : Nat) (bs : List Byte) : (s.notify p c bs).rnd = s.rnd := rfl
@[simp] theorem State.notify_coll (s : State) (p c : Nat) (bs : List Byte) : (s.notify p c bs).coll = s.coll := rfl
@[simp] theorem State.notify_guard (s : State) (p c : Nat) (bs : List Byte) : (s.notify p c bs).guard = s.guard := rfl
@[simp] theorem State.notify_pl (s : State) (p c : Nat) (bs : List Byte) : (s.notify p c bs).pl = s.pl := rfl
@[simp] theorem State.notify_ring (s : State) (p c : Nat) (bs : List Byte) : (s.notify p c bs).ring = s.ring := rfl
@[simp] theorem State.notify_pair (s : State) (p c : Nat) (bs : List Byte) : (s.notify p c bs).pair = s.pair := rfl
@[simp] theorem State.notify_forces (s : State) (p c : Nat) (bs : List Byte) : (s.notify p c bs).forces = s.forces := rfl
@[simp] theorem State.notify_host (s : State) (p c : Nat) (bs : List Byte) : (s.notify p c bs).host = s.host := rfl
@[simp] theorem State.notify_trip (s : State) (p c : Nat) (bs : List Byte) : (s.notify p c bs).trip = s.trip := rfl
@[simp] theorem State.notify_can (s : State) (p c : Nat) (bs : List Byte) : (s.notify p c bs).can = s.can := rfl
@[simp] theorem State.notify_stn (s : State) (p c : Nat) (bs : List Byte) : (s.notify p c bs).stn = s.stn := rfl
@[simp] theorem State.notify_rcd (s : State) (p c : Nat) (bs : List Byte) : (s.notify p c bs).rcd = s.rcd := rfl
@[simp] theorem State.notify_ctr (s : State) (p c : Nat) (bs : List Byte) : (s.notify p c bs).ctr = s.ctr := rfl
@[simp] theorem State.notify_pwr (s : State) (p c : Nat) (bs : List Byte) : (s.notify p c bs).pwr = s.pwr := rfl
@[simp] theorem State.notify_nv (s : State) (p c : Nat) (bs : List Byte) : (s.notify p c bs).nv = s.nv := rfl

/-! ### wrMem changes only mem -/

@[simp] theorem State.wrMem_pending (s : State) (a n x : Nat) : (s.wrMem a n x).pending = s.pending := rfl
@[simp] theorem State.wrMem_clk (s : State) (a n x : Nat) : (s.wrMem a n x).clk = s.clk := rfl
@[simp] theorem State.wrMem_free (s : State) (a n x : Nat) : (s.wrMem a n x).free = s.free := rfl
@[simp] theorem State.wrMem_out (s : State) (a n x : Nat) : (s.wrMem a n x).out = s.out := rfl
@[simp] theorem State.wrMem_timers (s : State) (a n x : Nat) : (s.wrMem a n x).timers = s.timers := rfl
@[simp] theorem State.wrMem_mod (s : State) (a n x : Nat) : (s.wrMem a n x).mod = s.mod := rfl
@[simp] theorem State.wrMem_pins (s : State) (a n x : Nat) : (s.wrMem a n x).pins = s.pins := rfl
@[simp] theorem State.wrMem_time (s : State) (a n x : Nat) : (s.wrMem a n x).time = s.time := rfl
@[simp] theorem State.wrMem_lanes (s : State) (a n x : Nat) : (s.wrMem a n x).lanes = s.lanes := rfl
@[simp] theorem State.wrMem_memErr (s : State) (a n x : Nat) : (s.wrMem a n x).memErr = s.memErr := rfl
@[simp] theorem State.wrMem_cls (s : State) (a n x : Nat) : (s.wrMem a n x).cls = s.cls := rfl
@[simp] theorem State.wrMem_cycles (s : State) (a n x : Nat) : (s.wrMem a n x).cycles = s.cycles := rfl
@[simp] theorem State.wrMem_inNext (s : State) (a n x : Nat) : (s.wrMem a n x).inNext = s.inNext := rfl
@[simp] theorem State.wrMem_words (s : State) (a n x : Nat) : (s.wrMem a n x).words = s.words := rfl
@[simp] theorem State.wrMem_overrun (s : State) (a n x : Nat) : (s.wrMem a n x).overrun = s.overrun := rfl
@[simp] theorem State.wrMem_delays (s : State) (a n x : Nat) : (s.wrMem a n x).delays = s.delays := rfl
@[simp] theorem State.wrMem_late (s : State) (a n x : Nat) : (s.wrMem a n x).late = s.late := rfl
@[simp] theorem State.wrMem_setRx (s : State) (a n x : Nat) : (s.wrMem a n x).setRx = s.setRx := rfl
@[simp] theorem State.wrMem_pubSeq (s : State) (a n x : Nat) : (s.wrMem a n x).pubSeq = s.pubSeq := rfl
@[simp] theorem State.wrMem_parts (s : State) (a n x : Nat) : (s.wrMem a n x).parts = s.parts := rfl
@[simp] theorem State.wrMem_cmp (s : State) (a n x : Nat) : (s.wrMem a n x).cmp = s.cmp := rfl
@[simp] theorem State.wrMem_rnd (s : State) (a n x : Nat) : (s.wrMem a n x).rnd = s.rnd := rfl
@[simp] theorem State.wrMem_coll (s : State) (a n x : Nat) : (s.wrMem a n x).coll = s.coll := rfl
@[simp] theorem State.wrMem_guard (s : State) (a n x : Nat) : (s.wrMem a n x).guard = s.guard := rfl
@[simp] theorem State.wrMem_pl (s : State) (a n x : Nat) : (s.wrMem a n x).pl = s.pl := rfl
@[simp] theorem State.wrMem_ring (s : State) (a n x : Nat) : (s.wrMem a n x).ring = s.ring := rfl
@[simp] theorem State.wrMem_pair (s : State) (a n x : Nat) : (s.wrMem a n x).pair = s.pair := rfl
@[simp] theorem State.wrMem_forces (s : State) (a n x : Nat) : (s.wrMem a n x).forces = s.forces := rfl
@[simp] theorem State.wrMem_host (s : State) (a n x : Nat) : (s.wrMem a n x).host = s.host := rfl
@[simp] theorem State.wrMem_mb (s : State) (a n x : Nat) : (s.wrMem a n x).mb = s.mb := rfl
@[simp] theorem State.wrMem_trip (s : State) (a n x : Nat) : (s.wrMem a n x).trip = s.trip := rfl
@[simp] theorem State.wrMem_can (s : State) (a n x : Nat) : (s.wrMem a n x).can = s.can := rfl
@[simp] theorem State.wrMem_stn (s : State) (a n x : Nat) : (s.wrMem a n x).stn = s.stn := rfl
@[simp] theorem State.wrMem_rcd (s : State) (a n x : Nat) : (s.wrMem a n x).rcd = s.rcd := rfl
@[simp] theorem State.wrMem_ctr (s : State) (a n x : Nat) : (s.wrMem a n x).ctr = s.ctr := rfl
@[simp] theorem State.wrMem_pwr (s : State) (a n x : Nat) : (s.wrMem a n x).pwr = s.pwr := rfl
@[simp] theorem State.wrMem_nv (s : State) (a n x : Nat) : (s.wrMem a n x).nv = s.nv := rfl

/-! ### wrBytes changes only mem -/

@[simp] theorem State.wrBytes_pending (s : State) (a : Nat) (bs : List Byte) : (s.wrBytes a bs).pending = s.pending := rfl
@[simp] theorem State.wrBytes_clk (s : State) (a : Nat) (bs : List Byte) : (s.wrBytes a bs).clk = s.clk := rfl
@[simp] theorem State.wrBytes_free (s : State) (a : Nat) (bs : List Byte) : (s.wrBytes a bs).free = s.free := rfl
@[simp] theorem State.wrBytes_out (s : State) (a : Nat) (bs : List Byte) : (s.wrBytes a bs).out = s.out := rfl
@[simp] theorem State.wrBytes_timers (s : State) (a : Nat) (bs : List Byte) : (s.wrBytes a bs).timers = s.timers := rfl
@[simp] theorem State.wrBytes_mod (s : State) (a : Nat) (bs : List Byte) : (s.wrBytes a bs).mod = s.mod := rfl
@[simp] theorem State.wrBytes_pins (s : State) (a : Nat) (bs : List Byte) : (s.wrBytes a bs).pins = s.pins := rfl
@[simp] theorem State.wrBytes_time (s : State) (a : Nat) (bs : List Byte) : (s.wrBytes a bs).time = s.time := rfl
@[simp] theorem State.wrBytes_lanes (s : State) (a : Nat) (bs : List Byte) : (s.wrBytes a bs).lanes = s.lanes := rfl
@[simp] theorem State.wrBytes_memErr (s : State) (a : Nat) (bs : List Byte) : (s.wrBytes a bs).memErr = s.memErr := rfl
@[simp] theorem State.wrBytes_cls (s : State) (a : Nat) (bs : List Byte) : (s.wrBytes a bs).cls = s.cls := rfl
@[simp] theorem State.wrBytes_cycles (s : State) (a : Nat) (bs : List Byte) : (s.wrBytes a bs).cycles = s.cycles := rfl
@[simp] theorem State.wrBytes_inNext (s : State) (a : Nat) (bs : List Byte) : (s.wrBytes a bs).inNext = s.inNext := rfl
@[simp] theorem State.wrBytes_words (s : State) (a : Nat) (bs : List Byte) : (s.wrBytes a bs).words = s.words := rfl
@[simp] theorem State.wrBytes_overrun (s : State) (a : Nat) (bs : List Byte) : (s.wrBytes a bs).overrun = s.overrun := rfl
@[simp] theorem State.wrBytes_delays (s : State) (a : Nat) (bs : List Byte) : (s.wrBytes a bs).delays = s.delays := rfl
@[simp] theorem State.wrBytes_late (s : State) (a : Nat) (bs : List Byte) : (s.wrBytes a bs).late = s.late := rfl
@[simp] theorem State.wrBytes_setRx (s : State) (a : Nat) (bs : List Byte) : (s.wrBytes a bs).setRx = s.setRx := rfl
@[simp] theorem State.wrBytes_pubSeq (s : State) (a : Nat) (bs : List Byte) : (s.wrBytes a bs).pubSeq = s.pubSeq := rfl
@[simp] theorem State.wrBytes_parts (s : State) (a : Nat) (bs : List Byte) : (s.wrBytes a bs).parts = s.parts := rfl
@[simp] theorem State.wrBytes_cmp (s : State) (a : Nat) (bs : List Byte) : (s.wrBytes a bs).cmp = s.cmp := rfl
@[simp] theorem State.wrBytes_rnd (s : State) (a : Nat) (bs : List Byte) : (s.wrBytes a bs).rnd = s.rnd := rfl
@[simp] theorem State.wrBytes_coll (s : State) (a : Nat) (bs : List Byte) : (s.wrBytes a bs).coll = s.coll := rfl
@[simp] theorem State.wrBytes_guard (s : State) (a : Nat) (bs : List Byte) : (s.wrBytes a bs).guard = s.guard := rfl
@[simp] theorem State.wrBytes_pl (s : State) (a : Nat) (bs : List Byte) : (s.wrBytes a bs).pl = s.pl := rfl
@[simp] theorem State.wrBytes_ring (s : State) (a : Nat) (bs : List Byte) : (s.wrBytes a bs).ring = s.ring := rfl
@[simp] theorem State.wrBytes_pair (s : State) (a : Nat) (bs : List Byte) : (s.wrBytes a bs).pair = s.pair := rfl
@[simp] theorem State.wrBytes_forces (s : State) (a : Nat) (bs : List Byte) : (s.wrBytes a bs).forces = s.forces := rfl
@[simp] theorem State.wrBytes_host (s : State) (a : Nat) (bs : List Byte) : (s.wrBytes a bs).host = s.host := rfl
@[simp] theorem State.wrBytes_mb (s : State) (a : Nat) (bs : List Byte) : (s.wrBytes a bs).mb = s.mb := rfl
@[simp] theorem State.wrBytes_trip (s : State) (a : Nat) (bs : List Byte) : (s.wrBytes a bs).trip = s.trip := rfl
@[simp] theorem State.wrBytes_can (s : State) (a : Nat) (bs : List Byte) : (s.wrBytes a bs).can = s.can := rfl
@[simp] theorem State.wrBytes_stn (s : State) (a : Nat) (bs : List Byte) : (s.wrBytes a bs).stn = s.stn := rfl
@[simp] theorem State.wrBytes_rcd (s : State) (a : Nat) (bs : List Byte) : (s.wrBytes a bs).rcd = s.rcd := rfl
@[simp] theorem State.wrBytes_ctr (s : State) (a : Nat) (bs : List Byte) : (s.wrBytes a bs).ctr = s.ctr := rfl
@[simp] theorem State.wrBytes_pwr (s : State) (a : Nat) (bs : List Byte) : (s.wrBytes a bs).pwr = s.pwr := rfl
@[simp] theorem State.wrBytes_nv (s : State) (a : Nat) (bs : List Byte) : (s.wrBytes a bs).nv = s.nv := rfl

/-! ### wrImg changes only mem -/

@[simp] theorem State.wrImg_pending (s : State) (b i : Nat) (v : W64) : (s.wrImg b i v).pending = s.pending := rfl
@[simp] theorem State.wrImg_clk (s : State) (b i : Nat) (v : W64) : (s.wrImg b i v).clk = s.clk := rfl
@[simp] theorem State.wrImg_free (s : State) (b i : Nat) (v : W64) : (s.wrImg b i v).free = s.free := rfl
@[simp] theorem State.wrImg_out (s : State) (b i : Nat) (v : W64) : (s.wrImg b i v).out = s.out := rfl
@[simp] theorem State.wrImg_timers (s : State) (b i : Nat) (v : W64) : (s.wrImg b i v).timers = s.timers := rfl
@[simp] theorem State.wrImg_mod (s : State) (b i : Nat) (v : W64) : (s.wrImg b i v).mod = s.mod := rfl
@[simp] theorem State.wrImg_pins (s : State) (b i : Nat) (v : W64) : (s.wrImg b i v).pins = s.pins := rfl
@[simp] theorem State.wrImg_time (s : State) (b i : Nat) (v : W64) : (s.wrImg b i v).time = s.time := rfl
@[simp] theorem State.wrImg_lanes (s : State) (b i : Nat) (v : W64) : (s.wrImg b i v).lanes = s.lanes := rfl
@[simp] theorem State.wrImg_memErr (s : State) (b i : Nat) (v : W64) : (s.wrImg b i v).memErr = s.memErr := rfl
@[simp] theorem State.wrImg_cls (s : State) (b i : Nat) (v : W64) : (s.wrImg b i v).cls = s.cls := rfl
@[simp] theorem State.wrImg_cycles (s : State) (b i : Nat) (v : W64) : (s.wrImg b i v).cycles = s.cycles := rfl
@[simp] theorem State.wrImg_inNext (s : State) (b i : Nat) (v : W64) : (s.wrImg b i v).inNext = s.inNext := rfl
@[simp] theorem State.wrImg_words (s : State) (b i : Nat) (v : W64) : (s.wrImg b i v).words = s.words := rfl
@[simp] theorem State.wrImg_overrun (s : State) (b i : Nat) (v : W64) : (s.wrImg b i v).overrun = s.overrun := rfl
@[simp] theorem State.wrImg_delays (s : State) (b i : Nat) (v : W64) : (s.wrImg b i v).delays = s.delays := rfl
@[simp] theorem State.wrImg_late (s : State) (b i : Nat) (v : W64) : (s.wrImg b i v).late = s.late := rfl
@[simp] theorem State.wrImg_setRx (s : State) (b i : Nat) (v : W64) : (s.wrImg b i v).setRx = s.setRx := rfl
@[simp] theorem State.wrImg_pubSeq (s : State) (b i : Nat) (v : W64) : (s.wrImg b i v).pubSeq = s.pubSeq := rfl
@[simp] theorem State.wrImg_parts (s : State) (b i : Nat) (v : W64) : (s.wrImg b i v).parts = s.parts := rfl
@[simp] theorem State.wrImg_cmp (s : State) (b i : Nat) (v : W64) : (s.wrImg b i v).cmp = s.cmp := rfl
@[simp] theorem State.wrImg_rnd (s : State) (b i : Nat) (v : W64) : (s.wrImg b i v).rnd = s.rnd := rfl
@[simp] theorem State.wrImg_coll (s : State) (b i : Nat) (v : W64) : (s.wrImg b i v).coll = s.coll := rfl
@[simp] theorem State.wrImg_guard (s : State) (b i : Nat) (v : W64) : (s.wrImg b i v).guard = s.guard := rfl
@[simp] theorem State.wrImg_pl (s : State) (b i : Nat) (v : W64) : (s.wrImg b i v).pl = s.pl := rfl
@[simp] theorem State.wrImg_ring (s : State) (b i : Nat) (v : W64) : (s.wrImg b i v).ring = s.ring := rfl
@[simp] theorem State.wrImg_pair (s : State) (b i : Nat) (v : W64) : (s.wrImg b i v).pair = s.pair := rfl
@[simp] theorem State.wrImg_forces (s : State) (b i : Nat) (v : W64) : (s.wrImg b i v).forces = s.forces := rfl
@[simp] theorem State.wrImg_host (s : State) (b i : Nat) (v : W64) : (s.wrImg b i v).host = s.host := rfl
@[simp] theorem State.wrImg_mb (s : State) (b i : Nat) (v : W64) : (s.wrImg b i v).mb = s.mb := rfl
@[simp] theorem State.wrImg_trip (s : State) (b i : Nat) (v : W64) : (s.wrImg b i v).trip = s.trip := rfl
@[simp] theorem State.wrImg_can (s : State) (b i : Nat) (v : W64) : (s.wrImg b i v).can = s.can := rfl
@[simp] theorem State.wrImg_stn (s : State) (b i : Nat) (v : W64) : (s.wrImg b i v).stn = s.stn := rfl
@[simp] theorem State.wrImg_rcd (s : State) (b i : Nat) (v : W64) : (s.wrImg b i v).rcd = s.rcd := rfl
@[simp] theorem State.wrImg_ctr (s : State) (b i : Nat) (v : W64) : (s.wrImg b i v).ctr = s.ctr := rfl
@[simp] theorem State.wrImg_pwr (s : State) (b i : Nat) (v : W64) : (s.wrImg b i v).pwr = s.pwr := rfl
@[simp] theorem State.wrImg_nv (s : State) (b i : Nat) (v : W64) : (s.wrImg b i v).nv = s.nv := rfl

/-! ### send changes only out -/

@[simp] theorem State.send_pending (s : State) (o : Out) : (s.send o).pending = s.pending := by unfold State.send; split <;> rfl
@[simp] theorem State.send_clk (s : State) (o : Out) : (s.send o).clk = s.clk := by unfold State.send; split <;> rfl
@[simp] theorem State.send_free (s : State) (o : Out) : (s.send o).free = s.free := by unfold State.send; split <;> rfl
@[simp] theorem State.send_timers (s : State) (o : Out) : (s.send o).timers = s.timers := by unfold State.send; split <;> rfl
@[simp] theorem State.send_mod (s : State) (o : Out) : (s.send o).mod = s.mod := by unfold State.send; split <;> rfl
@[simp] theorem State.send_pins (s : State) (o : Out) : (s.send o).pins = s.pins := by unfold State.send; split <;> rfl
@[simp] theorem State.send_time (s : State) (o : Out) : (s.send o).time = s.time := by unfold State.send; split <;> rfl
@[simp] theorem State.send_lanes (s : State) (o : Out) : (s.send o).lanes = s.lanes := by unfold State.send; split <;> rfl
@[simp] theorem State.send_mem (s : State) (o : Out) : (s.send o).mem = s.mem := by unfold State.send; split <;> rfl
@[simp] theorem State.send_memErr (s : State) (o : Out) : (s.send o).memErr = s.memErr := by unfold State.send; split <;> rfl
@[simp] theorem State.send_cls (s : State) (o : Out) : (s.send o).cls = s.cls := by unfold State.send; split <;> rfl
@[simp] theorem State.send_cycles (s : State) (o : Out) : (s.send o).cycles = s.cycles := by unfold State.send; split <;> rfl
@[simp] theorem State.send_inNext (s : State) (o : Out) : (s.send o).inNext = s.inNext := by unfold State.send; split <;> rfl
@[simp] theorem State.send_words (s : State) (o : Out) : (s.send o).words = s.words := by unfold State.send; split <;> rfl
@[simp] theorem State.send_overrun (s : State) (o : Out) : (s.send o).overrun = s.overrun := by unfold State.send; split <;> rfl
@[simp] theorem State.send_delays (s : State) (o : Out) : (s.send o).delays = s.delays := by unfold State.send; split <;> rfl
@[simp] theorem State.send_late (s : State) (o : Out) : (s.send o).late = s.late := by unfold State.send; split <;> rfl
@[simp] theorem State.send_setRx (s : State) (o : Out) : (s.send o).setRx = s.setRx := by unfold State.send; split <;> rfl
@[simp] theorem State.send_pubSeq (s : State) (o : Out) : (s.send o).pubSeq = s.pubSeq := by unfold State.send; split <;> rfl
@[simp] theorem State.send_parts (s : State) (o : Out) : (s.send o).parts = s.parts := by unfold State.send; split <;> rfl
@[simp] theorem State.send_cmp (s : State) (o : Out) : (s.send o).cmp = s.cmp := by unfold State.send; split <;> rfl
@[simp] theorem State.send_rnd (s : State) (o : Out) : (s.send o).rnd = s.rnd := by unfold State.send; split <;> rfl
@[simp] theorem State.send_coll (s : State) (o : Out) : (s.send o).coll = s.coll := by unfold State.send; split <;> rfl
@[simp] theorem State.send_guard (s : State) (o : Out) : (s.send o).guard = s.guard := by unfold State.send; split <;> rfl
@[simp] theorem State.send_pl (s : State) (o : Out) : (s.send o).pl = s.pl := by unfold State.send; split <;> rfl
@[simp] theorem State.send_ring (s : State) (o : Out) : (s.send o).ring = s.ring := by unfold State.send; split <;> rfl
@[simp] theorem State.send_pair (s : State) (o : Out) : (s.send o).pair = s.pair := by unfold State.send; split <;> rfl
@[simp] theorem State.send_forces (s : State) (o : Out) : (s.send o).forces = s.forces := by unfold State.send; split <;> rfl
@[simp] theorem State.send_host (s : State) (o : Out) : (s.send o).host = s.host := by unfold State.send; split <;> rfl
@[simp] theorem State.send_mb (s : State) (o : Out) : (s.send o).mb = s.mb := by unfold State.send; split <;> rfl
@[simp] theorem State.send_trip (s : State) (o : Out) : (s.send o).trip = s.trip := by unfold State.send; split <;> rfl
@[simp] theorem State.send_can (s : State) (o : Out) : (s.send o).can = s.can := by unfold State.send; split <;> rfl
@[simp] theorem State.send_stn (s : State) (o : Out) : (s.send o).stn = s.stn := by unfold State.send; split <;> rfl
@[simp] theorem State.send_rcd (s : State) (o : Out) : (s.send o).rcd = s.rcd := by unfold State.send; split <;> rfl
@[simp] theorem State.send_ctr (s : State) (o : Out) : (s.send o).ctr = s.ctr := by unfold State.send; split <;> rfl
@[simp] theorem State.send_pwr (s : State) (o : Out) : (s.send o).pwr = s.pwr := by unfold State.send; split <;> rfl
@[simp] theorem State.send_nv (s : State) (o : Out) : (s.send o).nv = s.nv := by unfold State.send; split <;> rfl

end Sys2Proof.Machine
end

