-- ==== Sys2Proof/Laws/Frames.lean ====
section
/-! SUPPORT. What the shared operations leave: memory, the clock and the queue of waiting commands, one lemma per operation, each citing those of the operations it calls. -/
set_option linter.unusedSimpArgs false
namespace Sys2Proof.Machine

/-! ### Alternatives, repetitions, drawn values -/

@[simp] theorem State.ite_mem (c : Prop) [Decidable c] (a b : State) : (if c then a else b).mem = if c then a.mem else b.mem := apply_ite State.mem c a b
@[simp] theorem State.ite_clk (c : Prop) [Decidable c] (a b : State) : (if c then a else b).clk = if c then a.clk else b.clk := apply_ite State.clk c a b
@[simp] theorem State.ite_pending (c : Prop) [Decidable c] (a b : State) : (if c then a else b).pending = if c then a.pending else b.pending := apply_ite State.pending c a b
@[simp] theorem State.foldl_mem {α : Type} {f : State → α → State} (h : ∀ s a, (f s a).mem = s.mem) (l : List α) (s : State) : (l.foldl f s).mem = s.mem := by
  induction l generalizing s with
  | nil => rfl
  | cons a l ih => simp [ih, h]
@[simp] theorem State.foldl_clk {α : Type} {f : State → α → State} (h : ∀ s a, (f s a).clk = s.clk) (l : List α) (s : State) : (l.foldl f s).clk = s.clk := by
  induction l generalizing s with
  | nil => rfl
  | cons a l ih => simp [ih, h]
@[simp] theorem State.foldl_pending {α : Type} {f : State → α → State} (h : ∀ s a, (f s a).pending = s.pending) (l : List α) (s : State) : (l.foldl f s).pending = s.pending := by
  induction l generalizing s with
  | nil => rfl
  | cons a l ih => simp [ih, h]
@[simp] theorem State.draw_keeps (s : State) : s.draw.2.mem = s.mem ∧ s.draw.2.clk = s.clk ∧ s.draw.2.pending = s.pending := ⟨rfl, rfl, rfl⟩

/-! ### The shared operations, in the order of the files -/

@[simp] theorem State.again_keeps (s : State) (t : Timer) (d : Nat) :
    (s.again t d).mem = s.mem ∧ (s.again t d).clk = s.clk ∧ (s.again t d).pending = s.pending := by
  refine ⟨?_, ?_, ?_⟩ <;> (unfold State.again; simp)
@[simp] theorem State.notifyBoth_keeps (s : State) (part code : Nat) (payload : List Byte) :
    (s.notifyBoth part code payload).mem = s.mem ∧ (s.notifyBoth part code payload).clk = s.clk ∧ (s.notifyBoth part code payload).pending = s.pending := by
  refine ⟨?_, ?_, ?_⟩ <;> (unfold State.notifyBoth; simp)
@[simp] theorem State.recordDeny_keeps (s : State) (a : Access) :
    (s.recordDeny a).mem = s.mem ∧ (s.recordDeny a).clk = s.clk ∧ (s.recordDeny a).pending = s.pending := by
  refine ⟨?_, ?_, ?_⟩ <;> (unfold State.recordDeny; simp)
@[simp] theorem State.recordDenyOnce_keeps (s : State) (a : Access) (set : Nat) :
    (s.recordDenyOnce a set).mem = s.mem ∧ (s.recordDenyOnce a set).clk = s.clk ∧ (s.recordDenyOnce a set).pending = s.pending := by
  refine ⟨?_, ?_, ?_⟩ <;> (unfold State.recordDenyOnce; simp)
@[simp] theorem State.portCnt_keeps (s : State) (p : Port) (f : PortCnt → PortCnt) :
    (s.portCnt p f).mem = s.mem ∧ (s.portCnt p f).clk = s.clk ∧ (s.portCnt p f).pending = s.pending := by
  refine ⟨?_, ?_, ?_⟩ <;> (unfold State.portCnt; simp)
@[simp] theorem State.setLink_keeps (s : State) (l : LinkName) (f : LinkEntry → LinkEntry) :
    (s.setLink l f).mem = s.mem ∧ (s.setLink l f).clk = s.clk ∧ (s.setLink l f).pending = s.pending := by
  refine ⟨?_, ?_, ?_⟩ <;> (unfold State.setLink; simp)
@[simp] theorem State.unreachable_keeps (s : State) (p : Port) (dst : Nat) :
    (s.unreachable p dst).mem = s.mem ∧ (s.unreachable p dst).clk = s.clk ∧ (s.unreachable p dst).pending = s.pending := by
  refine ⟨?_, ?_, ?_⟩ <;> (unfold State.unreachable; simp)
@[simp] theorem State.dropBreak_keeps (s : State) (p : Port) (n : Nat) :
    (s.dropBreak p n).mem = s.mem ∧ (s.dropBreak p n).clk = s.clk ∧ (s.dropBreak p n).pending = s.pending := by
  refine ⟨?_, ?_, ?_⟩ <;> (unfold State.dropBreak; simp)
@[simp] theorem State.control_keeps (s : State) (p : Port) (kind : Byte) (f : Frame) (more : List Byte) :
    (s.control p kind f more).mem = s.mem ∧ (s.control p kind f more).clk = s.clk ∧ (s.control p kind f more).pending = s.pending := by
  refine ⟨?_, ?_, ?_⟩ <;> (unfold State.control; simp)
@[simp] theorem State.release_keeps (s : State) (o : Option Org) :
    (s.release o).mem = s.mem ∧ (s.release o).clk = s.clk ∧ (s.release o).pending = s.pending := by
  refine ⟨?_, ?_, ?_⟩ <;> (unfold State.release; repeat' (first | (split <;> try simp) | simp))
@[simp] theorem State.start_keeps (s : State) (p : Port) (t : Tx) :
    (s.start p t).mem = s.mem ∧ (s.start p t).clk = s.clk ∧ (s.start p t).pending = s.pending := by
  refine ⟨?_, ?_, ?_⟩ <;> (unfold State.start; simp)
@[simp] theorem State.startNext_keeps (s : State) (p : Port) :
    (s.startNext p).mem = s.mem ∧ (s.startNext p).clk = s.clk ∧ (s.startNext p).pending = s.pending := by
  refine ⟨?_, ?_, ?_⟩ <;> (unfold State.startNext; dsimp only; repeat' (first | (split <;> try simp) | simp))
@[simp] theorem State.finish_keeps (s : State) (p : Port) (n : Nat) :
    (s.finish p n).mem = s.mem ∧ (s.finish p n).clk = s.clk ∧ (s.finish p n).pending = s.pending := by
  induction n generalizing s with
  | zero => exact ⟨rfl, rfl, rfl⟩
  | succ n ih =>
    unfold State.finish
    dsimp only
    repeat' (first | (split <;> try simp [ih]) | simp [ih])
@[simp] theorem State.drain_keeps (s : State) (p : Port) (n : Nat) :
    (s.drain p n).mem = s.mem ∧ (s.drain p n).clk = s.clk ∧ (s.drain p n).pending = s.pending := by
  unfold State.drain; simp
@[simp] theorem State.drainAll_keeps (s : State) :
    (s.drainAll).mem = s.mem ∧ (s.drainAll).clk = s.clk ∧ (s.drainAll).pending = s.pending := by
  refine ⟨?_, ?_, ?_⟩ <;> (unfold State.drainAll; simp)
@[simp] theorem State.queue_keeps (s : State) (p : Port) (t : Tx) :
    (s.queue p t).mem = s.mem ∧ (s.queue p t).clk = s.clk ∧ (s.queue p t).pending = s.pending := by
  refine ⟨?_, ?_, ?_⟩ <;> (unfold State.queue; simp)
@[simp] theorem State.transmit_keeps (s : State) (p : Port) (f : Frame) (body : Option Msg) :
    (s.transmit p f body).mem = s.mem ∧ (s.transmit p f body).clk = s.clk ∧ (s.transmit p f body).pending = s.pending := by
  refine ⟨?_, ?_, ?_⟩ <;> (unfold State.transmit; simp)
@[simp] theorem State.sendRouted_keeps (s : State) (f : Frame) (body : Option Msg) :
    (s.sendRouted f body).mem = s.mem ∧ (s.sendRouted f body).clk = s.clk ∧ (s.sendRouted f body).pending = s.pending := by
  refine ⟨?_, ?_, ?_⟩ <;> (unfold State.sendRouted; repeat' (first | (split <;> try simp) | simp))
@[simp] theorem State.bothWays_keeps (s : State) (row : Bool) (f : Frame) (body : Option Msg) :
    (s.bothWays row f body).mem = s.mem ∧ (s.bothWays row f body).clk = s.clk ∧ (s.bothWays row f body).pending = s.pending := by
  refine ⟨?_, ?_, ?_⟩ <;> (unfold State.bothWays; simp)
@[simp] theorem State.sendBroadcast_keeps (s : State) (f : Frame) (body : Option Msg) :
    (s.sendBroadcast f body).mem = s.mem ∧ (s.sendBroadcast f body).clk = s.clk ∧ (s.sendBroadcast f body).pending = s.pending := by
  refine ⟨?_, ?_, ?_⟩ <;> (unfold State.sendBroadcast; dsimp only; repeat' (first | (split <;> try simp) | simp))
@[simp] theorem State.sendTo_keeps (s : State) (ty dst : Nat) (payload : List Byte) :
    (s.sendTo ty dst payload).mem = s.mem ∧ (s.sendTo ty dst payload).clk = s.clk ∧ (s.sendTo ty dst payload).pending = s.pending := by
  refine ⟨?_, ?_, ?_⟩ <;> (unfold State.sendTo; simp)
@[simp] theorem State.broadcast_keeps (s : State) (ty : Nat) (payload : List Byte) :
    (s.broadcast ty payload).mem = s.mem ∧ (s.broadcast ty payload).clk = s.clk ∧ (s.broadcast ty payload).pending = s.pending := by
  refine ⟨?_, ?_, ?_⟩ <;> (unfold State.broadcast; simp)
@[simp] theorem State.toPartner_keeps (s : State) (m : Msg) :
    (s.toPartner m).mem = s.mem ∧ (s.toPartner m).clk = s.clk ∧ (s.toPartner m).pending = s.pending := by
  refine ⟨?_, ?_, ?_⟩ <;> (unfold State.toPartner; simp)
@[simp] theorem State.toModule_keeps (s : State) (ty dst scope : Nat) (m : Msg) :
    (s.toModule ty dst scope m).mem = s.mem ∧ (s.toModule ty dst scope m).clk = s.clk ∧ (s.toModule ty dst scope m).pending = s.pending := by
  refine ⟨?_, ?_, ?_⟩ <;> (unfold State.toModule; simp)
@[simp] theorem State.sendReq_keeps (s : State) (dst : Nat) (m : ReqMsg) :
    (s.sendReq dst m).mem = s.mem ∧ (s.sendReq dst m).clk = s.clk ∧ (s.sendReq dst m).pending = s.pending := by
  refine ⟨?_, ?_, ?_⟩ <;> (unfold State.sendReq; simp)
@[simp] theorem State.sendRsp_keeps (s : State) (dst : Nat) (m : RspMsg) :
    (s.sendRsp dst m).mem = s.mem ∧ (s.sendRsp dst m).clk = s.clk ∧ (s.sendRsp dst m).pending = s.pending := by
  refine ⟨?_, ?_, ?_⟩ <;> (unfold State.sendRsp; simp)
@[simp] theorem State.sendNotice_keeps (s : State) (kind : Byte) (links : List LinkName) (t0 : W64) :
    (s.sendNotice kind links t0).mem = s.mem ∧ (s.sendNotice kind links t0).clk = s.clk ∧ (s.sendNotice kind links t0).pending = s.pending := by
  refine ⟨?_, ?_, ?_⟩ <;> (unfold State.sendNotice; simp)
@[simp] theorem State.linkTask_keeps (s : State) (t : TaskPlan) :
    (s.linkTask t).clk = s.clk ∧ (s.linkTask t).pending = s.pending := by
  refine ⟨?_, ?_⟩ <;> (unfold State.linkTask; simp)
@[simp] theorem State.dmInit_keeps (s : State) (t : TaskPlan) :
    (s.dmInit t).clk = s.clk ∧ (s.dmInit t).pending = s.pending := by
  refine ⟨?_, ?_⟩ <;> (unfold State.dmInit; simp)
@[simp] theorem State.setEventClass_keeps (s : State) (l : Nat) :
    (s.setEventClass l).mem = s.mem ∧ (s.setEventClass l).clk = s.clk ∧ (s.setEventClass l).pending = s.pending := by
  refine ⟨?_, ?_, ?_⟩ <;> (unfold State.setEventClass; simp)
@[simp] theorem State.setEventClasses_keeps (s : State) (ts : List TaskPlan) :
    (s.setEventClasses ts).mem = s.mem ∧ (s.setEventClasses ts).clk = s.clk ∧ (s.setEventClasses ts).pending = s.pending := by
  refine ⟨?_, ?_, ?_⟩ <;> (unfold State.setEventClasses; simp)
@[simp] theorem State.linkAll_keeps (s : State) (p : ModPlan) :
    (s.linkAll p).clk = s.clk ∧ (s.linkAll p).pending = s.pending := by
  refine ⟨?_, ?_⟩ <;> (unfold State.linkAll; simp)
@[simp] theorem State.imageInit_keeps (s : State) (p : ModPlan) :
    (s.imageInit p).clk = s.clk ∧ (s.imageInit p).pending = s.pending := by
  refine ⟨?_, ?_⟩ <;> (unfold State.imageInit; (try dsimp only); repeat' (first | (refine (State.foldl_mem (fun u a => ?_) _ _).trans ?_; (try dsimp only)) | (refine (State.foldl_clk (fun u a => ?_) _ _).trans ?_; (try dsimp only)) | (refine (State.foldl_pending (fun u a => ?_) _ _).trans ?_; (try dsimp only)) | rfl | (split; all_goals (try simp)) | (simp; done)))
@[simp] theorem State.moveEntry_keeps (s : State) :
    (s.moveEntry).mem = s.mem ∧ (s.moveEntry).clk = s.clk ∧ (s.moveEntry).pending = s.pending := by
  refine ⟨?_, ?_, ?_⟩ <;> (unfold State.moveEntry; repeat' (first | (split <;> try simp) | simp))
@[simp] theorem State.disarmReq_keeps (s : State) (r : Request) :
    (s.disarmReq r).mem = s.mem ∧ (s.disarmReq r).clk = s.clk ∧ (s.disarmReq r).pending = s.pending := by
  refine ⟨?_, ?_, ?_⟩ <;> (unfold State.disarmReq; simp)
@[simp] theorem State.putResponse_keeps (s : State) (src : ReqSrc) (r : Response) :
    (s.putResponse src r).mem = s.mem ∧ (s.putResponse src r).clk = s.clk ∧ (s.putResponse src r).pending = s.pending := by
  refine ⟨?_, ?_, ?_⟩ <;> (unfold State.putResponse; dsimp only; repeat' (first | (split <;> try simp) | simp))
@[simp] theorem State.answerCode_keeps (s : State) (r : Request) (code : W16) (detail : Nat) (payload : List Byte) :
    (s.answerCode r code detail payload).mem = s.mem ∧ (s.answerCode r code detail payload).clk = s.clk ∧ (s.answerCode r code detail payload).pending = s.pending := by
  refine ⟨?_, ?_, ?_⟩ <;> (unfold State.answerCode; dsimp only; repeat' (first | (split <;> try simp) | simp))
@[simp] theorem State.answer_keeps (s : State) (r : Request) (st : Status) (detail : Nat) (payload : List Byte) :
    (s.answer r st detail payload).mem = s.mem ∧ (s.answer r st detail payload).clk = s.clk ∧ (s.answer r st detail payload).pending = s.pending := by
  refine ⟨?_, ?_, ?_⟩ <;> (unfold State.answer; simp)
@[simp] theorem State.refuse_keeps (s : State) (r : Request) (st : Status) :
    (s.refuse r st).mem = s.mem ∧ (s.refuse r st).clk = s.clk ∧ (s.refuse r st).pending = s.pending := by
  refine ⟨?_, ?_, ?_⟩ <;> (unfold State.refuse; simp)
@[simp] theorem State.okay_keeps (s : State) (r : Request) (payload : List Byte) :
    (s.okay r payload).mem = s.mem ∧ (s.okay r payload).clk = s.clk ∧ (s.okay r payload).pending = s.pending := by
  refine ⟨?_, ?_, ?_⟩ <;> (unfold State.okay; simp)
@[simp] theorem State.answerTo_keeps (s : State) (k : Option (ReqSrc × W16 × W16)) (st : Status) (detail : Nat) (payload : List Byte) :
    (s.answerTo k st detail payload).mem = s.mem ∧ (s.answerTo k st detail payload).clk = s.clk ∧ (s.answerTo k st detail payload).pending = s.pending := by
  refine ⟨?_, ?_, ?_⟩ <;> (unfold State.answerTo; repeat' (first | (split <;> try simp) | simp))
@[simp] theorem State.dropWork_keeps (s : State) (which : ReqSrc × W16 × W16 → Bool) :
    (s.dropWork which).mem = s.mem ∧ (s.dropWork which).clk = s.clk ∧ (s.dropWork which).pending = s.pending := by
  refine ⟨?_, ?_, ?_⟩ <;> (unfold State.dropWork; simp)
@[simp] theorem State.ceaseActive_keeps (s : State) :
    (s.ceaseActive).mem = s.mem ∧ (s.ceaseActive).clk = s.clk ∧ (s.ceaseActive).pending = s.pending := by
  refine ⟨?_, ?_, ?_⟩ <;> (unfold State.ceaseActive; simp)
@[simp] theorem State.started_keeps (s : State) (r : Request) :
    (s.started r).mem = s.mem ∧ (s.started r).clk = s.clk ∧ (s.started r).pending = s.pending := by
  refine ⟨?_, ?_, ?_⟩ <;> (unfold State.started; simp)
@[simp] theorem State.forwardReq_keeps (s : State) (r : Request) (dst : Nat) (object : Option W32) :
    (s.forwardReq r dst object).mem = s.mem ∧ (s.forwardReq r dst object).clk = s.clk ∧ (s.forwardReq r dst object).pending = s.pending := by
  refine ⟨?_, ?_, ?_⟩ <;> (unfold State.forwardReq; simp)
@[simp] theorem State.gatherVars_keeps (s : State) (r : Request) (home : Nat) (bs : List Byte) :
    (s.gatherVars r home bs).mem = s.mem ∧ (s.gatherVars r home bs).clk = s.clk ∧ (s.gatherVars r home bs).pending = s.pending := by
  refine ⟨?_, ?_, ?_⟩ <;> (unfold State.gatherVars; simp)
@[simp] theorem State.sessionClosed_keeps (s : State) (x : Session) (reason : Nat) :
    (s.sessionClosed x reason).mem = s.mem ∧ (s.sessionClosed x reason).clk = s.clk ∧ (s.sessionClosed x reason).pending = s.pending := by
  refine ⟨?_, ?_, ?_⟩ <;> (unfold State.sessionClosed; dsimp only; repeat' (first | (split <;> try simp) | simp))
@[simp] theorem State.endSession_keeps (s : State) (x : Session) :
    (s.endSession x).mem = s.mem ∧ (s.endSession x).clk = s.clk ∧ (s.endSession x).pending = s.pending := by
  refine ⟨?_, ?_, ?_⟩ <;> (unfold State.endSession; simp)
@[simp] theorem State.authFail_keeps (s : State) (ix part : Nat) :
    (s.authFail ix part).mem = s.mem ∧ (s.authFail ix part).clk = s.clk ∧ (s.authFail ix part).pending = s.pending := by
  refine ⟨?_, ?_, ?_⟩ <;> (unfold State.authFail; simp)
@[simp] theorem State.irqEval_keeps (s : State) :
    (s.irqEval).mem = s.mem ∧ (s.irqEval).clk = s.clk ∧ (s.irqEval).pending = s.pending := by
  refine ⟨?_, ?_, ?_⟩ <;> (unfold State.irqEval; simp)
@[simp] theorem State.mboxSet_keeps (s : State) :
    (s.mboxSet).mem = s.mem ∧ (s.mboxSet).clk = s.clk ∧ (s.mboxSet).pending = s.pending := by
  refine ⟨?_, ?_, ?_⟩ <;> (unfold State.mboxSet; simp)
@[simp] theorem State.hostErr_keeps (s : State) (i : Nat) :
    (s.hostErr i).mem = s.mem ∧ (s.hostErr i).clk = s.clk ∧ (s.hostErr i).pending = s.pending := by
  refine ⟨?_, ?_, ?_⟩ <;> (unfold State.hostErr; simp)
@[simp] theorem State.setState_keeps (s : State) (st : MState) :
    (s.setState st).mem = s.mem ∧ (s.setState st).clk = s.clk ∧ (s.setState st).pending = s.pending := by
  refine ⟨?_, ?_, ?_⟩ <;> (unfold State.setState; simp)
@[simp] theorem State.tellSafe_keeps (s : State) (p : Nat) (e : W64) (code : Nat) :
    (s.tellSafe p e code).mem = s.mem ∧ (s.tellSafe p e code).clk = s.clk ∧ (s.tellSafe p e code).pending = s.pending := by
  refine ⟨?_, ?_, ?_⟩ <;> (unfold State.tellSafe; simp)
@[simp] theorem State.safeTrigger_keeps (s : State) (p code : Nat) :
    (s.safeTrigger p code).mem = s.mem ∧ (s.safeTrigger p code).clk = s.clk ∧ (s.safeTrigger p code).pending = s.pending := by
  refine ⟨?_, ?_, ?_⟩ <;> (unfold State.safeTrigger; dsimp only; repeat' (first | (split <;> try simp) | simp))
@[simp] theorem State.allSafe_keeps (s : State) (code : Nat) :
    (s.allSafe code).mem = s.mem ∧ (s.allSafe code).clk = s.clk ∧ (s.allSafe code).pending = s.pending := by
  refine ⟨?_, ?_, ?_⟩ <;> (unfold State.allSafe; (try dsimp only); repeat' (first | (refine (State.foldl_mem (fun u a => ?_) _ _).trans ?_; (try dsimp only)) | (refine (State.foldl_clk (fun u a => ?_) _ _).trans ?_; (try dsimp only)) | (refine (State.foldl_pending (fun u a => ?_) _ _).trans ?_; (try dsimp only)) | rfl | (split; all_goals (try simp)) | (simp; done)))
@[simp] theorem State.toUnsynced_keeps (s : State) :
    (s.toUnsynced).mem = s.mem ∧ (s.toUnsynced).clk = s.clk ∧ (s.toUnsynced).pending = s.pending := by
  refine ⟨?_, ?_, ?_⟩ <;> (unfold State.toUnsynced; simp)
@[simp] theorem State.syncRestart_keeps (s : State) :
    (s.syncRestart).mem = s.mem ∧ (s.syncRestart).clk = s.clk ∧ (s.syncRestart).pending = s.pending := by
  refine ⟨?_, ?_, ?_⟩ <;> (unfold State.syncRestart; simp)
@[simp] theorem State.giveWay_keeps (s : State) :
    (s.giveWay).mem = s.mem ∧ (s.giveWay).clk = s.clk ∧ (s.giveWay).pending = s.pending := by
  refine ⟨?_, ?_, ?_⟩ <;> (unfold State.giveWay; repeat' (first | (split <;> try simp) | simp))
@[simp] theorem State.imageError_keeps (s : State) :
    (s.imageError).mem = s.mem ∧ (s.imageError).clk = s.clk ∧ (s.imageError).pending = s.pending := by
  refine ⟨?_, ?_, ?_⟩ <;> (unfold State.imageError; simp)
@[simp] theorem State.dramError_keeps (s : State) :
    (s.dramError).mem = s.mem ∧ (s.dramError).clk = s.clk ∧ (s.dramError).pending = s.pending := by
  refine ⟨?_, ?_, ?_⟩ <;> (unfold State.dramError; simp)
@[simp] theorem State.nextTerm_keeps (s : State) :
    (s.nextTerm).mem = s.mem ∧ (s.nextTerm).clk = s.clk ∧ (s.nextTerm).pending = s.pending := by
  refine ⟨?_, ?_, ?_⟩ <;> (unfold State.nextTerm; simp)
@[simp] theorem State.endHand_keeps (s : State) :
    (s.endHand).mem = s.mem ∧ (s.endHand).clk = s.clk ∧ (s.endHand).pending = s.pending := by
  refine ⟨?_, ?_, ?_⟩ <;> (unfold State.endHand; simp)
@[simp] theorem State.goSolo_keeps (s : State) :
    (s.goSolo).mem = s.mem ∧ (s.goSolo).clk = s.clk ∧ (s.goSolo).pending = s.pending := by
  refine ⟨?_, ?_, ?_⟩ <;> (unfold State.goSolo; simp)
@[simp] theorem State.startDelay_keeps (s : State) :
    (s.startDelay).mem = s.mem ∧ (s.startDelay).clk = s.clk ∧ (s.startDelay).pending = s.pending := by
  refine ⟨?_, ?_, ?_⟩ <;> (unfold State.startDelay; simp)
@[simp] theorem State.powerDown_keeps (s : State) (cause : Byte) :
    (s.powerDown cause).mem = s.mem ∧ (s.powerDown cause).clk = s.clk ∧ (s.powerDown cause).pending = s.pending := by
  refine ⟨?_, ?_, ?_⟩ <;> (unfold State.powerDown; simp)
@[simp] theorem State.stopInOrder_keeps (s : State) (cause : Byte) (withdrawn : Bool) :
    (s.stopInOrder cause withdrawn).mem = s.mem ∧ (s.stopInOrder cause withdrawn).clk = s.clk ∧ (s.stopInOrder cause withdrawn).pending = s.pending := by
  refine ⟨?_, ?_, ?_⟩ <;> (unfold State.stopInOrder; dsimp only; repeat' (first | (split <;> try simp) | simp))
@[simp] theorem State.countOverrun_keeps (s : State) (task : W32) (k : Nat) (bnd : W64) (code : Nat) :
    (s.countOverrun task k bnd code).mem = s.mem ∧ (s.countOverrun task k bnd code).clk = s.clk ∧ (s.countOverrun task k bnd code).pending = s.pending := by
  unfold State.countOverrun
  dsimp only
  split
  · exact ⟨rfl, rfl, rfl⟩
  · split
    · refine ⟨(State.safeTrigger_keeps ..).1.trans ?_, (State.safeTrigger_keeps ..).2.1.trans ?_, (State.safeTrigger_keeps ..).2.2.trans ?_⟩ <;> rfl
    · exact ⟨rfl, rfl, rfl⟩
@[simp] theorem State.clearOverrun_keeps (s : State) (task : W32) :
    (s.clearOverrun task).mem = s.mem ∧ (s.clearOverrun task).clk = s.clk ∧ (s.clearOverrun task).pending = s.pending := by
  refine ⟨?_, ?_, ?_⟩ <;> (unfold State.clearOverrun; simp)
@[simp] theorem State.recordOverrun_keeps (s : State) (task : W32) (k lane : Nat) (t : W32) (late : W32) :
    (s.recordOverrun task k lane t late).mem = s.mem ∧ (s.recordOverrun task k lane t late).clk = s.clk ∧ (s.recordOverrun task k lane t late).pending = s.pending := by
  refine ⟨?_, ?_, ?_⟩ <;> (unfold State.recordOverrun; simp)
@[simp] theorem State.mismatchPolicy_keeps (s : State) (task : W32) :
    (s.mismatchPolicy task).mem = s.mem ∧ (s.mismatchPolicy task).clk = s.clk ∧ (s.mismatchPolicy task).pending = s.pending := by
  refine ⟨?_, ?_, ?_⟩ <;> (unfold State.mismatchPolicy; repeat' (first | (split <;> try simp) | simp))
@[simp] theorem State.faultPolicy_keeps (s : State) (task : W32) (k : Nat) (bnd : W64) (code : Nat) :
    (s.faultPolicy task k bnd code).mem = s.mem ∧ (s.faultPolicy task k bnd code).clk = s.clk ∧ (s.faultPolicy task k bnd code).pending = s.pending := by
  refine ⟨?_, ?_, ?_⟩ <;> (unfold State.faultPolicy; repeat' (first | (split <;> try simp) | simp))
@[simp] theorem State.disagreementSafe_keeps (s : State) (c : Cycle) (t : W32) (after : Bool) :
    (s.disagreementSafe c t after).mem = s.mem ∧ (s.disagreementSafe c t after).clk = s.clk ∧ (s.disagreementSafe c t after).pending = s.pending := by
  refine ⟨?_, ?_, ?_⟩ <;> (unfold State.disagreementSafe; simp)
@[simp] theorem State.startArbitration_keeps (s : State) (c : Cycle) (t : W32) :
    (s.startArbitration c t).mem = s.mem ∧ (s.startArbitration c t).clk = s.clk ∧ (s.startArbitration c t).pending = s.pending := by
  refine ⟨?_, ?_, ?_⟩ <;> (unfold State.startArbitration; simp)
@[simp] theorem State.resolveTask_keeps (s : State) (p k : Nat) (bnd : W64) (t : W32) :
    (s.resolveTask p k bnd t).mem = s.mem ∧ (s.resolveTask p k bnd t).clk = s.clk ∧ (s.resolveTask p k bnd t).pending = s.pending := by
  refine ⟨?_, ?_, ?_⟩ <;> (unfold State.resolveTask; dsimp only; repeat' (first | (split <;> try simp) | simp))
@[simp] theorem State.sendSig_keeps (s : State) (bs : List Byte) :
    (s.sendSig bs).mem = s.mem ∧ (s.sendSig bs).clk = s.clk ∧ (s.sendSig bs).pending = s.pending := by
  refine ⟨?_, ?_, ?_⟩ <;> (unfold State.sendSig; simp)
@[simp] theorem State.sigReady_keeps (s : State) (task : W32) (k : Nat) (bnd : W64) (status code : Nat) (sig : W64) :
    (s.sigReady task k bnd status code sig).mem = s.mem ∧ (s.sigReady task k bnd status code sig).clk = s.clk ∧ (s.sigReady task k bnd status code sig).pending = s.pending := by
  refine ⟨?_, ?_, ?_⟩ <;> (unfold State.sigReady; simp)
@[simp] theorem State.clearEcc_keeps (s : State) (a : Nat) :
    (s.clearEcc a).mem = s.mem ∧ (s.clearEcc a).clk = s.clk ∧ (s.clearEcc a).pending = s.pending := by
  refine ⟨?_, ?_, ?_⟩ <;> (unfold State.clearEcc; simp)
@[simp] theorem State.countCe_keeps (s : State) :
    (s.countCe).mem = s.mem ∧ (s.countCe).clk = s.clk ∧ (s.countCe).pending = s.pending := by
  refine ⟨?_, ?_, ?_⟩ <;> (unfold State.countCe; simp)
@[simp] theorem State.relevel_keeps (s : State) (l : Nat) :
    (s.relevel l).mem = s.mem ∧ (s.relevel l).clk = s.clk ∧ (s.relevel l).pending = s.pending := by
  refine ⟨?_, ?_, ?_⟩ <;> (unfold State.relevel; simp)
@[simp] theorem State.requestWake_keeps (s : State) (l : Nat) (w : Wake) :
    (s.requestWake l w).mem = s.mem ∧ (s.requestWake l w).clk = s.clk ∧ (s.requestWake l w).pending = s.pending := by
  refine ⟨?_, ?_, ?_⟩ <;> (unfold State.requestWake; simp)
@[simp] theorem State.wakeIfDue_keeps (s : State) (l : Nat) :
    (s.wakeIfDue l).mem = s.mem ∧ (s.wakeIfDue l).clk = s.clk ∧ (s.wakeIfDue l).pending = s.pending := by
  refine ⟨?_, ?_, ?_⟩ <;> (unfold State.wakeIfDue; repeat' (first | (split <;> try simp) | simp))
@[simp] theorem State.raiseEvent_keeps (s : State) (l i : Nat) :
    (s.raiseEvent l i).mem = s.mem ∧ (s.raiseEvent l i).clk = s.clk ∧ (s.raiseEvent l i).pending = s.pending := by
  refine ⟨?_, ?_, ?_⟩ <;> (unfold State.raiseEvent; simp)
@[simp] theorem State.countLane_keeps (s : State) (l : Nat) (code : Nat) :
    (s.countLane l code).mem = s.mem ∧ (s.countLane l code).clk = s.clk ∧ (s.countLane l code).pending = s.pending := by
  refine ⟨?_, ?_, ?_⟩ <;> (unfold State.countLane; simp)
@[simp] theorem State.dispatch_keeps (s : State) (l : Nat) (codedNext : Bool) :
    (s.dispatch l codedNext).mem = s.mem ∧ (s.dispatch l codedNext).clk = s.clk ∧ (s.dispatch l codedNext).pending = s.pending := by
  refine ⟨?_, ?_, ?_⟩ <;> (unfold State.dispatch; simp)
@[simp] theorem State.handOver_keeps (s : State) (l : Nat) (coded : Bool) (trap : Option Byte) :
    (s.handOver l coded trap).mem = s.mem ∧ (s.handOver l coded trap).clk = s.clk ∧ (s.handOver l coded trap).pending = s.pending := by
  refine ⟨?_, ?_, ?_⟩ <;> (unfold State.handOver; simp)
@[simp] theorem State.endPass_keeps (s : State) (l : Nat) :
    (s.endPass l).mem = s.mem ∧ (s.endPass l).clk = s.clk ∧ (s.endPass l).pending = s.pending := by
  refine ⟨?_, ?_, ?_⟩ <;> (unfold State.endPass; simp)
@[simp] theorem State.dropWake_keeps (s : State) (l : Nat) :
    (s.dropWake l).mem = s.mem ∧ (s.dropWake l).clk = s.clk ∧ (s.dropWake l).pending = s.pending := by
  refine ⟨?_, ?_, ?_⟩ <;> (unfold State.dropWake; simp)
@[simp] theorem State.retireLane_keeps (s : State) (l reason : Nat) :
    (s.retireLane l reason).mem = s.mem ∧ (s.retireLane l reason).clk = s.clk ∧ (s.retireLane l reason).pending = s.pending := by
  refine ⟨?_, ?_, ?_⟩ <;> (unfold State.retireLane; simp)
@[simp] theorem State.dropLaneCycles_keeps (s : State) (l : Nat) :
    (s.dropLaneCycles l).mem = s.mem ∧ (s.dropLaneCycles l).clk = s.clk ∧ (s.dropLaneCycles l).pending = s.pending := by
  refine ⟨?_, ?_, ?_⟩ <;> (unfold State.dropLaneCycles; dsimp only; repeat' (first | (refine State.foldl_mem (fun u a => ?_) _ _) | (refine State.foldl_clk (fun u a => ?_) _ _) | (refine State.foldl_pending (fun u a => ?_) _ _) | (split <;> try simp) | simp))
@[simp] theorem State.firmwareFault_keeps (s : State) (l : Nat) :
    (s.firmwareFault l).mem = s.mem ∧ (s.firmwareFault l).clk = s.clk ∧ (s.firmwareFault l).pending = s.pending := by
  refine ⟨?_, ?_, ?_⟩ <;> (unfold State.firmwareFault; simp)
@[simp] theorem State.abandon_keeps (s : State) (l : Nat) (code : Nat) :
    (s.abandon l code).mem = s.mem ∧ (s.abandon l code).clk = s.clk ∧ (s.abandon l code).pending = s.pending := by
  refine ⟨?_, ?_, ?_⟩ <;> (unfold State.abandon; simp)
@[simp] theorem State.laneFault_keeps (s : State) (l : Nat) (cause : Byte) (addr : W32) (sys : Nat) :
    (s.laneFault l cause addr sys).mem = s.mem ∧ (s.laneFault l cause addr sys).clk = s.clk ∧ (s.laneFault l cause addr sys).pending = s.pending := by
  refine ⟨?_, ?_, ?_⟩ <;> (unfold State.laneFault; simp)
@[simp] theorem State.laneFaultOpen_keeps (s : State) (l : Nat) (cause : Byte) :
    (s.laneFaultOpen l cause).mem = s.mem ∧ (s.laneFaultOpen l cause).clk = s.clk ∧ (s.laneFaultOpen l cause).pending = s.pending := by
  refine ⟨?_, ?_, ?_⟩ <;> (unfold State.laneFaultOpen; simp)

theorem State.residue_mem {body : State → State} (h : ∀ u, (body u).mem = u.mem) (s : State) (l : Nat) : (s.residue l body).mem = s.mem := by
  unfold State.residue; simp [h]
theorem State.residue_clk {body : State → State} (h : ∀ u, (body u).clk = u.clk) (s : State) (l : Nat) : (s.residue l body).clk = s.clk := by
  unfold State.residue; simp [h]
theorem State.residue_pending {body : State → State} (h : ∀ u, (body u).pending = u.pending) (s : State) (l : Nat) : (s.residue l body).pending = s.pending := by
  unfold State.residue; simp [h]
@[simp] theorem State.residue_keeps (s : State) (l : Nat) (body : State → State) (h : ∀ u, (body u).mem = u.mem ∧ (body u).clk = u.clk ∧ (body u).pending = u.pending) :
    (s.residue l body).mem = s.mem ∧ (s.residue l body).clk = s.clk ∧ (s.residue l body).pending = s.pending :=
  ⟨State.residue_mem (fun u => (h u).1) s l, State.residue_clk (fun u => (h u).2.1) s l, State.residue_pending (fun u => (h u).2.2) s l⟩
theorem State.runWord_mem {body : State → State} (h : ∀ u, (body u).mem = u.mem) (s : State) (l : Nat) : (s.runWord l body).mem = s.mem := by
  unfold State.runWord; simp [h]
theorem State.runWord_clk {body : State → State} (h : ∀ u, (body u).clk = u.clk) (s : State) (l : Nat) : (s.runWord l body).clk = s.clk := by
  unfold State.runWord; simp [h]
theorem State.runWord_pending {body : State → State} (h : ∀ u, (body u).pending = u.pending) (s : State) (l : Nat) : (s.runWord l body).pending = s.pending := by
  unfold State.runWord; simp [h]
@[simp] theorem State.runWord_keeps (s : State) (l : Nat) (body : State → State) (h : ∀ u, (body u).mem = u.mem ∧ (body u).clk = u.clk ∧ (body u).pending = u.pending) :
    (s.runWord l body).mem = s.mem ∧ (s.runWord l body).clk = s.clk ∧ (s.runWord l body).pending = s.pending :=
  ⟨State.runWord_mem (fun u => (h u).1) s l, State.runWord_clk (fun u => (h u).2.1) s l, State.runWord_pending (fun u => (h u).2.2) s l⟩
theorem State.issue_mem {body : State → State} (h : ∀ u, (body u).mem = u.mem) (s : State) (l : Nat) : (s.issue l body).mem = s.mem := by
  unfold State.issue; dsimp only; repeat' split
  all_goals simp [State.runWord_mem h]
theorem State.issue_clk {body : State → State} (h : ∀ u, (body u).clk = u.clk) (s : State) (l : Nat) : (s.issue l body).clk = s.clk := by
  unfold State.issue; dsimp only; repeat' split
  all_goals simp [State.runWord_clk h]
theorem State.issue_pending {body : State → State} (h : ∀ u, (body u).pending = u.pending) (s : State) (l : Nat) : (s.issue l body).pending = s.pending := by
  unfold State.issue; dsimp only; repeat' split
  all_goals simp [State.runWord_pending h]
@[simp] theorem State.issue_keeps (s : State) (l : Nat) (body : State → State) (h : ∀ u, (body u).mem = u.mem ∧ (body u).clk = u.clk ∧ (body u).pending = u.pending) :
    (s.issue l body).mem = s.mem ∧ (s.issue l body).clk = s.clk ∧ (s.issue l body).pending = s.pending :=
  ⟨State.issue_mem (fun u => (h u).1) s l, State.issue_clk (fun u => (h u).2.1) s l, State.issue_pending (fun u => (h u).2.2) s l⟩
theorem State.native_mem {body : State → State} (h : ∀ u, (body u).mem = u.mem) (s : State) (l : Nat) : (s.native l body).mem = s.mem := by
  unfold State.native; simp [State.issue_mem h]
theorem State.native_clk {body : State → State} (h : ∀ u, (body u).clk = u.clk) (s : State) (l : Nat) : (s.native l body).clk = s.clk := by
  unfold State.native; simp [State.issue_clk h]
theorem State.native_pending {body : State → State} (h : ∀ u, (body u).pending = u.pending) (s : State) (l : Nat) : (s.native l body).pending = s.pending := by
  unfold State.native; simp [State.issue_pending h]
@[simp] theorem State.native_keeps (s : State) (l : Nat) (body : State → State) (h : ∀ u, (body u).mem = u.mem ∧ (body u).clk = u.clk ∧ (body u).pending = u.pending) :
    (s.native l body).mem = s.mem ∧ (s.native l body).clk = s.clk ∧ (s.native l body).pending = s.pending :=
  ⟨State.native_mem (fun u => (h u).1) s l, State.native_clk (fun u => (h u).2.1) s l, State.native_pending (fun u => (h u).2.2) s l⟩
theorem State.noFields_mem {body : State → State} (h : ∀ u, (body u).mem = u.mem) (s : State) (l : Nat) (rd ra rb : BitVec 5) : (s.noFields l rd ra rb body).mem = s.mem := by
  unfold State.noFields; simp [h]
theorem State.noFields_clk {body : State → State} (h : ∀ u, (body u).clk = u.clk) (s : State) (l : Nat) (rd ra rb : BitVec 5) : (s.noFields l rd ra rb body).clk = s.clk := by
  unfold State.noFields; simp [h]
theorem State.noFields_pending {body : State → State} (h : ∀ u, (body u).pending = u.pending) (s : State) (l : Nat) (rd ra rb : BitVec 5) : (s.noFields l rd ra rb body).pending = s.pending := by
  unfold State.noFields; simp [h]
@[simp] theorem State.noFields_keeps (s : State) (l : Nat) (rd ra rb : BitVec 5) (body : State → State) (h : ∀ u, (body u).mem = u.mem ∧ (body u).clk = u.clk ∧ (body u).pending = u.pending) :
    (s.noFields l rd ra rb body).mem = s.mem ∧ (s.noFields l rd ra rb body).clk = s.clk ∧ (s.noFields l rd ra rb body).pending = s.pending :=
  ⟨State.noFields_mem (fun u => (h u).1) s l rd ra rb, State.noFields_clk (fun u => (h u).2.1) s l rd ra rb, State.noFields_pending (fun u => (h u).2.2) s l rd ra rb⟩
theorem State.bitIssue_mem {body : State → State} (h : ∀ u, (body u).mem = u.mem) (s : State) (l : Nat) : (s.bitIssue l body).mem = s.mem := by
  unfold State.bitIssue; simp [State.issue_mem h]
theorem State.bitIssue_clk {body : State → State} (h : ∀ u, (body u).clk = u.clk) (s : State) (l : Nat) : (s.bitIssue l body).clk = s.clk := by
  unfold State.bitIssue; simp [State.issue_clk h]
theorem State.bitIssue_pending {body : State → State} (h : ∀ u, (body u).pending = u.pending) (s : State) (l : Nat) : (s.bitIssue l body).pending = s.pending := by
  unfold State.bitIssue; simp [State.issue_pending h]
@[simp] theorem State.bitIssue_keeps (s : State) (l : Nat) (body : State → State) (h : ∀ u, (body u).mem = u.mem ∧ (body u).clk = u.clk ∧ (body u).pending = u.pending) :
    (s.bitIssue l body).mem = s.mem ∧ (s.bitIssue l body).clk = s.clk ∧ (s.bitIssue l body).pending = s.pending :=
  ⟨State.bitIssue_mem (fun u => (h u).1) s l, State.bitIssue_clk (fun u => (h u).2.1) s l, State.bitIssue_pending (fun u => (h u).2.2) s l⟩
theorem State.bitPlain_mem {body : State → State} (h : ∀ u, (body u).mem = u.mem) (s : State) (l : Nat) (f : BitVec 26) : (s.bitPlain l f body).mem = s.mem := by
  unfold State.bitPlain; exact State.bitIssue_mem (fun u => by simp [h]) s l
theorem State.bitPlain_clk {body : State → State} (h : ∀ u, (body u).clk = u.clk) (s : State) (l : Nat) (f : BitVec 26) : (s.bitPlain l f body).clk = s.clk := by
  unfold State.bitPlain; exact State.bitIssue_clk (fun u => by simp [h]) s l
theorem State.bitPlain_pending {body : State → State} (h : ∀ u, (body u).pending = u.pending) (s : State) (l : Nat) (f : BitVec 26) : (s.bitPlain l f body).pending = s.pending := by
  unfold State.bitPlain; exact State.bitIssue_pending (fun u => by simp [h]) s l
@[simp] theorem State.bitPlain_keeps (s : State) (l : Nat) (f : BitVec 26) (body : State → State) (h : ∀ u, (body u).mem = u.mem ∧ (body u).clk = u.clk ∧ (body u).pending = u.pending) :
    (s.bitPlain l f body).mem = s.mem ∧ (s.bitPlain l f body).clk = s.clk ∧ (s.bitPlain l f body).pending = s.pending :=
  ⟨State.bitPlain_mem (fun u => (h u).1) s l f, State.bitPlain_clk (fun u => (h u).2.1) s l f, State.bitPlain_pending (fun u => (h u).2.2) s l f⟩
@[simp] theorem State.retire_keeps (s : State) (l : Nat) (f : Lane → Lane) :
    (s.retire l f).mem = s.mem ∧ (s.retire l f).clk = s.clk ∧ (s.retire l f).pending = s.pending := by
  refine ⟨?_, ?_, ?_⟩ <;> (unfold State.retire; simp)
@[simp] theorem State.retireReg_keeps (s : State) (l : Nat) (rd : BitVec 5) (v : W64) :
    (s.retireReg l rd v).mem = s.mem ∧ (s.retireReg l rd v).clk = s.clk ∧ (s.retireReg l rd v).pending = s.pending := by
  refine ⟨?_, ?_, ?_⟩ <;> (unfold State.retireReg; simp)
@[simp] theorem State.retireJump_keeps (s : State) (l : Nat) (f : Lane → Lane) (target : W64) :
    (s.retireJump l f target).mem = s.mem ∧ (s.retireJump l f target).clk = s.clk ∧ (s.retireJump l f target).pending = s.pending := by
  refine ⟨?_, ?_, ?_⟩ <;> (unfold State.retireJump; simp)
@[simp] theorem State.dmCorrected_keeps (s : State) (l : Nat) :
    (s.dmCorrected l).mem = s.mem ∧ (s.dmCorrected l).clk = s.clk ∧ (s.dmCorrected l).pending = s.pending := by
  refine ⟨?_, ?_, ?_⟩ <;> (unfold State.dmCorrected; simp)
@[simp] theorem State.laneCtlWrite_keeps (s : State) (l : Nat) (off : Nat) (v : W32) :
    (s.laneCtlWrite l off v).mem = s.mem ∧ (s.laneCtlWrite l off v).clk = s.clk ∧ (s.laneCtlWrite l off v).pending = s.pending := by
  refine ⟨?_, ?_, ?_⟩ <;> (unfold State.laneCtlWrite; simp)
@[simp] theorem State.store_keeps (s : State) (l : Nat) (rs ra : BitVec 5) (imm : W16) (n : Nat) :
    (s.store l rs ra imm n).clk = s.clk ∧ (s.store l rs ra imm n).pending = s.pending := by
  refine ⟨?_, ?_⟩ <;> (unfold State.store; dsimp only; repeat' (first | (split <;> try simp) | simp))
@[simp] theorem State.guardMiss_keeps (s : State) (l lii sys : Nat) :
    (s.guardMiss l lii sys).mem = s.mem ∧ (s.guardMiss l lii sys).clk = s.clk ∧ (s.guardMiss l lii sys).pending = s.pending := by
  refine ⟨?_, ?_, ?_⟩ <;> (unfold State.guardMiss; simp)
@[simp] theorem State.alu2_keeps (s : State) (l : Nat) (rd ra rb : BitVec 5) (f : W64 → W64 → W64) :
    (s.alu2 l rd ra rb f).mem = s.mem ∧ (s.alu2 l rd ra rb f).clk = s.clk ∧ (s.alu2 l rd ra rb f).pending = s.pending := by
  refine ⟨?_, ?_, ?_⟩ <;> (unfold State.alu2; simp)
@[simp] theorem State.aluK_keeps (s : State) (l : Nat) (rd ra : BitVec 5) (imm : W16) (f : W64 → W16 → W64) :
    (s.aluK l rd ra imm f).mem = s.mem ∧ (s.aluK l rd ra imm f).clk = s.clk ∧ (s.aluK l rd ra imm f).pending = s.pending := by
  refine ⟨?_, ?_, ?_⟩ <;> (unfold State.aluK; simp)
@[simp] theorem State.shiftK_keeps (s : State) (l : Nat) (rd ra : BitVec 5) (imm : W16) (f : W64 → Nat → W64) :
    (s.shiftK l rd ra imm f).mem = s.mem ∧ (s.shiftK l rd ra imm f).clk = s.clk ∧ (s.shiftK l rd ra imm f).pending = s.pending := by
  refine ⟨?_, ?_, ?_⟩ <;> (unfold State.shiftK; simp)
@[simp] theorem State.muldiv_keeps (s : State) (l : Nat) (rd ra rb : BitVec 5) (div : Bool) (f : W64 → W64 → W64) :
    (s.muldiv l rd ra rb div f).mem = s.mem ∧ (s.muldiv l rd ra rb div f).clk = s.clk ∧ (s.muldiv l rd ra rb div f).pending = s.pending := by
  refine ⟨?_, ?_, ?_⟩ <;> (unfold State.muldiv; simp)
@[simp] theorem State.coded_keeps (s : State) (l : Nat) (rd : BitVec 5) (f : Lane → Coded) :
    (s.coded l rd f).mem = s.mem ∧ (s.coded l rd f).clk = s.clk ∧ (s.coded l rd f).pending = s.pending := by
  refine ⟨?_, ?_, ?_⟩ <;> (unfold State.coded; repeat' (first | (split <;> try simp) | simp))
@[simp] theorem State.retireFp_keeps (s : State) (l : Nat) (rd : BitVec 5) (v : W64) (f : Fp.Flags) :
    (s.retireFp l rd v f).mem = s.mem ∧ (s.retireFp l rd v f).clk = s.clk ∧ (s.retireFp l rd v f).pending = s.pending := by
  refine ⟨?_, ?_, ?_⟩ <;> (unfold State.retireFp; simp)
@[simp] theorem State.fp2_keeps (s : State) (l : Nat) (rd ra rb : BitVec 5) (f : Fp.Env → Nat → Nat → Nat × Fp.Flags) :
    (s.fp2 l rd ra rb f).mem = s.mem ∧ (s.fp2 l rd ra rb f).clk = s.clk ∧ (s.fp2 l rd ra rb f).pending = s.pending := by
  refine ⟨?_, ?_, ?_⟩ <;> (unfold State.fp2; simp)
@[simp] theorem State.fpCmp_keeps (s : State) (l : Nat) (rd ra rb : BitVec 5) (f : Fp.Fmt) (ok : Ordering → Bool) (mask : Nat) :
    (s.fpCmp l rd ra rb f ok mask).mem = s.mem ∧ (s.fpCmp l rd ra rb f ok mask).clk = s.clk ∧ (s.fpCmp l rd ra rb f ok mask).pending = s.pending := by
  refine ⟨?_, ?_, ?_⟩ <;> (unfold State.fpCmp; simp)
@[simp] theorem State.fp1_keeps (s : State) (l : Nat) (rd ra rb : BitVec 5) (f : Fp.Env → W64 → W64 × Fp.Flags) :
    (s.fp1 l rd ra rb f).mem = s.mem ∧ (s.fp1 l rd ra rb f).clk = s.clk ∧ (s.fp1 l rd ra rb f).pending = s.pending := by
  refine ⟨?_, ?_, ?_⟩ <;> (unfold State.fp1; simp)
@[simp] theorem State.branch_keeps (s : State) (l : Nat) (ra rb : BitVec 5) (off : W16) (c : W64 → W64 → Bool) :
    (s.branch l ra rb off c).mem = s.mem ∧ (s.branch l ra rb off c).clk = s.clk ∧ (s.branch l ra rb off c).pending = s.pending := by
  refine ⟨?_, ?_, ?_⟩ <;> (unfold State.branch; simp)
@[simp] theorem State.jump_keeps (s : State) (l : Nat) (rd : BitVec 5) (target : W64) :
    (s.jump l rd target).mem = s.mem ∧ (s.jump l rd target).clk = s.clk ∧ (s.jump l rd target).pending = s.pending := by
  refine ⟨?_, ?_, ?_⟩ <;> (unfold State.jump; simp)
@[simp] theorem State.waitev_keeps (s : State) (l : Nat) :
    (s.waitev l).mem = s.mem ∧ (s.waitev l).clk = s.clk ∧ (s.waitev l).pending = s.pending := by
  refine ⟨?_, ?_, ?_⟩ <;> (unfold State.waitev; simp)
@[simp] theorem State.retev_keeps (s : State) (l : Nat) :
    (s.retev l).mem = s.mem ∧ (s.retev l).clk = s.clk ∧ (s.retev l).pending = s.pending := by
  refine ⟨?_, ?_, ?_⟩ <;> (unfold State.retev; simp)
@[simp] theorem State.startPass_keeps (s : State) (l : Nat) (entry : W64) :
    (s.startPass l entry).mem = s.mem ∧ (s.startPass l entry).clk = s.clk ∧ (s.startPass l entry).pending = s.pending := by
  refine ⟨?_, ?_, ?_⟩ <;> (unfold State.startPass; simp)
@[simp] theorem State.yield__keeps (s : State) (l : Nat) (ra : BitVec 5) :
    (s.yield_ l ra).mem = s.mem ∧ (s.yield_ l ra).clk = s.clk ∧ (s.yield_ l ra).pending = s.pending := by
  refine ⟨?_, ?_, ?_⟩ <;> (unfold State.yield_; simp)
@[simp] theorem State.bitMiss_keeps (s : State) (l lii : Nat) :
    (s.bitMiss l lii).mem = s.mem ∧ (s.bitMiss l lii).clk = s.clk ∧ (s.bitMiss l lii).pending = s.pending := by
  refine ⟨?_, ?_, ?_⟩ <;> (unfold State.bitMiss; simp)
@[simp] theorem State.bitAcc_keeps (s : State) (l : Nat) (f : BitVec 26) (op : (coded acc : Bool) → Bool) :
    (s.bitAcc l f op).mem = s.mem ∧ (s.bitAcc l f op).clk = s.clk ∧ (s.bitAcc l f op).pending = s.pending := by
  refine ⟨?_, ?_, ?_⟩ <;> (unfold State.bitAcc; simp)
@[simp] theorem State.bitJump_keeps (s : State) (l : Nat) (f : BitVec 26) (taken : (coded acc : Bool) → Bool) :
    (s.bitJump l f taken).mem = s.mem ∧ (s.bitJump l f taken).clk = s.clk ∧ (s.bitJump l f taken).pending = s.pending := by
  refine ⟨?_, ?_, ?_⟩ <;> (unfold State.bitJump; simp)
@[simp] theorem State.timerAbandon_keeps (s : State) (l i : Nat) :
    (s.timerAbandon l i).mem = s.mem ∧ (s.timerAbandon l i).clk = s.clk ∧ (s.timerAbandon l i).pending = s.pending := by
  refine ⟨?_, ?_, ?_⟩ <;> (unfold State.timerAbandon; simp)
@[simp] theorem State.raiseOwed_keeps (s : State) (l : Nat) :
    (s.raiseOwed l).mem = s.mem ∧ (s.raiseOwed l).clk = s.clk ∧ (s.raiseOwed l).pending = s.pending := by
  refine ⟨?_, ?_, ?_⟩ <;> (unfold State.raiseOwed; simp)
@[simp] theorem State.scrubLane_keeps (s : State) (l : Nat) (im : Bool) (a : Nat) :
    (s.scrubLane l im a).mem = s.mem ∧ (s.scrubLane l im a).clk = s.clk ∧ (s.scrubLane l im a).pending = s.pending := by
  refine ⟨?_, ?_, ?_⟩ <;> (unfold State.scrubLane; dsimp only; repeat' (first | (split <;> try simp) | simp))
@[simp] theorem State.hwVerdict_keeps (s : State) (l : Nat) :
    (s.hwVerdict l).mem = s.mem ∧ (s.hwVerdict l).clk = s.clk ∧ (s.hwVerdict l).pending = s.pending := by
  refine ⟨?_, ?_, ?_⟩ <;> (unfold State.hwVerdict; simp)
@[simp] theorem State.mismatch_keeps (s : State) (u : Nat) (h : HandOver) (code : Nat) (w : Option (Nat × BWord × BWord)) :
    (s.mismatch u h code w).mem = s.mem ∧ (s.mismatch u h code w).clk = s.clk ∧ (s.mismatch u h code w).pending = s.pending := by
  refine ⟨?_, ?_, ?_⟩ <;> (unfold State.mismatch; simp)
@[simp] theorem State.startRetest_keeps (s : State) (c : Nat) :
    (s.startRetest c).mem = s.mem ∧ (s.startRetest c).clk = s.clk ∧ (s.startRetest c).pending = s.pending := by
  refine ⟨?_, ?_, ?_⟩ <;> (unfold State.startRetest; simp)
@[simp] theorem State.judge_keeps (s : State) (c : Nat) (h : HandOver) :
    (s.judge c h).mem = s.mem ∧ (s.judge c h).clk = s.clk ∧ (s.judge c h).pending = s.pending := by
  refine ⟨?_, ?_, ?_⟩ <;> (unfold State.judge; dsimp only; repeat' (first | (split <;> try simp) | simp))
@[simp] theorem State.testSpare_keeps (s : State) :
    (s.testSpare).mem = s.mem ∧ (s.testSpare).clk = s.clk ∧ (s.testSpare).pending = s.pending := by
  refine ⟨?_, ?_, ?_⟩ <;> (unfold State.testSpare; simp)
@[simp] theorem State.shadowBefore_keeps (s : State) (c : Nat) :
    (s.shadowBefore c).mem = s.mem ∧ (s.shadowBefore c).clk = s.clk ∧ (s.shadowBefore c).pending = s.pending := by
  refine ⟨?_, ?_, ?_⟩ <;> (unfold State.shadowBefore; simp)
@[simp] theorem State.testsDone_keeps (s : State) (counted : Bool) :
    (s.testsDone counted).mem = s.mem ∧ (s.testsDone counted).clk = s.clk ∧ (s.testsDone counted).pending = s.pending := by
  refine ⟨?_, ?_, ?_⟩ <;> (unfold State.testsDone; dsimp only; repeat' (first | (refine State.foldl_mem (fun u a => ?_) _ _) | (refine State.foldl_clk (fun u a => ?_) _ _) | (refine State.foldl_pending (fun u a => ?_) _ _) | (split <;> try simp) | simp))
@[simp] theorem State.nextCluster_keeps (s : State) (c : Nat) :
    (s.nextCluster c).mem = s.mem ∧ (s.nextCluster c).clk = s.clk ∧ (s.nextCluster c).pending = s.pending := by
  refine ⟨?_, ?_, ?_⟩ <;> (unfold State.nextCluster; dsimp only; repeat' (first | (split <;> try simp) | simp))
@[simp] theorem State.stopRounds_keeps (s : State) :
    (s.stopRounds).mem = s.mem ∧ (s.stopRounds).clk = s.clk ∧ (s.stopRounds).pending = s.pending := by
  refine ⟨?_, ?_, ?_⟩ <;> (unfold State.stopRounds; simp)
@[simp] theorem State.cmpFailed_keeps (s : State) (u : Nat) (vector : Nat) :
    (s.cmpFailed u vector).mem = s.mem ∧ (s.cmpFailed u vector).clk = s.clk ∧ (s.cmpFailed u vector).pending = s.pending := by
  refine ⟨?_, ?_, ?_⟩ <;> (unfold State.cmpFailed; simp)
@[simp] theorem State.judged_keeps (s : State) (u : Nat) (fail : Option Nat) :
    (s.judged u fail).mem = s.mem ∧ (s.judged u fail).clk = s.clk ∧ (s.judged u fail).pending = s.pending := by
  refine ⟨?_, ?_, ?_⟩ <;> (unfold State.judged; simp)
@[simp] theorem State.isolate_keeps (s : State) :
    (s.isolate).mem = s.mem ∧ (s.isolate).clk = s.clk ∧ (s.isolate).pending = s.pending := by
  refine ⟨?_, ?_, ?_⟩ <;> (unfold State.isolate; dsimp only; repeat' (first | (split <;> try simp) | simp))
@[simp] theorem State.noteDown_keeps (s : State) (p : Port) :
    (s.noteDown p).mem = s.mem ∧ (s.noteDown p).clk = s.clk ∧ (s.noteDown p).pending = s.pending := by
  refine ⟨?_, ?_, ?_⟩ <;> (unfold State.noteDown; dsimp only; repeat' (first | (split <;> try simp) | simp))
@[simp] theorem State.linkNotice_keeps (s : State) (key : Nat) (kind : Byte) (links : List LinkName) (t0 : W64) :
    (s.linkNotice key kind links t0).mem = s.mem ∧ (s.linkNotice key kind links t0).clk = s.clk ∧ (s.linkNotice key kind links t0).pending = s.pending := by
  refine ⟨?_, ?_, ?_⟩ <;> (unfold State.linkNotice; simp)
@[simp] theorem State.leaderWork_keeps (s : State) (w : Work) :
    (s.leaderWork w).mem = s.mem ∧ (s.leaderWork w).clk = s.clk ∧ (s.leaderWork w).pending = s.pending := by
  refine ⟨?_, ?_, ?_⟩ <;> (unfold State.leaderWork; simp)
@[simp] theorem State.breakLink_keeps (s : State) (l : LinkName) :
    (s.breakLink l).mem = s.mem ∧ (s.breakLink l).clk = s.clk ∧ (s.breakLink l).pending = s.pending := by
  refine ⟨?_, ?_, ?_⟩ <;> (unfold State.breakLink; simp)
@[simp] theorem State.mendLink_keeps (s : State) (l : LinkName) (b : Nat) :
    (s.mendLink l b).mem = s.mem ∧ (s.mendLink l b).clk = s.clk ∧ (s.mendLink l b).pending = s.pending := by
  refine ⟨?_, ?_, ?_⟩ <;> (unfold State.mendLink; simp)
@[simp] theorem State.linkDown_keeps (s : State) (p : Port) (cause : Nat) :
    (s.linkDown p cause).mem = s.mem ∧ (s.linkDown p cause).clk = s.clk ∧ (s.linkDown p cause).pending = s.pending := by
  refine ⟨?_, ?_, ?_⟩ <;> (unfold State.linkDown; simp)
@[simp] theorem State.crcError_keeps (s : State) (p : Port) :
    (s.crcError p).mem = s.mem ∧ (s.crcError p).clk = s.clk ∧ (s.crcError p).pending = s.pending := by
  refine ⟨?_, ?_, ?_⟩ <;> (unfold State.crcError; simp)
@[simp] theorem State.hopLimit_keeps (s : State) (p : Port) (f : Frame) :
    (s.hopLimit p f).mem = s.mem ∧ (s.hopLimit p f).clk = s.clk ∧ (s.hopLimit p f).pending = s.pending := by
  refine ⟨?_, ?_, ?_⟩ <;> (unfold State.hopLimit; simp)
@[simp] theorem State.forwardNow_keeps (s : State) (inp outp : Port) (t : Tx) (newRing : Bool) :
    (s.forwardNow inp outp t newRing).mem = s.mem ∧ (s.forwardNow inp outp t newRing).clk = s.clk ∧ (s.forwardNow inp outp t newRing).pending = s.pending := by
  refine ⟨?_, ?_, ?_⟩ <;> (unfold State.forwardNow; simp)
@[simp] theorem State.holdVc2_keeps (s : State) (inp : Port) (v : Vc2) :
    (s.holdVc2 inp v).mem = s.mem ∧ (s.holdVc2 inp v).clk = s.clk ∧ (s.holdVc2 inp v).pending = s.pending := by
  refine ⟨?_, ?_, ?_⟩ <;> (unfold State.holdVc2; simp)
@[simp] theorem State.forward_keeps (s : State) (inp : Port) (t : Tx) (outs : List (Port × Bool)) :
    (s.forward inp t outs).mem = s.mem ∧ (s.forward inp t outs).clk = s.clk ∧ (s.forward inp t outs).pending = s.pending := by
  refine ⟨?_, ?_, ?_⟩ <;> (unfold State.forward; simp)
@[simp] theorem State.leaveVc2_keeps (s : State) (p : Port) :
    (s.leaveVc2 p).mem = s.mem ∧ (s.leaveVc2 p).clk = s.clk ∧ (s.leaveVc2 p).pending = s.pending := by
  refine ⟨?_, ?_, ?_⟩ <;> (unfold State.leaveVc2; simp)
@[simp] theorem State.leaveAllVc2_keeps (s : State) :
    (s.leaveAllVc2).mem = s.mem ∧ (s.leaveAllVc2).clk = s.clk ∧ (s.leaveAllVc2).pending = s.pending := by
  refine ⟨?_, ?_, ?_⟩ <;> (unfold State.leaveAllVc2; simp)
@[simp] theorem State.passPair_keeps (s : State) (p : Port) (t : Tx) :
    (s.passPair p t).mem = s.mem ∧ (s.passPair p t).clk = s.clk ∧ (s.passPair p t).pending = s.pending := by
  refine ⟨?_, ?_, ?_⟩ <;> (unfold State.passPair; simp)
@[simp] theorem State.alive_keeps (s : State) (f : Frame) :
    (s.alive f).mem = s.mem ∧ (s.alive f).clk = s.clk ∧ (s.alive f).pending = s.pending := by
  refine ⟨?_, ?_, ?_⟩ <;> (unfold State.alive; simp)
@[simp] theorem State.tripDrive_keeps (s : State) :
    (s.tripDrive).mem = s.mem ∧ (s.tripDrive).clk = s.clk ∧ (s.tripDrive).pending = s.pending := by
  refine ⟨?_, ?_, ?_⟩ <;> (unfold State.tripDrive; simp)
@[simp] theorem State.tripFault_keeps (s : State) (cause index : Nat) (byB output : Bool) :
    (s.tripFault cause index byB output).mem = s.mem ∧ (s.tripFault cause index byB output).clk = s.clk ∧ (s.tripFault cause index byB output).pending = s.pending := by
  refine ⟨?_, ?_, ?_⟩ <;> (unfold State.tripFault; simp)
@[simp] theorem State.latchOut_keeps (s : State) (m cause : Nat) (byB : Bool) :
    (s.latchOut m cause byB).mem = s.mem ∧ (s.latchOut m cause byB).clk = s.clk ∧ (s.latchOut m cause byB).pending = s.pending := by
  refine ⟨?_, ?_, ?_⟩ <;> (unfold State.latchOut; simp)
@[simp] theorem State.latchAll_keeps (s : State) (cause : Nat) (byB : Bool) :
    (s.latchAll cause byB).mem = s.mem ∧ (s.latchAll cause byB).clk = s.clk ∧ (s.latchAll cause byB).pending = s.pending := by
  refine ⟨?_, ?_, ?_⟩ <;> (unfold State.latchAll; simp)
@[simp] theorem State.tripStart_keeps (s : State) :
    (s.tripStart).mem = s.mem ∧ (s.tripStart).clk = s.clk ∧ (s.tripStart).pending = s.pending := by
  refine ⟨?_, ?_, ?_⟩ <;> (unfold State.tripStart; simp)
@[simp] theorem State.outputFaults_keeps (s : State) (m : Nat) :
    (s.outputFaults m).mem = s.mem ∧ (s.outputFaults m).clk = s.clk ∧ (s.outputFaults m).pending = s.pending := by
  refine ⟨?_, ?_, ?_⟩ <;> (unfold State.outputFaults; simp)
@[simp] theorem State.crossCheck_keeps (s : State) (clockBad : Bool) :
    (s.crossCheck clockBad).mem = s.mem ∧ (s.crossCheck clockBad).clk = s.clk ∧ (s.crossCheck clockBad).pending = s.pending := by
  refine ⟨?_, ?_, ?_⟩ <;> (unfold State.crossCheck; simp)
@[simp] theorem State.protect_keeps (s : State) (m cause : Nat) :
    (s.protect m cause).mem = s.mem ∧ (s.protect m cause).clk = s.clk ∧ (s.protect m cause).pending = s.pending := by
  refine ⟨?_, ?_, ?_⟩ <;> (unfold State.protect; simp)
@[simp] theorem State.canLatch_keeps (s : State) (k : Nat) (own sends : Bool) :
    (s.canLatch k own sends).mem = s.mem ∧ (s.canLatch k own sends).clk = s.clk ∧ (s.canLatch k own sends).pending = s.pending := by
  refine ⟨?_, ?_, ?_⟩ <;> (unfold State.canLatch; simp)
@[simp] theorem State.canReference_keeps (s : State) (k : Nat) (b : W64) :
    (s.canReference k b).mem = s.mem ∧ (s.canReference k b).clk = s.clk ∧ (s.canReference k b).pending = s.pending := by
  refine ⟨?_, ?_, ?_⟩ <;> (unfold State.canReference; simp)
@[simp] theorem State.canCommit_keeps (s : State) (p k : Nat) (bnd : W64) :
    (s.canCommit p k bnd).mem = s.mem ∧ (s.canCommit p k bnd).clk = s.clk ∧ (s.canCommit p k bnd).pending = s.pending := by
  refine ⟨?_, ?_, ?_⟩ <;> (unfold State.canCommit; dsimp only; repeat' (first | (refine State.foldl_mem (fun u a => ?_) _ _) | (refine State.foldl_clk (fun u a => ?_) _ _) | (refine State.foldl_pending (fun u a => ?_) _ _) | (split <;> try simp) | simp))
@[simp] theorem State.endCycle_keeps (s : State) (p k : Nat) (pb b : W64) :
    (s.endCycle p k pb b).mem = s.mem ∧ (s.endCycle p k pb b).clk = s.clk ∧ (s.endCycle p k pb b).pending = s.pending := by
  refine ⟨?_, ?_, ?_⟩ <;> (unfold State.endCycle; simp)
@[simp] theorem State.endDelays_keeps (s : State) (k : Nat) (pb : W64) :
    (s.endDelays k pb).mem = s.mem ∧ (s.endDelays k pb).clk = s.clk ∧ (s.endDelays k pb).pending = s.pending := by
  refine ⟨?_, ?_, ?_⟩ <;> (unfold State.endDelays; simp)
@[simp] theorem State.carryOver_keeps (s : State) (k : Nat) (pb : Option W64) :
    (s.carryOver k pb).clk = s.clk ∧ (s.carryOver k pb).pending = s.pending := by
  refine ⟨?_, ?_⟩ <;> (unfold State.carryOver; simp)
@[simp] theorem State.partitionChanged_keeps (s : State) (p : Nat) (old new : PState) (code : W16) (b : W64) :
    (s.partitionChanged p old new code b).mem = s.mem ∧ (s.partitionChanged p old new code b).clk = s.clk ∧ (s.partitionChanged p old new code b).pending = s.pending := by
  refine ⟨?_, ?_, ?_⟩ <;> (unfold State.partitionChanged; simp)
@[simp] theorem State.safeValues_keeps (s : State) (p k : Nat) :
    (s.safeValues p k).clk = s.clk ∧ (s.safeValues p k).pending = s.pending := by
  refine ⟨?_, ?_⟩ <;> (unfold State.safeValues; (try dsimp only); repeat' (first | (refine (State.foldl_mem (fun u a => ?_) _ _).trans ?_; (try dsimp only)) | (refine (State.foldl_clk (fun u a => ?_) _ _).trans ?_; (try dsimp only)) | (refine (State.foldl_pending (fun u a => ?_) _ _).trans ?_; (try dsimp only)) | rfl | (split; all_goals (try simp)) | (simp; done)))
@[simp] theorem State.forgetSets_keeps (s : State) (p k : Nat) :
    (s.forgetSets p k).mem = s.mem ∧ (s.forgetSets p k).clk = s.clk ∧ (s.forgetSets p k).pending = s.pending := by
  refine ⟨?_, ?_, ?_⟩ <;> (unfold State.forgetSets; simp)
@[simp] theorem State.enterEffect_keeps (s : State) (p k : Nat) (b : W64) (old st : PState) :
    (s.enterEffect p k b old st).clk = s.clk ∧ (s.enterEffect p k b old st).pending = s.pending := by
  refine ⟨?_, ?_⟩ <;> (unfold State.enterEffect; dsimp only; repeat' (first | (split <;> try simp) | simp))
@[simp] theorem State.enterProfile_keeps (s : State) (k : Nat) (b : W64) (p : Nat) :
    (s.enterProfile k b p).mem = s.mem ∧ (s.enterProfile k b p).clk = s.clk ∧ (s.enterProfile k b p).pending = s.pending := by
  refine ⟨?_, ?_, ?_⟩ <;> (unfold State.enterProfile; dsimp only; repeat' (first | (split <;> try simp) | simp))
@[simp] theorem State.putDm_keeps (s : State) (t : TaskPlan) (dm : List (Nat × Byte)) :
    (s.putDm t dm).clk = s.clk ∧ (s.putDm t dm).pending = s.pending := by
  refine ⟨?_, ?_⟩ <;> (unfold State.putDm; (try dsimp only); repeat' (first | (refine (State.foldl_mem (fun u a => ?_) _ _).trans ?_; (try dsimp only)) | (refine (State.foldl_clk (fun u a => ?_) _ _).trans ?_; (try dsimp only)) | (refine (State.foldl_pending (fun u a => ?_) _ _).trans ?_; (try dsimp only)) | rfl | (split; all_goals (try simp)) | (simp; done)))
@[simp] theorem State.arrive_keeps (s : State) (k : Nat) (t : TaskPlan) (b : W64) :
    (s.arrive k t b).clk = s.clk ∧ (s.arrive k t b).pending = s.pending := by
  refine ⟨?_, ?_⟩ <;> (unfold State.arrive; dsimp only; repeat' (first | (refine State.foldl_mem (fun u a => ?_) _ _) | (refine State.foldl_clk (fun u a => ?_) _ _) | (refine State.foldl_pending (fun u a => ?_) _ _) | (split <;> try simp) | simp))
@[simp] theorem State.keepOut_keeps (s : State) (k : Nat) (o : OutVar) :
    (s.keepOut k o).clk = s.clk ∧ (s.keepOut k o).pending = s.pending := by
  refine ⟨?_, ?_⟩ <;> (unfold State.keepOut; dsimp only; repeat' (first | (split <;> try simp) | simp))
@[simp] theorem State.keepTask_keeps (s : State) (t u : TaskPlan) :
    (s.keepTask t u).clk = s.clk ∧ (s.keepTask t u).pending = s.pending := by
  refine ⟨?_, ?_⟩ <;> (unfold State.keepTask; simp)
@[simp] theorem State.arbitrationMoved_keeps (s : State) (k : Nat) (pb : Option W64) (t : W32) :
    (s.arbitrationMoved k pb t).mem = s.mem ∧ (s.arbitrationMoved k pb t).clk = s.clk ∧ (s.arbitrationMoved k pb t).pending = s.pending := by
  refine ⟨?_, ?_, ?_⟩ <;> (unfold State.arbitrationMoved; dsimp only; repeat' (first | (split <;> try simp) | simp))
@[simp] theorem State.switchPlan_keeps (s : State) (k : Nat) (pb : Option W64) (b : W64) :
    (s.switchPlan k pb b).clk = s.clk ∧ (s.switchPlan k pb b).pending = s.pending := by
  refine ⟨?_, ?_⟩ <;> (unfold State.switchPlan; (try dsimp only); repeat' (first | (refine (State.foldl_mem (fun u a => ?_) _ _).trans ?_; (try dsimp only)) | (refine (State.foldl_clk (fun u a => ?_) _ _).trans ?_; (try dsimp only)) | (refine (State.foldl_pending (fun u a => ?_) _ _).trans ?_; (try dsimp only)) | rfl | (split; all_goals (try simp)) | (simp; done)))
@[simp] theorem State.oweLanes_keeps (s : State) (k : Nat) (b : W64) :
    (s.oweLanes k b).mem = s.mem ∧ (s.oweLanes k b).clk = s.clk ∧ (s.oweLanes k b).pending = s.pending := by
  refine ⟨?_, ?_, ?_⟩ <;> (unfold State.oweLanes; simp)
@[simp] theorem State.arbitrate_keeps (s : State) (k : Nat) (pb : Option W64) (b : W64) :
    (s.arbitrate k pb b).mem = s.mem ∧ (s.arbitrate k pb b).clk = s.clk ∧ (s.arbitrate k pb b).pending = s.pending := by
  refine ⟨?_, ?_, ?_⟩ <;> (unfold State.arbitrate; dsimp only; repeat' (first | (split <;> try simp) | simp))
@[simp] theorem State.handDone_keeps (s : State) :
    (s.handDone).mem = s.mem ∧ (s.handDone).clk = s.clk ∧ (s.handDone).pending = s.pending := by
  refine ⟨?_, ?_, ?_⟩ <;> (unfold State.handDone; repeat' (first | (split <;> try simp) | simp))
@[simp] theorem State.freezeWord_keeps (s : State) (k lii : Nat) (v : W64) (b : W64) :
    (s.freezeWord k lii v b).clk = s.clk ∧ (s.freezeWord k lii v b).pending = s.pending := by
  refine ⟨?_, ?_⟩ <;> (unfold State.freezeWord; simp)
@[simp] theorem State.freezeValues_keeps (s : State) (k : Nat) (b : W64) (liis : List Nat) (val : Nat → W64) :
    (s.freezeValues k b liis val).clk = s.clk ∧ (s.freezeValues k b liis val).pending = s.pending := by
  refine ⟨?_, ?_⟩ <;> (unfold State.freezeValues; (try dsimp only); repeat' (first | (refine (State.foldl_mem (fun u a => ?_) _ _).trans ?_; (try dsimp only)) | (refine (State.foldl_clk (fun u a => ?_) _ _).trans ?_; (try dsimp only)) | (refine (State.foldl_pending (fun u a => ?_) _ _).trans ?_; (try dsimp only)) | rfl | (split; all_goals (try simp)) | (simp; done)))
@[simp] theorem State.ageRecord_keeps (s : State) (u : SubPlan) (was now : Bool) (age : Nat) :
    (s.ageRecord u was now age).mem = s.mem ∧ (s.ageRecord u was now age).clk = s.clk ∧ (s.ageRecord u was now age).pending = s.pending := by
  refine ⟨?_, ?_, ?_⟩ <;> (unfold State.ageRecord; simp)
@[simp] theorem State.markLate_keeps (s : State) (k : Nat) (b : W64) (hit : CopyPlan → Bool) :
    (s.markLate k b hit).mem = s.mem ∧ (s.markLate k b hit).clk = s.clk ∧ (s.markLate k b hit).pending = s.pending := by
  refine ⟨?_, ?_, ?_⟩ <;> (unfold State.markLate; simp)
@[simp] theorem State.tripFreeze_keeps (s : State) (k : Nat) (b : W64) :
    (s.tripFreeze k b).mem = s.mem ∧ (s.tripFreeze k b).clk = s.clk ∧ (s.tripFreeze k b).pending = s.pending := by
  refine ⟨?_, ?_, ?_⟩ <;> (unfold State.tripFreeze; dsimp only; repeat' (first | (split <;> try simp) | simp))
@[simp] theorem State.copyDone_keeps (s : State) (k : Nat) :
    (s.copyDone k).mem = s.mem ∧ (s.copyDone k).clk = s.clk ∧ (s.copyDone k).pending = s.pending := by
  refine ⟨?_, ?_, ?_⟩ <;> (unfold State.copyDone; dsimp only; repeat' (first | (split <;> try simp) | simp))
@[simp] theorem State.intoNext_keeps (s : State) (k : Nat) (t : Option TaskPlan) (ws : List BWord) :
    (s.intoNext k t ws).clk = s.clk ∧ (s.intoNext k t ws).pending = s.pending := by
  refine ⟨?_, ?_⟩ <;> (unfold State.intoNext; dsimp only; repeat' (first | (refine State.foldl_mem (fun u a => ?_) _ _) | (refine State.foldl_clk (fun u a => ?_) _ _) | (refine State.foldl_pending (fun u a => ?_) _ _) | (split <;> try simp) | simp))
@[simp] theorem State.delayRecords_keeps (s : State) (prod : W32) (b : W64) :
    (s.delayRecords prod b).mem = s.mem ∧ (s.delayRecords prod b).clk = s.clk ∧ (s.delayRecords prod b).pending = s.pending := by
  refine ⟨?_, ?_, ?_⟩ <;> (unfold State.delayRecords; (try dsimp only); repeat' (first | (refine (State.foldl_mem (fun u a => ?_) _ _).trans ?_; (try dsimp only)) | (refine (State.foldl_clk (fun u a => ?_) _ _).trans ?_; (try dsimp only)) | (refine (State.foldl_pending (fun u a => ?_) _ _).trans ?_; (try dsimp only)) | rfl | (split; all_goals (try simp)) | (simp; done)))
@[simp] theorem State.replLanes_keeps (s : State) (task : W32) :
    (s.replLanes task).mem = s.mem ∧ (s.replLanes task).clk = s.clk ∧ (s.replLanes task).pending = s.pending := by
  refine ⟨?_, ?_, ?_⟩ <;> (unfold State.replLanes; simp)
@[simp] theorem State.sendInstance_keeps (s : State) (sp : SetPlan) (seq : W32) (safe : Bool) (b : W64) (ws : List W64) :
    (s.sendInstance sp seq safe b ws).mem = s.mem ∧ (s.sendInstance sp seq safe b ws).clk = s.clk ∧ (s.sendInstance sp seq safe b ws).pending = s.pending := by
  refine ⟨?_, ?_, ?_⟩ <;> (unfold State.sendInstance; simp)
@[simp] theorem State.keepOwn_keeps (s : State) (set seq : W32) (b : W64) (safe : Bool) (ws : List W64) :
    (s.keepOwn set seq b safe ws).mem = s.mem ∧ (s.keepOwn set seq b safe ws).clk = s.clk ∧ (s.keepOwn set seq b safe ws).pending = s.pending := by
  refine ⟨?_, ?_, ?_⟩ <;> (unfold State.keepOwn; simp)
@[simp] theorem State.migrationSend_keeps (s : State) (k : Nat) (b : W64) (t : TaskPlan) (other : Nat) (final : Bool) :
    (s.migrationSend k b t other final).mem = s.mem ∧ (s.migrationSend k b t other final).clk = s.clk ∧ (s.migrationSend k b t other final).pending = s.pending := by
  refine ⟨?_, ?_, ?_⟩ <;> (unfold State.migrationSend; simp)
@[simp] theorem State.migrationCommit_keeps (s : State) (p k : Nat) (b : W64) :
    (s.migrationCommit p k b).mem = s.mem ∧ (s.migrationCommit p k b).clk = s.clk ∧ (s.migrationCommit p k b).pending = s.pending := by
  refine ⟨?_, ?_, ?_⟩ <;> (unfold State.migrationCommit; dsimp only; repeat' (first | (refine State.foldl_mem (fun u a => ?_) _ _) | (refine State.foldl_clk (fun u a => ?_) _ _) | (refine State.foldl_pending (fun u a => ?_) _ _) | (split <;> try simp) | simp))
@[simp] theorem State.commitTasks_keeps (s : State) (c : Cycle) :
    (s.commitTasks c).mem = s.mem ∧ (s.commitTasks c).clk = s.clk ∧ (s.commitTasks c).pending = s.pending := by
  refine ⟨?_, ?_, ?_⟩ <;> (unfold State.commitTasks; (try dsimp only); repeat' (first | (refine (State.foldl_mem (fun u a => ?_) _ _).trans ?_; (try dsimp only)) | (refine (State.foldl_clk (fun u a => ?_) _ _).trans ?_; (try dsimp only)) | (refine (State.foldl_pending (fun u a => ?_) _ _).trans ?_; (try dsimp only)) | rfl | (split; all_goals (try simp)) | (simp; done)))
@[simp] theorem State.publishIo_keeps (s : State) (k : Nat) (b : W64) :
    (s.publishIo k b).mem = s.mem ∧ (s.publishIo k b).clk = s.clk ∧ (s.publishIo k b).pending = s.pending := by
  refine ⟨?_, ?_, ?_⟩ <;> (unfold State.publishIo; simp)
@[simp] theorem State.loadView_keeps (s : State) (n : Nat) (v : View) :
    (s.loadView n v).mem = s.mem ∧ (s.loadView n v).clk = s.clk ∧ (s.loadView n v).pending = s.pending := by
  refine ⟨?_, ?_, ?_⟩ <;> (unfold State.loadView; simp)
@[simp] theorem State.loadCtl_keeps (s : State) (n : Nat) (ctl : W32) :
    (s.loadCtl n ctl).mem = s.mem ∧ (s.loadCtl n ctl).clk = s.clk ∧ (s.loadCtl n ctl).pending = s.pending := by
  refine ⟨?_, ?_, ?_⟩ <;> (unfold State.loadCtl; simp)
@[simp] theorem State.advanceCtl_keeps (s : State) (n : Nat) (ctl : W32) :
    (s.advanceCtl n ctl).mem = s.mem ∧ (s.advanceCtl n ctl).clk = s.clk ∧ (s.advanceCtl n ctl).pending = s.pending := by
  refine ⟨?_, ?_, ?_⟩ <;> (unfold State.advanceCtl; simp)
@[simp] theorem State.unbindCtl_keeps (s : State) (n : Nat) (ctl : W32) :
    (s.unbindCtl n ctl).mem = s.mem ∧ (s.unbindCtl n ctl).clk = s.clk ∧ (s.unbindCtl n ctl).pending = s.pending := by
  refine ⟨?_, ?_, ?_⟩ <;> (unfold State.unbindCtl; simp)
@[simp] theorem State.plainCtl_keeps (s : State) (n : Nat) (ctl : W32) :
    (s.plainCtl n ctl).mem = s.mem ∧ (s.plainCtl n ctl).clk = s.clk ∧ (s.plainCtl n ctl).pending = s.pending := by
  refine ⟨?_, ?_, ?_⟩ <;> (unfold State.plainCtl; simp)
@[simp] theorem State.bindView_keeps (s : State) (n : Nat) (v : W32) :
    (s.bindView n v).mem = s.mem ∧ (s.bindView n v).clk = s.clk ∧ (s.bindView n v).pending = s.pending := by
  refine ⟨?_, ?_, ?_⟩ <;> (unfold State.bindView; simp)
@[simp] theorem State.writeView_keeps (s : State) (n off : Nat) (v : W32) :
    (s.writeView n off v).mem = s.mem ∧ (s.writeView n off v).clk = s.clk ∧ (s.writeView n off v).pending = s.pending := by
  refine ⟨?_, ?_, ?_⟩ <;> (unfold State.writeView; dsimp only; repeat' (first | (split <;> try simp) | simp))
@[simp] theorem State.bindCounters_keeps (s : State) (n : Nat) (v : W32) :
    (s.bindCounters n v).mem = s.mem ∧ (s.bindCounters n v).clk = s.clk ∧ (s.bindCounters n v).pending = s.pending := by
  refine ⟨?_, ?_, ?_⟩ <;> (unfold State.bindCounters; simp)
@[simp] theorem State.autoStart_keeps (s : State) :
    (s.autoStart).mem = s.mem ∧ (s.autoStart).clk = s.clk ∧ (s.autoStart).pending = s.pending := by
  refine ⟨?_, ?_, ?_⟩ <;> (unfold State.autoStart; simp)
@[simp] theorem State.joinActive_keeps (s : State) :
    (s.joinActive).mem = s.mem ∧ (s.joinActive).clk = s.clk ∧ (s.joinActive).pending = s.pending := by
  refine ⟨?_, ?_, ?_⟩ <;> (unfold State.joinActive; simp)
@[simp] theorem State.sendJoin_keeps (s : State) :
    (s.sendJoin).mem = s.mem ∧ (s.sendJoin).clk = s.clk ∧ (s.sendJoin).pending = s.pending := by
  refine ⟨?_, ?_, ?_⟩ <;> (unfold State.sendJoin; simp)
@[simp] theorem State.heartbeatRole_keeps (s : State) (was : Nat) (v : PartnerView) :
    (s.heartbeatRole was v).mem = s.mem ∧ (s.heartbeatRole was v).clk = s.clk ∧ (s.heartbeatRole was v).pending = s.pending := by
  refine ⟨?_, ?_, ?_⟩ <;> (unfold State.heartbeatRole; dsimp only; repeat' (first | (split <;> try simp) | simp))
@[simp] theorem State.sendEcho_keeps (s : State) :
    (s.sendEcho).mem = s.mem ∧ (s.sendEcho).clk = s.clk ∧ (s.sendEcho).pending = s.pending := by
  refine ⟨?_, ?_, ?_⟩ <;> (unfold State.sendEcho; simp)
@[simp] theorem State.partnerAlive_keeps (s : State) :
    (s.partnerAlive).mem = s.mem ∧ (s.partnerAlive).clk = s.clk ∧ (s.partnerAlive).pending = s.pending := by
  refine ⟨?_, ?_, ?_⟩ <;> (unfold State.partnerAlive; dsimp only; repeat' (first | (split <;> try simp) | simp))
@[simp] theorem State.settleOwn_keeps (s : State) :
    (s.settleOwn).mem = s.mem ∧ (s.settleOwn).clk = s.clk ∧ (s.settleOwn).pending = s.pending := by
  refine ⟨?_, ?_, ?_⟩ <;> (unfold State.settleOwn; simp)
@[simp] theorem State.takeOver_keeps (s : State) :
    (s.takeOver).mem = s.mem ∧ (s.takeOver).clk = s.clk ∧ (s.takeOver).pending = s.pending := by
  refine ⟨?_, ?_, ?_⟩ <;> (unfold State.takeOver; simp)
@[simp] theorem State.sigEntryIn_keeps (s : State) (p k : Nat) (bnd : W64) (e : SigEntry) :
    (s.sigEntryIn p k bnd e).mem = s.mem ∧ (s.sigEntryIn p k bnd e).clk = s.clk ∧ (s.sigEntryIn p k bnd e).pending = s.pending := by
  refine ⟨?_, ?_, ?_⟩ <;> (unfold State.sigEntryIn; simp)
@[simp] theorem State.adopted_keeps (s : State) (a : Adopt) (ok : Bool) :
    (s.adopted a ok).mem = s.mem ∧ (s.adopted a ok).clk = s.clk ∧ (s.adopted a ok).pending = s.pending := by
  refine ⟨?_, ?_, ?_⟩ <;> (unfold State.adopted; simp)
@[simp] theorem State.adoptionFailed_keeps (s : State) (a : Adopt) :
    (s.adoptionFailed a).mem = s.mem ∧ (s.adoptionFailed a).clk = s.clk ∧ (s.adoptionFailed a).pending = s.pending := by
  refine ⟨?_, ?_, ?_⟩ <;> (unfold State.adoptionFailed; simp)
@[simp] theorem State.mirrorInto_keeps (s : State) (bank : Nat) (m : MirrorMsg) :
    (s.mirrorInto bank m).clk = s.clk ∧ (s.mirrorInto bank m).pending = s.pending := by
  refine ⟨?_, ?_⟩ <;> (unfold State.mirrorInto; (try dsimp only); repeat' (first | (refine (State.foldl_mem (fun u a => ?_) _ _).trans ?_; (try dsimp only)) | (refine (State.foldl_clk (fun u a => ?_) _ _).trans ?_; (try dsimp only)) | (refine (State.foldl_pending (fun u a => ?_) _ _).trans ?_; (try dsimp only)) | rfl | (split; all_goals (try simp)) | (simp; done)))
@[simp] theorem State.mirrorWords_keeps (s : State) (m : MirrorMsg) :
    (s.mirrorWords m).clk = s.clk ∧ (s.mirrorWords m).pending = s.pending := by
  refine ⟨?_, ?_⟩ <;> (unfold State.mirrorWords; dsimp only; repeat' (first | (split <;> try simp) | simp))
@[simp] theorem State.mirrorInputs_keeps (s : State) (m : MirrorMsg) :
    (s.mirrorInputs m).mem = s.mem ∧ (s.mirrorInputs m).clk = s.clk ∧ (s.mirrorInputs m).pending = s.pending := by
  refine ⟨?_, ?_, ?_⟩ <;> (unfold State.mirrorInputs; dsimp only; repeat' (first | (refine State.foldl_mem (fun u a => ?_) _ _) | (refine State.foldl_clk (fun u a => ?_) _ _) | (refine State.foldl_pending (fun u a => ?_) _ _) | (split <;> try simp) | simp))
@[simp] theorem State.mirrorRest_keeps (s : State) (m : MirrorMsg) :
    (s.mirrorRest m).clk = s.clk ∧ (s.mirrorRest m).pending = s.pending := by
  refine ⟨?_, ?_⟩ <;> (unfold State.mirrorRest; (try dsimp only); repeat' (first | (refine (State.foldl_mem (fun u a => ?_) _ _).trans ?_; (try dsimp only)) | (refine (State.foldl_clk (fun u a => ?_) _ _).trans ?_; (try dsimp only)) | (refine (State.foldl_pending (fun u a => ?_) _ _).trans ?_; (try dsimp only)) | rfl | (split; all_goals (try simp)) | (simp; done)))
@[simp] theorem State.putForce_keeps (s : State) (vid : W32) (val : W64) (part : Nat) (e : W64) :
    (s.putForce vid val part e).mem = s.mem ∧ (s.putForce vid val part e).clk = s.clk ∧ (s.putForce vid val part e).pending = s.pending := by
  refine ⟨?_, ?_, ?_⟩ <;> (unfold State.putForce; simp)
@[simp] theorem State.dropForce_keeps (s : State) (vid : W32) (e : W64) :
    (s.dropForce vid e).mem = s.mem ∧ (s.dropForce vid e).clk = s.clk ∧ (s.dropForce vid e).pending = s.pending := by
  refine ⟨?_, ?_, ?_⟩ <;> (unfold State.dropForce; simp)
@[simp] theorem State.recordForceSet_keeps (s : State) (vid : W32) (val : W64) (part : Nat) :
    (s.recordForceSet vid val part).mem = s.mem ∧ (s.recordForceSet vid val part).clk = s.clk ∧ (s.recordForceSet vid val part).pending = s.pending := by
  refine ⟨?_, ?_, ?_⟩ <;> (unfold State.recordForceSet; simp)
@[simp] theorem State.recordForceClear_keeps (s : State) (vid : W32) (part : Nat) :
    (s.recordForceClear vid part).mem = s.mem ∧ (s.recordForceClear vid part).clk = s.clk ∧ (s.recordForceClear vid part).pending = s.pending := by
  refine ⟨?_, ?_, ?_⟩ <;> (unfold State.recordForceClear; simp)
@[simp] theorem State.forceMissed_keeps (s : State) :
    (s.forceMissed).mem = s.mem ∧ (s.forceMissed).clk = s.clk ∧ (s.forceMissed).pending = s.pending := by
  refine ⟨?_, ?_, ?_⟩ <;> (unfold State.forceMissed; simp)
@[simp] theorem State.propose_keeps (s : State) (switch : Bool) :
    (s.propose switch).mem = s.mem ∧ (s.propose switch).clk = s.clk ∧ (s.propose switch).pending = s.pending := by
  refine ⟨?_, ?_, ?_⟩ <;> (unfold State.propose; simp)
@[simp] theorem State.goNearHand_keeps (s : State) :
    (s.goNearHand).mem = s.mem ∧ (s.goNearHand).clk = s.clk ∧ (s.goNearHand).pending = s.pending := by
  refine ⟨?_, ?_, ?_⟩ <;> (unfold State.goNearHand; dsimp only; repeat' (first | (split <;> try simp) | simp))
@[simp] theorem State.handAgain_keeps (s : State) :
    (s.handAgain).mem = s.mem ∧ (s.handAgain).clk = s.clk ∧ (s.handAgain).pending = s.pending := by
  refine ⟨?_, ?_, ?_⟩ <;> (unfold State.handAgain; dsimp only; repeat' (first | (split <;> try simp) | simp))
@[simp] theorem State.joinSeqs_keeps (s : State) (seqs : List (W32 × W32)) (os : List (W32 × Nat)) (fz : List (W32 × Nat × W32 × W32 × Bool)) :
    (s.joinSeqs seqs os fz).mem = s.mem ∧ (s.joinSeqs seqs os fz).clk = s.clk ∧ (s.joinSeqs seqs os fz).pending = s.pending := by
  refine ⟨?_, ?_, ?_⟩ <;> (unfold State.joinSeqs; simp)
@[simp] theorem State.joinPart_keeps (s : State) (m : JoinMsg) :
    (s.joinPart m).clk = s.clk ∧ (s.joinPart m).pending = s.pending := by
  refine ⟨?_, ?_⟩ <;> (unfold State.joinPart; dsimp only; repeat' (first | (refine State.foldl_mem (fun u a => ?_) _ _) | (refine State.foldl_clk (fun u a => ?_) _ _) | (refine State.foldl_pending (fun u a => ?_) _ _) | (split <;> try simp) | simp))
@[simp] theorem State.linkRefused_keeps (s : State) (p : Port) (reason : Nat) (far : Nat) :
    (s.linkRefused p reason far).mem = s.mem ∧ (s.linkRefused p reason far).clk = s.clk ∧ (s.linkRefused p reason far).pending = s.pending := by
  refine ⟨?_, ?_, ?_⟩ <;> (unfold State.linkRefused; simp)
@[simp] theorem State.ringPlan_keeps (s : State) (row : Bool) (ls : List LinkName) (t0 : W64) :
    (s.ringPlan row ls t0).mem = s.mem ∧ (s.ringPlan row ls t0).clk = s.clk ∧ (s.ringPlan row ls t0).pending = s.pending := by
  refine ⟨?_, ?_, ?_⟩ <;> (unfold State.ringPlan; simp)
@[simp] theorem State.ringPlanOpen_keeps (s : State) (row : Bool) (m : Nat) (t0 : W64) :
    (s.ringPlanOpen row m t0).mem = s.mem ∧ (s.ringPlanOpen row m t0).clk = s.clk ∧ (s.ringPlanOpen row m t0).pending = s.pending := by
  refine ⟨?_, ?_, ?_⟩ <;> (unfold State.ringPlanOpen; simp)
@[simp] theorem State.ringPlanClose_keeps (s : State) (row : Bool) (t0 : W64) :
    (s.ringPlanClose row t0).mem = s.mem ∧ (s.ringPlanClose row t0).clk = s.clk ∧ (s.ringPlanClose row t0).pending = s.pending := by
  refine ⟨?_, ?_, ?_⟩ <;> (unfold State.ringPlanClose; simp)
@[simp] theorem State.askBypass_keeps (s : State) (row : Bool) :
    (s.askBypass row).mem = s.mem ∧ (s.askBypass row).clk = s.clk ∧ (s.askBypass row).pending = s.pending := by
  refine ⟨?_, ?_, ?_⟩ <;> (unfold State.askBypass; simp)
@[simp] theorem State.openColumn_keeps (s : State) :
    (s.openColumn).mem = s.mem ∧ (s.openColumn).clk = s.clk ∧ (s.openColumn).pending = s.pending := by
  refine ⟨?_, ?_, ?_⟩ <;> (unfold State.openColumn; simp)
@[simp] theorem State.linkMended_keeps (s : State) (p : Port) (far : Nat) :
    (s.linkMended p far).mem = s.mem ∧ (s.linkMended p far).clk = s.clk ∧ (s.linkMended p far).pending = s.pending := by
  refine ⟨?_, ?_, ?_⟩ <;> (unfold State.linkMended; simp)
@[simp] theorem State.keepShadow_keeps (s : State) (set : W32) (i : Inst) :
    (s.keepShadow set i).mem = s.mem ∧ (s.keepShadow set i).clk = s.clk ∧ (s.keepShadow set i).pending = s.pending := by
  refine ⟨?_, ?_, ?_⟩ <;> (unfold State.keepShadow; dsimp only; repeat' (first | (split <;> try simp) | simp))
@[simp] theorem State.wrongSource_keeps (s : State) (set : W32) (src : Nat) :
    (s.wrongSource set src).mem = s.mem ∧ (s.wrongSource set src).clk = s.clk ∧ (s.wrongSource set src).pending = s.pending := by
  refine ⟨?_, ?_, ?_⟩ <;> (unfold State.wrongSource; simp)
@[simp] theorem State.staleFrame_keeps (s : State) (f : Frame) :
    (s.staleFrame f).mem = s.mem ∧ (s.staleFrame f).clk = s.clk ∧ (s.staleFrame f).pending = s.pending := by
  refine ⟨?_, ?_, ?_⟩ <;> (unfold State.staleFrame; simp)
@[simp] theorem State.acceptReq_keeps (s : State) (m : ReqMsg) :
    (s.acceptReq m).mem = s.mem ∧ (s.acceptReq m).clk = s.clk ∧ (s.acceptReq m).pending = s.pending := by
  refine ⟨?_, ?_, ?_⟩ <;> (unfold State.acceptReq; dsimp only; repeat' (first | (split <;> try simp) | simp))
@[simp] theorem State.forwardOn_keeps (s : State) (f : Frame) (m : ReqMsg) (pair : Nat) :
    (s.forwardOn f m pair).mem = s.mem ∧ (s.forwardOn f m pair).clk = s.clk ∧ (s.forwardOn f m pair).pending = s.pending := by
  refine ⟨?_, ?_, ?_⟩ <;> (unfold State.forwardOn; simp)
@[simp] theorem State.addressed_keeps (s : State) (f : Frame) (m : ReqMsg) (obj : W32) :
    (s.addressed f m obj).mem = s.mem ∧ (s.addressed f m obj).clk = s.clk ∧ (s.addressed f m obj).pending = s.pending := by
  refine ⟨?_, ?_, ?_⟩ <;> (unfold State.addressed; dsimp only; repeat' (first | (split <;> try simp) | simp))
@[simp] theorem State.takeReq_keeps (s : State) (f : Frame) (m : ReqMsg) :
    (s.takeReq f m).mem = s.mem ∧ (s.takeReq f m).clk = s.clk ∧ (s.takeReq f m).pending = s.pending := by
  refine ⟨?_, ?_, ?_⟩ <;> (unfold State.takeReq; repeat' (first | (split <;> try simp) | simp))
@[simp] theorem State.planAsked_keeps (s : State) (m : ReqMsg) :
    (s.planAsked m).mem = s.mem ∧ (s.planAsked m).clk = s.clk ∧ (s.planAsked m).pending = s.pending := by
  refine ⟨?_, ?_, ?_⟩ <;> (unfold State.planAsked; simp)
@[simp] theorem State.planCame_keeps (s : State) (src : Nat) (e : W32) (p : ModPlan) (d : Domain) :
    (s.planCame src e p d).clk = s.clk ∧ (s.planCame src e p d).pending = s.pending := by
  refine ⟨?_, ?_⟩ <;> (unfold State.planCame; simp)
@[simp] theorem State.resteer_keeps (s : State) (p : Port) :
    (s.resteer p).mem = s.mem ∧ (s.resteer p).clk = s.clk ∧ (s.resteer p).pending = s.pending := by
  refine ⟨?_, ?_, ?_⟩ <;> (unfold State.resteer; simp)
@[simp] theorem State.openBypass_keeps (s : State) (row : Bool) :
    (s.openBypass row).mem = s.mem ∧ (s.openBypass row).clk = s.clk ∧ (s.openBypass row).pending = s.pending := by
  refine ⟨?_, ?_, ?_⟩ <;> (unfold State.openBypass; simp)
@[simp] theorem State.closeBypass_keeps (s : State) :
    (s.closeBypass).mem = s.mem ∧ (s.closeBypass).clk = s.clk ∧ (s.closeBypass).pending = s.pending := by
  refine ⟨?_, ?_, ?_⟩ <;> (unfold State.closeBypass; simp)
@[simp] theorem State.sendPlace_keeps (s : State) (dst kind : Nat) (loss : Bool) (epoch apply : W32) (reason : Nat) :
    (s.sendPlace dst kind loss epoch apply reason).mem = s.mem ∧ (s.sendPlace dst kind loss epoch apply reason).clk = s.clk ∧ (s.sendPlace dst kind loss epoch apply reason).pending = s.pending := by
  refine ⟨?_, ?_, ?_⟩ <;> (unfold State.sendPlace; simp)
@[simp] theorem State.answerPlace_keeps (s : State) (f : Frame) (kind reason : Nat) :
    (s.answerPlace f kind reason).mem = s.mem ∧ (s.answerPlace f kind reason).clk = s.clk ∧ (s.answerPlace f kind reason).pending = s.pending := by
  refine ⟨?_, ?_, ?_⟩ <;> (unfold State.answerPlace; simp)
@[simp] theorem State.stopIssuing_keeps (s : State) :
    (s.stopIssuing).mem = s.mem ∧ (s.stopIssuing).clk = s.clk ∧ (s.stopIssuing).pending = s.pending := by
  refine ⟨?_, ?_, ?_⟩ <;> (unfold State.stopIssuing; dsimp only; repeat' (first | (split <;> try simp) | simp))
@[simp] theorem State.yieldLead_keeps (s : State) :
    (s.yieldLead).mem = s.mem ∧ (s.yieldLead).clk = s.clk ∧ (s.yieldLead).pending = s.pending := by
  refine ⟨?_, ?_, ?_⟩ <;> (unfold State.yieldLead; dsimp only; repeat' (first | (split <;> try simp) | simp))
@[simp] theorem State.noQuorum_keeps (s : State) :
    (s.noQuorum).mem = s.mem ∧ (s.noQuorum).clk = s.clk ∧ (s.noQuorum).pending = s.pending := by
  refine ⟨?_, ?_, ?_⟩ <;> (unfold State.noQuorum; simp)
@[simp] theorem State.followEpoch_keeps (s : State) (e : W32) (leader : Nat) :
    (s.followEpoch e leader).mem = s.mem ∧ (s.followEpoch e leader).clk = s.clk ∧ (s.followEpoch e leader).pending = s.pending := by
  refine ⟨?_, ?_, ?_⟩ <;> (unfold State.followEpoch; simp)
@[simp] theorem State.heed_keeps (s : State) (f : Frame) :
    (s.heed f).mem = s.mem ∧ (s.heed f).clk = s.clk ∧ (s.heed f).pending = s.pending := by
  refine ⟨?_, ?_, ?_⟩ <;> (unfold State.heed; simp)
@[simp] theorem State.queryModule_keeps (s : State) (m : Nat) :
    (s.queryModule m).mem = s.mem ∧ (s.queryModule m).clk = s.clk ∧ (s.queryModule m).pending = s.pending := by
  refine ⟨?_, ?_, ?_⟩ <;> (unfold State.queryModule; simp)
@[simp] theorem State.newLeader_keeps (s : State) (old : Nat) :
    (s.newLeader old).mem = s.mem ∧ (s.newLeader old).clk = s.clk ∧ (s.newLeader old).pending = s.pending := by
  refine ⟨?_, ?_, ?_⟩ <;> (unfold State.newLeader; simp)
@[simp] theorem State.takeLead_keeps (s : State) :
    (s.takeLead).mem = s.mem ∧ (s.takeLead).clk = s.clk ∧ (s.takeLead).pending = s.pending := by
  refine ⟨?_, ?_, ?_⟩ <;> (unfold State.takeLead; simp)
@[simp] theorem State.stageEpoch_keeps (s : State) (e : W32) (leader : Nat) (loss : Bool) (p : ModPlan) (d : Domain) :
    (s.stageEpoch e leader loss p d).clk = s.clk ∧ (s.stageEpoch e leader loss p d).pending = s.pending := by
  refine ⟨?_, ?_⟩ <;> (unfold State.stageEpoch; simp)
@[simp] theorem State.abandonIssue_keeps (s : State) (i : Issue) :
    (s.abandonIssue i).mem = s.mem ∧ (s.abandonIssue i).clk = s.clk ∧ (s.abandonIssue i).pending = s.pending := by
  refine ⟨?_, ?_, ?_⟩ <;> (unfold State.abandonIssue; simp)
@[simp] theorem State.addWork_keeps (s : State) (w : Work) (req : Option (ReqSrc × W16 × W16)) :
    (s.addWork w req).mem = s.mem ∧ (s.addWork w req).clk = s.clk ∧ (s.addWork w req).pending = s.pending := by
  refine ⟨?_, ?_, ?_⟩ <;> (unfold State.addWork; simp)
@[simp] theorem State.afterAbandon_keeps (s : State) (i : Issue) (st : Option Status) :
    (s.afterAbandon i st).mem = s.mem ∧ (s.afterAbandon i st).clk = s.clk ∧ (s.afterAbandon i st).pending = s.pending := by
  refine ⟨?_, ?_, ?_⟩ <;> (unfold State.afterAbandon; dsimp only; repeat' (first | (split <;> try simp) | simp))
@[simp] theorem State.sendGo_keeps (s : State) (i : Issue) (apply : W64) :
    (s.sendGo i apply).mem = s.mem ∧ (s.sendGo i apply).clk = s.clk ∧ (s.sendGo i apply).pending = s.pending := by
  refine ⟨?_, ?_, ?_⟩ <;> (unfold State.sendGo; simp)
@[simp] theorem State.holdGo_keeps (s : State) (apply : W64) :
    (s.holdGo apply).mem = s.mem ∧ (s.holdGo apply).clk = s.clk ∧ (s.holdGo apply).pending = s.pending := by
  refine ⟨?_, ?_, ?_⟩ <;> (unfold State.holdGo; dsimp only; repeat' (first | (split <;> try simp) | simp))
@[simp] theorem State.firstGo_keeps (s : State) (i : Issue) :
    (s.firstGo i).mem = s.mem ∧ (s.firstGo i).clk = s.clk ∧ (s.firstGo i).pending = s.pending := by
  refine ⟨?_, ?_, ?_⟩ <;> (unfold State.firstGo; simp)
@[simp] theorem State.markReady_keeps (s : State) (i : Issue) (m : Nat) :
    (s.markReady i m).mem = s.mem ∧ (s.markReady i m).clk = s.clk ∧ (s.markReady i m).pending = s.pending := by
  refine ⟨?_, ?_, ?_⟩ <;> (unfold State.markReady; simp)
@[simp] theorem State.takeWork_keeps (s : State) (w : Work) (req : Option (ReqSrc × W16 × W16)) :
    (s.takeWork w req).mem = s.mem ∧ (s.takeWork w req).clk = s.clk ∧ (s.takeWork w req).pending = s.pending := by
  refine ⟨?_, ?_, ?_⟩ <;> (unfold State.takeWork; simp)
@[simp] theorem State.preempt_keeps (s : State) :
    (s.preempt).mem = s.mem ∧ (s.preempt).clk = s.clk ∧ (s.preempt).pending = s.pending := by
  refine ⟨?_, ?_, ?_⟩ <;> (unfold State.preempt; repeat' (first | (split <;> try simp) | simp))
@[simp] theorem State.sendPrepare_keeps (s : State) (m : Nat) (e : W32) (loss : Bool) (p : ModPlan) (d : Domain) :
    (s.sendPrepare m e loss p d).mem = s.mem ∧ (s.sendPrepare m e loss p d).clk = s.clk ∧ (s.sendPrepare m e loss p d).pending = s.pending := by
  refine ⟨?_, ?_, ?_⟩ <;> (unfold State.sendPrepare; simp)
@[simp] theorem State.issueEpoch_keeps (s : State) (w : Work) (req : Option (ReqSrc × W16 × W16)) (e : W32) (d : Domain) :
    (s.issueEpoch w req e d).clk = s.clk ∧ (s.issueEpoch w req e d).pending = s.pending := by
  refine ⟨?_, ?_⟩ <;> (unfold State.issueEpoch; dsimp only; repeat' (first | (split <;> try simp) | simp))
@[simp] theorem State.changeMoved_keeps (s : State) (p : Nat) (old new : Change) (cause : Nat) (reverted : Bool) (e : W32) (a : W64) :
    (s.changeMoved p old new cause reverted e a).mem = s.mem ∧ (s.changeMoved p old new cause reverted e a).clk = s.clk ∧ (s.changeMoved p old new cause reverted e a).pending = s.pending := by
  refine ⟨?_, ?_, ?_⟩ <;> (unfold State.changeMoved; simp)
@[simp] theorem State.syncPart_keeps (s : State) (x : PartPlan) (e : W32) (a : W64) :
    (s.syncPart x e a).mem = s.mem ∧ (s.syncPart x e a).clk = s.clk ∧ (s.syncPart x e a).pending = s.pending := by
  refine ⟨?_, ?_, ?_⟩ <;> (unfold State.syncPart; simp)
@[simp] theorem State.dropPart_keeps (s : State) (p : Nat) :
    (s.dropPart p).mem = s.mem ∧ (s.dropPart p).clk = s.clk ∧ (s.dropPart p).pending = s.pending := by
  refine ⟨?_, ?_, ?_⟩ <;> (unfold State.dropPart; simp)
@[simp] theorem State.releaseForces_keeps (s : State) (old new : ModPlan) (d : Domain) :
    (s.releaseForces old new d).mem = s.mem ∧ (s.releaseForces old new d).clk = s.clk ∧ (s.releaseForces old new d).pending = s.pending := by
  refine ⟨?_, ?_, ?_⟩ <;> (unfold State.releaseForces; simp)
@[simp] theorem State.tellGuarantee_keeps (s : State) (e : W32) (b : Broken) :
    (s.tellGuarantee e b).mem = s.mem ∧ (s.tellGuarantee e b).clk = s.clk ∧ (s.tellGuarantee e b).pending = s.pending := by
  refine ⟨?_, ?_, ?_⟩ <;> (unfold State.tellGuarantee; simp)
@[simp] theorem State.releaseHeld_keeps (s : State) (e : W32) :
    (s.releaseHeld e).mem = s.mem ∧ (s.releaseHeld e).clk = s.clk ∧ (s.releaseHeld e).pending = s.pending := by
  refine ⟨?_, ?_, ?_⟩ <;> (unfold State.releaseHeld; simp)
@[simp] theorem State.syncClasses_keeps (s : State) (cs : Table (Nat × Nat)) :
    (s.syncClasses cs).mem = s.mem ∧ (s.syncClasses cs).clk = s.clk ∧ (s.syncClasses cs).pending = s.pending := by
  refine ⟨?_, ?_, ?_⟩ <;> (unfold State.syncClasses; simp)
@[simp] theorem State.applyEpoch_keeps (s : State) (x : Prep) (a : W64) :
    (s.applyEpoch x a).mem = s.mem ∧ (s.applyEpoch x a).clk = s.clk ∧ (s.applyEpoch x a).pending = s.pending := by
  refine ⟨?_, ?_, ?_⟩ <;> (unfold State.applyEpoch; dsimp only; repeat' (first | (refine State.foldl_mem (fun u a => ?_) _ _) | (refine State.foldl_clk (fun u a => ?_) _ _) | (refine State.foldl_pending (fun u a => ?_) _ _) | (split <;> try simp) | simp))
@[simp] theorem State.enterBoot_keeps (s : State) :
    (s.enterBoot).mem = s.mem ∧ (s.enterBoot).clk = s.clk ∧ (s.enterBoot).pending = s.pending := by
  refine ⟨?_, ?_, ?_⟩ <;> (unfold State.enterBoot; simp)
@[simp] theorem State.vinIs_keeps (s : State) (mv : Nat) :
    (s.vinIs mv).mem = s.mem ∧ (s.vinIs mv).clk = s.clk ∧ (s.vinIs mv).pending = s.pending := by
  refine ⟨?_, ?_, ?_⟩ <;> (unfold State.vinIs; simp)
@[simp] theorem State.measureVin_keeps (s : State) (mv : Nat) :
    (s.measureVin mv).mem = s.mem ∧ (s.measureVin mv).clk = s.clk ∧ (s.measureVin mv).pending = s.pending := by
  refine ⟨?_, ?_, ?_⟩ <;> (unfold State.measureVin; simp)
@[simp] theorem State.supplyGone_keeps (s : State) :
    (s.supplyGone).mem = s.mem ∧ (s.supplyGone).clk = s.clk ∧ (s.supplyGone).pending = s.pending := by
  refine ⟨?_, ?_, ?_⟩ <;> (unfold State.supplyGone; simp)
@[simp] theorem State.strapChange_keeps (s : State) (addr : BitVec 12) (addrp side recoveryN : Bool) :
    (s.strapChange addr addrp side recoveryN).mem = s.mem ∧ (s.strapChange addr addrp side recoveryN).clk = s.clk ∧ (s.strapChange addr addrp side recoveryN).pending = s.pending := by
  refine ⟨?_, ?_, ?_⟩ <;> (unfold State.strapChange; simp)
@[simp] theorem State.presentHigh_keeps (s : State) :
    (s.presentHigh).mem = s.mem ∧ (s.presentHigh).clk = s.clk ∧ (s.presentHigh).pending = s.pending := by
  refine ⟨?_, ?_, ?_⟩ <;> (unfold State.presentHigh; simp)
@[simp] theorem State.afterSequence_keeps (s : State) (c : Byte) :
    (s.afterSequence c).mem = s.mem ∧ (s.afterSequence c).clk = s.clk ∧ (s.afterSequence c).pending = s.pending := by
  refine ⟨?_, ?_, ?_⟩ <;> (unfold State.afterSequence; simp)
@[simp] theorem State.faultRestart_keeps (s : State) (tdie : W16) :
    (s.faultRestart tdie).mem = s.mem ∧ (s.faultRestart tdie).clk = s.clk ∧ (s.faultRestart tdie).pending = s.pending := by
  refine ⟨?_, ?_, ?_⟩ <;> (unfold State.faultRestart; simp)
@[simp] theorem State.railOff5_keeps (s : State) (rail : Nat) :
    (s.railOff5 rail).mem = s.mem ∧ (s.railOff5 rail).clk = s.clk ∧ (s.railOff5 rail).pending = s.pending := by
  refine ⟨?_, ?_, ?_⟩ <;> (unfold State.railOff5; simp)
@[simp] theorem State.temps_keeps (s : State) (tdie tinlet : W16) :
    (s.temps tdie tinlet).mem = s.mem ∧ (s.temps tdie tinlet).clk = s.clk ∧ (s.temps tdie tinlet).pending = s.pending := by
  refine ⟨?_, ?_, ?_⟩ <;> (unfold State.temps; simp)
@[simp] theorem State.firmwareStart_keeps (s : State) (fell : Option (Nat × W32)) :
    (s.firmwareStart fell).mem = s.mem ∧ (s.firmwareStart fell).clk = s.clk ∧ (s.firmwareStart fell).pending = s.pending := by
  refine ⟨?_, ?_, ?_⟩ <;> (unfold State.firmwareStart; dsimp only; repeat' (first | (split <;> try simp) | simp))
@[simp] theorem State.trialStarts_keeps (s : State) :
    (s.trialStarts).mem = s.mem ∧ (s.trialStarts).clk = s.clk ∧ (s.trialStarts).pending = s.pending := by
  refine ⟨?_, ?_, ?_⟩ <;> (unfold State.trialStarts; simp)
@[simp] theorem State.loadConfig_keeps (s : State) :
    (s.loadConfig).mem = s.mem ∧ (s.loadConfig).clk = s.clk ∧ (s.loadConfig).pending = s.pending := by
  refine ⟨?_, ?_, ?_⟩ <;> (unfold State.loadConfig; dsimp only; repeat' (first | (split <;> try simp) | simp))
@[simp] theorem State.prepareWork_keeps (s : State) :
    (s.prepareWork).clk = s.clk ∧ (s.prepareWork).pending = s.pending := by
  refine ⟨?_, ?_⟩ <;> (unfold State.prepareWork; simp)
@[simp] theorem State.leaveBypass_keeps (s : State) :
    (s.leaveBypass).mem = s.mem ∧ (s.leaveBypass).clk = s.clk ∧ (s.leaveBypass).pending = s.pending := by
  refine ⟨?_, ?_, ?_⟩ <;> (unfold State.leaveBypass; simp)
@[simp] theorem State.enterRecovery_keeps (s : State) (cause : Nat) :
    (s.enterRecovery cause).mem = s.mem ∧ (s.enterRecovery cause).clk = s.clk ∧ (s.enterRecovery cause).pending = s.pending := by
  refine ⟨?_, ?_, ?_⟩ <;> (unfold State.enterRecovery; simp)
@[simp] theorem State.fallBack_keeps (s : State) :
    (s.fallBack).mem = s.mem ∧ (s.fallBack).clk = s.clk ∧ (s.fallBack).pending = s.pending := by
  refine ⟨?_, ?_, ?_⟩ <;> (unfold State.fallBack; simp)
@[simp] theorem State.ledTestOn_keeps (s : State) :
    (s.ledTestOn).mem = s.mem ∧ (s.ledTestOn).clk = s.clk ∧ (s.ledTestOn).pending = s.pending := by
  refine ⟨?_, ?_, ?_⟩ <;> (unfold State.ledTestOn; simp)
@[simp] theorem State.writePwr_keeps (s : State) (off : Nat) (v : W32) :
    (s.writePwr off v).mem = s.mem ∧ (s.writePwr off v).clk = s.clk ∧ (s.writePwr off v).pending = s.pending := by
  refine ⟨?_, ?_, ?_⟩ <;> (unfold State.writePwr; dsimp only; repeat' (first | (split <;> try simp) | simp))
@[simp] theorem State.setStep_keeps (s : State) (at_ step : W64) :
    (s.setStep at_ step).mem = s.mem ∧ (s.setStep at_ step).clk = s.clk ∧ (s.setStep at_ step).pending = s.pending := by
  refine ⟨?_, ?_, ?_⟩ <;> (unfold State.setStep; simp)
@[simp] theorem State.setTimeState_keeps (s : State) (st : BitVec 2) :
    (s.setTimeState st).mem = s.mem ∧ (s.setTimeState st).clk = s.clk ∧ (s.setTimeState st).pending = s.pending := by
  refine ⟨?_, ?_, ?_⟩ <;> (unfold State.setTimeState; simp)
@[simp] theorem State.setPtp_keeps (s : State) (p : Nat) (x : PtpPort) :
    (s.setPtp p x).mem = s.mem ∧ (s.setPtp p x).clk = s.clk ∧ (s.setPtp p x).pending = s.pending := by
  refine ⟨?_, ?_, ?_⟩ <;> (unfold State.setPtp; simp)
@[simp] theorem State.regrade_keeps (s : State) :
    (s.regrade).mem = s.mem ∧ (s.regrade).clk = s.clk ∧ (s.regrade).pending = s.pending := by
  refine ⟨?_, ?_, ?_⟩ <;> (unfold State.regrade; simp)
@[simp] theorem State.slew_keeps (s : State) :
    (s.slew).mem = s.mem ∧ (s.slew).clk = s.clk ∧ (s.slew).pending = s.pending := by
  refine ⟨?_, ?_, ?_⟩ <;> (unfold State.slew; simp)
@[simp] theorem State.estimate_keeps (s : State) :
    (s.estimate).mem = s.mem ∧ (s.estimate).clk = s.clk ∧ (s.estimate).pending = s.pending := by
  refine ⟨?_, ?_, ?_⟩ <;> (unfold State.estimate; simp)
@[simp] theorem State.measure_keeps (s : State) (src : Nat) (o : Int) :
    (s.measure src o).mem = s.mem ∧ (s.measure src o).clk = s.clk ∧ (s.measure src o).pending = s.pending := by
  refine ⟨?_, ?_, ?_⟩ <;> (unfold State.measure; simp)
@[simp] theorem State.pulse_keeps (s : State) (n : Nat) :
    (s.pulse n).mem = s.mem ∧ (s.pulse n).clk = s.clk ∧ (s.pulse n).pending = s.pending := by
  refine ⟨?_, ?_, ?_⟩ <;> (unfold State.pulse; simp)
@[simp] theorem State.newGrid_keeps (s : State) (step : W64) :
    (s.newGrid step).mem = s.mem ∧ (s.newGrid step).clk = s.clk ∧ (s.newGrid step).pending = s.pending := by
  refine ⟨?_, ?_, ?_⟩ <;> (unfold State.newGrid; simp)
@[simp] theorem State.stepDone_keeps (s : State) (at_ step : W64) :
    (s.stepDone at_ step).mem = s.mem ∧ (s.stepDone at_ step).clk = s.clk ∧ (s.stepDone at_ step).pending = s.pending := by
  refine ⟨?_, ?_, ?_⟩ <;> (unfold State.stepDone; simp)
@[simp] theorem State.sendNear_keeps (s : State) (p : Port) (payload : List Byte) :
    (s.sendNear p payload).mem = s.mem ∧ (s.sendNear p payload).clk = s.clk ∧ (s.sendNear p payload).pending = s.pending := by
  refine ⟨?_, ?_, ?_⟩ <;> (unfold State.sendNear; repeat' (first | (split <;> try simp) | simp))
@[simp] theorem State.setLinkDelay_keeps (s : State) (p : Port) (x : LinkDelay) :
    (s.setLinkDelay p x).mem = s.mem ∧ (s.setLinkDelay p x).clk = s.clk ∧ (s.setLinkDelay p x).pending = s.pending := by
  refine ⟨?_, ?_, ?_⟩ <;> (unfold State.setLinkDelay; simp)
@[simp] theorem State.awaitSync_keeps (s : State) :
    (s.awaitSync).mem = s.mem ∧ (s.awaitSync).clk = s.clk ∧ (s.awaitSync).pending = s.pending := by
  refine ⟨?_, ?_, ?_⟩ <;> (unfold State.awaitSync; simp)
@[simp] theorem State.candidate_keeps (s : State) (m grade err : Nat) :
    (s.candidate m grade err).mem = s.mem ∧ (s.candidate m grade err).clk = s.clk ∧ (s.candidate m grade err).pending = s.pending := by
  refine ⟨?_, ?_, ?_⟩ <;> (unfold State.candidate; dsimp only; repeat' (first | (split <;> try simp) | simp))
@[simp] theorem State.writeTime_keeps (s : State) (off : Nat) (v : W32) :
    (s.writeTime off v).mem = s.mem ∧ (s.writeTime off v).clk = s.clk ∧ (s.writeTime off v).pending = s.pending := by
  refine ⟨?_, ?_, ?_⟩ <;> (unfold State.writeTime; dsimp only; repeat' (first | (split <;> try simp) | simp))
@[simp] theorem State.takeRequest_keeps (s : State) (src : ReqSrc) (bs : List Byte) :
    (s.takeRequest src bs).mem = s.mem ∧ (s.takeRequest src bs).clk = s.clk ∧ (s.takeRequest src bs).pending = s.pending := by
  refine ⟨?_, ?_, ?_⟩ <;> (unfold State.takeRequest; dsimp only; repeat' (first | (split <;> try simp) | simp))
@[simp] theorem State.setBell_keeps (s : State) (n : Nat) (d : Doorbell) :
    (s.setBell n d).mem = s.mem ∧ (s.setBell n d).clk = s.clk ∧ (s.setBell n d).pending = s.pending := by
  refine ⟨?_, ?_, ?_⟩ <;> (unfold State.setBell; simp)
@[simp] theorem State.submit_keeps (s : State) (n : Fin 512) :
    (s.submit n).mem = s.mem ∧ (s.submit n).clk = s.clk ∧ (s.submit n).pending = s.pending := by
  refine ⟨?_, ?_, ?_⟩ <;> (unfold State.submit; simp)
@[simp] theorem State.releaseBuf_keeps (s : State) (n : Nat) :
    (s.releaseBuf n).mem = s.mem ∧ (s.releaseBuf n).clk = s.clk ∧ (s.releaseBuf n).pending = s.pending := by
  refine ⟨?_, ?_, ?_⟩ <;> (unfold State.releaseBuf; simp)
@[simp] theorem State.fill_keeps (s : State) (n : Nat) (r : Response) (buf : BitVec 2) :
    (s.fill n r buf).mem = s.mem ∧ (s.fill n r buf).clk = s.clk ∧ (s.fill n r buf).pending = s.pending := by
  refine ⟨?_, ?_, ?_⟩ <;> (unfold State.fill; simp)
@[simp] theorem State.closeConn_keeps (s : State) (c : Nat) :
    (s.closeConn c).mem = s.mem ∧ (s.closeConn c).clk = s.clk ∧ (s.closeConn c).pending = s.pending := by
  refine ⟨?_, ?_, ?_⟩ <;> (unfold State.closeConn; simp)
@[simp] theorem State.latchHi_keeps (s : State) (a : Nat) (q : Requester) :
    (s.latchHi a q).mem = s.mem ∧ (s.latchHi a q).clk = s.clk ∧ (s.latchHi a q).pending = s.pending := by
  refine ⟨?_, ?_, ?_⟩ <;> (unfold State.latchHi; simp)
@[simp] theorem State.writeHCtl_keeps (s : State) (v : W32) :
    (s.writeHCtl v).mem = s.mem ∧ (s.writeHCtl v).clk = s.clk ∧ (s.writeHCtl v).pending = s.pending := by
  refine ⟨?_, ?_, ?_⟩ <;> (unfold State.writeHCtl; simp)
@[simp] theorem State.clearMbox_keeps (s : State) :
    (s.clearMbox).mem = s.mem ∧ (s.clearMbox).clk = s.clk ∧ (s.clearMbox).pending = s.pending := by
  refine ⟨?_, ?_, ?_⟩ <;> (unfold State.clearMbox; simp)
@[simp] theorem State.writeHostCtl_keeps (s : State) (a : Nat) (v : W32) :
    (s.writeHostCtl a v).mem = s.mem ∧ (s.writeHostCtl a v).clk = s.clk ∧ (s.writeHostCtl a v).pending = s.pending := by
  refine ⟨?_, ?_, ?_⟩ <;> (unfold State.writeHostCtl; dsimp only; repeat' (first | (split <;> try simp) | simp))
@[simp] theorem State.writeBell_keeps (s : State) (n : Nat) (v : W32) :
    (s.writeBell n v).mem = s.mem ∧ (s.writeBell n v).clk = s.clk ∧ (s.writeBell n v).pending = s.pending := by
  refine ⟨?_, ?_, ?_⟩ <;> (unfold State.writeBell; simp)
@[simp] theorem State.writeReq_keeps (s : State) (n off : Nat) (v : W32) :
    (s.writeReq n off v).mem = s.mem ∧ (s.writeReq n off v).clk = s.clk ∧ (s.writeReq n off v).pending = s.pending := by
  refine ⟨?_, ?_, ?_⟩ <;> (unfold State.writeReq; simp)
@[simp] theorem State.writeCounters_keeps (s : State) (n off : Nat) (v : W32) :
    (s.writeCounters n off v).mem = s.mem ∧ (s.writeCounters n off v).clk = s.clk ∧ (s.writeCounters n off v).pending = s.pending := by
  refine ⟨?_, ?_, ?_⟩ <;> (unfold State.writeCounters; dsimp only; repeat' (first | (split <;> try simp) | simp))
@[simp] theorem State.writeWord_keeps (s : State) (a : Nat) (v : W32) :
    (s.writeWord a v).mem = s.mem ∧ (s.writeWord a v).clk = s.clk ∧ (s.writeWord a v).pending = s.pending := by
  refine ⟨?_, ?_, ?_⟩ <;> (unfold State.writeWord; simp)
@[simp] theorem State.mirrorCmd_keeps (s : State) (r : Request) (extra : List Byte) :
    (s.mirrorCmd r extra).mem = s.mem ∧ (s.mirrorCmd r extra).clk = s.clk ∧ (s.mirrorCmd r extra).pending = s.pending := by
  refine ⟨?_, ?_, ?_⟩ <;> (unfold State.mirrorCmd; simp)
@[simp] theorem State.spread_keeps (s : State) (r : Request) (extra : List Byte) :
    (s.spread r extra).mem = s.mem ∧ (s.spread r extra).clk = s.clk ∧ (s.spread r extra).pending = s.pending := by
  refine ⟨?_, ?_, ?_⟩ <;> (unfold State.spread; simp)
@[simp] theorem State.resetBy_keeps (s : State) (r : Request) (cause : Byte) :
    (s.resetBy r cause).mem = s.mem ∧ (s.resetBy r cause).clk = s.clk ∧ (s.resetBy r cause).pending = s.pending := by
  refine ⟨?_, ?_, ?_⟩ <;> (unfold State.resetBy; simp)
@[simp] theorem State.openTag_keeps (s : State) (r : Request) (part : Nat) :
    (s.openTag r part).mem = s.mem ∧ (s.openTag r part).clk = s.clk ∧ (s.openTag r part).pending = s.pending := by
  refine ⟨?_, ?_, ?_⟩ <;> (unfold State.openTag; simp)
@[simp] theorem State.openFails_keeps (s : State) (r : Request) (part : Nat) :
    (s.openFails r part).mem = s.mem ∧ (s.openFails r part).clk = s.clk ∧ (s.openFails r part).pending = s.pending := by
  refine ⟨?_, ?_, ?_⟩ <;> (unfold State.openFails; simp)
@[simp] theorem State.challenge_keeps (s : State) (r : Request) :
    (s.challenge r).mem = s.mem ∧ (s.challenge r).clk = s.clk ∧ (s.challenge r).pending = s.pending := by
  refine ⟨?_, ?_, ?_⟩ <;> (unfold State.challenge; simp)
@[simp] theorem State.openSession_keeps (r : Request) (s : State) :
    (State.openSession r s).mem = s.mem ∧ (State.openSession r s).clk = s.clk ∧ (State.openSession r s).pending = s.pending := by
  refine ⟨?_, ?_, ?_⟩ <;> (unfold State.openSession; simp)
@[simp] theorem State.setItem_keeps (s : State) (x : Nat × List Byte) :
    (s.setItem x).mem = s.mem ∧ (s.setItem x).clk = s.clk ∧ (s.setItem x).pending = s.pending := by
  refine ⟨?_, ?_, ?_⟩ <;> (unfold State.setItem; dsimp only; repeat' (first | (split <;> try simp) | simp))
@[simp] theorem State.startWork_keeps (s : State) (r : Request) (w : Work) :
    (s.startWork r w).mem = s.mem ∧ (s.startWork r w).clk = s.clk ∧ (s.startWork r w).pending = s.pending := by
  refine ⟨?_, ?_, ?_⟩ <;> (unfold State.startWork; simp)
@[simp] theorem State.orderPart_keeps (s : State) (r : Request) (p : Nat) (st : PState) :
    (s.orderPart r p st).mem = s.mem ∧ (s.orderPart r p st).clk = s.clk ∧ (s.orderPart r p st).pending = s.pending := by
  refine ⟨?_, ?_, ?_⟩ <;> (unfold State.orderPart; dsimp only; repeat' (first | (split <;> try simp) | simp))
@[simp] theorem State.keepStaged_keeps (s : State) (r : Request) :
    (s.keepStaged r).mem = s.mem ∧ (s.keepStaged r).clk = s.clk ∧ (s.keepStaged r).pending = s.pending := by
  refine ⟨?_, ?_, ?_⟩ <;> (unfold State.keepStaged; repeat' (first | (split <;> try simp) | simp))
@[simp] theorem State.loadProgram_keeps (pkgs : List Package) (r : Request) (s : State) :
    (State.loadProgram pkgs r s).mem = s.mem ∧ (State.loadProgram pkgs r s).clk = s.clk ∧ (State.loadProgram pkgs r s).pending = s.pending := by
  refine ⟨?_, ?_, ?_⟩ <;> (unfold State.loadProgram; dsimp only; repeat' (first | (split <;> try simp) | simp))
@[simp] theorem State.openForce_keeps (s : State) (m : ForceMsg) (req : Option (ReqSrc × W16 × W16)) :
    (s.openForce m req).mem = s.mem ∧ (s.openForce m req).clk = s.clk ∧ (s.openForce m req).pending = s.pending := by
  refine ⟨?_, ?_, ?_⟩ <;> (unfold State.openForce; simp)
@[simp] theorem State.clearForce_keeps (r : Request) (s : State) :
    (State.clearForce r s).mem = s.mem ∧ (State.clearForce r s).clk = s.clk ∧ (State.clearForce r s).pending = s.pending := by
  refine ⟨?_, ?_, ?_⟩ <;> (unfold State.clearForce; simp)
@[simp] theorem State.clearAll_keeps (r : Request) (s : State) :
    (State.clearAll r s).mem = s.mem ∧ (State.clearAll r s).clk = s.clk ∧ (State.clearAll r s).pending = s.pending := by
  refine ⟨?_, ?_, ?_⟩ <;> (unfold State.clearAll; dsimp only; repeat' (first | (split <;> try simp) | simp))
@[simp] theorem State.rejected_keeps (s : State) (reason block : Nat) :
    (s.rejected reason block).mem = s.mem ∧ (s.rejected reason block).clk = s.clk ∧ (s.rejected reason block).pending = s.pending := by
  refine ⟨?_, ?_, ?_⟩ <;> (unfold State.rejected; simp)
@[simp] theorem State.setUpdate_keeps (s : State) (u : Option Update) :
    (s.setUpdate u).mem = s.mem ∧ (s.setUpdate u).clk = s.clk ∧ (s.setUpdate u).pending = s.pending := by
  refine ⟨?_, ?_, ?_⟩ <;> (unfold State.setUpdate; simp)
@[simp] theorem State.setSlot_keeps (s : State) (b : Bool) (x : Slot) :
    (s.setSlot b x).mem = s.mem ∧ (s.setSlot b x).clk = s.clk ∧ (s.setSlot b x).pending = s.pending := by
  refine ⟨?_, ?_, ?_⟩ <;> (unfold State.setSlot; simp)
@[simp] theorem State.updateBegin_keeps (s : State) (r : Request) :
    (s.updateBegin r).mem = s.mem ∧ (s.updateBegin r).clk = s.clk ∧ (s.updateBegin r).pending = s.pending := by
  refine ⟨?_, ?_, ?_⟩ <;> (unfold State.updateBegin; dsimp only; repeat' (first | (split <;> try simp) | simp))
@[simp] theorem State.updateData_keeps (s : State) (r : Request) (u : Update) (ops : Nat) (result : List Byte) :
    (s.updateData r u ops result).clk = s.clk ∧ (s.updateData r u ops result).pending = s.pending := by
  refine ⟨?_, ?_⟩ <;> (unfold State.updateData; dsimp only; repeat' (first | (split <;> try simp) | simp))
@[simp] theorem State.commitUpdate_keeps (s : State) :
    (s.commitUpdate).mem = s.mem ∧ (s.commitUpdate).clk = s.clk ∧ (s.commitUpdate).pending = s.pending := by
  refine ⟨?_, ?_, ?_⟩ <;> (unfold State.commitUpdate; simp)
@[simp] theorem State.setLogin_keeps (s : State) (tag : W64) (t : Option Nat) :
    (s.setLogin tag t).mem = s.mem ∧ (s.setLogin tag t).clk = s.clk ∧ (s.setLogin tag t).pending = s.pending := by
  refine ⟨?_, ?_, ?_⟩ <;> (unfold State.setLogin; simp)
@[simp] theorem State.touchLogin_keeps (s : State) (q : ReqSrc) (code : Nat) :
    (s.touchLogin q code).mem = s.mem ∧ (s.touchLogin q code).clk = s.clk ∧ (s.touchLogin q code).pending = s.pending := by
  refine ⟨?_, ?_, ?_⟩ <;> (unfold State.touchLogin; repeat' (first | (split <;> try simp) | simp))
@[simp] theorem State.safetyLog_keeps (s : State) (r : Request) (kind : Nat) (st : Status) (old new : W32) :
    (s.safetyLog r kind st old new).mem = s.mem ∧ (s.safetyLog r kind st old new).clk = s.clk ∧ (s.safetyLog r kind st old new).pending = s.pending := by
  refine ⟨?_, ?_, ?_⟩ <;> (unfold State.safetyLog; simp)
@[simp] theorem State.loadImage_keeps (s : State) (im : List Byte) (part : Nat) :
    (s.loadImage im part).mem = s.mem ∧ (s.loadImage im part).clk = s.clk ∧ (s.loadImage im part).pending = s.pending := by
  refine ⟨?_, ?_, ?_⟩ <;> (unfold State.loadImage; simp)
@[simp] theorem State.writeTrip_keeps (s : State) (off : Nat) (v : W32) :
    (s.writeTrip off v).mem = s.mem ∧ (s.writeTrip off v).clk = s.clk ∧ (s.writeTrip off v).pending = s.pending := by
  refine ⟨?_, ?_, ?_⟩ <;> (unfold State.writeTrip; simp)
@[simp] theorem State.canErrors_keeps (s : State) (c : Nat) (x : Can) :
    (s.canErrors c x).mem = s.mem ∧ (s.canErrors c x).clk = s.clk ∧ (s.canErrors c x).pending = s.pending := by
  refine ⟨?_, ?_, ?_⟩ <;> (unfold State.canErrors; simp)
@[simp] theorem State.canStart_keeps (s : State) :
    (s.canStart).mem = s.mem ∧ (s.canStart).clk = s.clk ∧ (s.canStart).pending = s.pending := by
  refine ⟨?_, ?_, ?_⟩ <;> (unfold State.canStart; simp)
@[simp] theorem State.abortEnds_keeps (s : State) (c i detail : Nat) :
    (s.abortEnds c i detail).mem = s.mem ∧ (s.abortEnds c i detail).clk = s.clk ∧ (s.abortEnds c i detail).pending = s.pending := by
  refine ⟨?_, ?_, ?_⟩ <;> (unfold State.abortEnds; simp)
@[simp] theorem State.canSent_keeps (s : State) (c : Nat) (f : CanFrame) (x : Can) :
    (s.canSent c f x).mem = s.mem ∧ (s.canSent c f x).clk = s.clk ∧ (s.canSent c f x).pending = s.pending := by
  refine ⟨?_, ?_, ?_⟩ <;> (unfold State.canSent; simp)
@[simp] theorem State.detectEnds_keeps (s : State) (c : Nat) (x : Can) (d : CanDetect) (index : Nat) :
    (s.detectEnds c x d index).mem = s.mem ∧ (s.detectEnds c x d index).clk = s.clk ∧ (s.detectEnds c x d index).pending = s.pending := by
  refine ⟨?_, ?_, ?_⟩ <;> (unfold State.detectEnds; simp)
@[simp] theorem State.detectFrame_keeps (s : State) (c : Nat) :
    (s.detectFrame c).mem = s.mem ∧ (s.detectFrame c).clk = s.clk ∧ (s.detectFrame c).pending = s.pending := by
  refine ⟨?_, ?_, ?_⟩ <;> (unfold State.detectFrame; dsimp only; repeat' (first | (split <;> try simp) | simp))
@[simp] theorem State.detectError_keeps (s : State) (c : Nat) :
    (s.detectError c).mem = s.mem ∧ (s.detectError c).clk = s.clk ∧ (s.detectError c).pending = s.pending := by
  refine ⟨?_, ?_, ?_⟩ <;> (unfold State.detectError; dsimp only; repeat' (first | (split <;> try simp) | simp))
@[simp] theorem State.canConflict_keeps (s : State) (c : Nat) (f : CanFrame) :
    (s.canConflict c f).mem = s.mem ∧ (s.canConflict c f).clk = s.clk ∧ (s.canConflict c f).pending = s.pending := by
  refine ⟨?_, ?_, ?_⟩ <;> (unfold State.canConflict; simp)
@[simp] theorem State.writeCan_keeps (s : State) (c off : Nat) (v : W32) :
    (s.writeCan c off v).mem = s.mem ∧ (s.writeCan c off v).clk = s.clk ∧ (s.writeCan c off v).pending = s.pending := by
  refine ⟨?_, ?_, ?_⟩ <;> (unfold State.writeCan; dsimp only; repeat' (first | (split <;> try simp) | simp))
@[simp] theorem State.applyIp_keeps (s : State) :
    (s.applyIp).mem = s.mem ∧ (s.applyIp).clk = s.clk ∧ (s.applyIp).pending = s.pending := by
  refine ⟨?_, ?_, ?_⟩ <;> (unfold State.applyIp; dsimp only; repeat' (first | (split <;> try simp) | simp))
@[simp] theorem State.linkLost_keeps (s : State) (port : Nat) :
    (s.linkLost port).mem = s.mem ∧ (s.linkLost port).clk = s.clk ∧ (s.linkLost port).pending = s.pending := by
  refine ⟨?_, ?_, ?_⟩ <;> (unfold State.linkLost; simp)
@[simp] theorem State.linkGained_keeps (s : State) (port speed : Nat) :
    (s.linkGained port speed).mem = s.mem ∧ (s.linkGained port speed).clk = s.clk ∧ (s.linkGained port speed).pending = s.pending := by
  refine ⟨?_, ?_, ?_⟩ <;> (unfold State.linkGained; simp)
@[simp] theorem State.process_keeps (s : State) (x : Station) (port : Nat) (fr : EthFrame) :
    (s.process x port fr).mem = s.mem ∧ (s.process x port fr).clk = s.clk ∧ (s.process x port fr).pending = s.pending := by
  refine ⟨?_, ?_, ?_⟩ <;> (unfold State.process; simp)
@[simp] theorem State.writeLaneReg_keeps (s : State) (l off : Nat) (v : W32) :
    (s.writeLaneReg l off v).mem = s.mem ∧ (s.writeLaneReg l off v).clk = s.clk ∧ (s.writeLaneReg l off v).pending = s.pending := by
  refine ⟨?_, ?_, ?_⟩ <;> (unfold State.writeLaneReg; simp)
@[simp] theorem State.writeCmp_keeps (s : State) (u off : Nat) (v : W32) :
    (s.writeCmp u off v).mem = s.mem ∧ (s.writeCmp u off v).clk = s.clk ∧ (s.writeCmp u off v).pending = s.pending := by
  refine ⟨?_, ?_, ?_⟩ <;> (unfold State.writeCmp; dsimp only; repeat' (first | (split <;> try simp) | simp))
@[simp] theorem State.writeBlock_keeps (s : State) (n off : Nat) (v : W32) :
    (s.writeBlock n off v).mem = s.mem ∧ (s.writeBlock n off v).clk = s.clk ∧ (s.writeBlock n off v).pending = s.pending := by
  refine ⟨?_, ?_, ?_⟩ <;> (unfold State.writeBlock; simp)
@[simp] theorem State.writeReg_keeps (s : State) (a : Nat) (v : W32) :
    (s.writeReg a v).mem = s.mem ∧ (s.writeReg a v).clk = s.clk ∧ (s.writeReg a v).pending = s.pending := by
  refine ⟨?_, ?_, ?_⟩ <;> (unfold State.writeReg; repeat' (first | (split <;> try simp) | simp))
@[simp] theorem State.meetEcc_keeps (s : State) (a : Nat) :
    (s.meetEcc a).mem = s.mem ∧ (s.meetEcc a).clk = s.clk ∧ (s.meetEcc a).pending = s.pending := by
  refine ⟨?_, ?_, ?_⟩ <;> (unfold State.meetEcc; dsimp only; repeat' (first | (split <;> try simp) | simp))
@[simp] theorem State.meetAll_keeps (s : State) (a n : Nat) :
    (s.meetAll a n).mem = s.mem ∧ (s.meetAll a n).clk = s.clk ∧ (s.meetAll a n).pending = s.pending := by
  refine ⟨?_, ?_, ?_⟩ <;> (unfold State.meetAll; simp)
@[simp] theorem State.healEcc_keeps (s : State) (a n : Nat) :
    (s.healEcc a n).mem = s.mem ∧ (s.healEcc a n).clk = s.clk ∧ (s.healEcc a n).pending = s.pending := by
  refine ⟨?_, ?_, ?_⟩ <;> (unfold State.healEcc; simp)
@[simp] theorem State.privf_keeps (s : State) (core a : Nat) (kind : AccessKind) :
    (s.privf core a kind).mem = s.mem ∧ (s.privf core a kind).clk = s.clk ∧ (s.privf core a kind).pending = s.pending := by
  refine ⟨?_, ?_, ?_⟩ <;> (unfold State.privf; simp)
@[simp] theorem State.countDram_keeps (s : State) (core part a : Nat) (priv : Bool) (kind : AccessKind) :
    (s.countDram core part a priv kind).mem = s.mem ∧ (s.countDram core part a priv kind).clk = s.clk ∧ (s.countDram core part a priv kind).pending = s.pending := by
  refine ⟨?_, ?_, ?_⟩ <;> (unfold State.countDram; simp)

end Sys2Proof.Machine
end

