-- ==== Sys2Proof/Laws/Tables.lean ====
section
/-! SUPPORT. Sparse tables: the entry of a key after an entry has been listed or removed. -/
namespace Sys2Proof.Machine

theorem tfind_tput_self {α : Type} (t : Table α) (k : Nat) (v : α) : tfind (tput t k v) k = some v := by
  induction t with
  | nil => simp [tput, tfind]
  | cons p r ih =>
    obtain ⟨j, u⟩ := p
    simp only [tput]
    split
    · simp [tfind]
    · split
      · simp [tfind]
      · rename_i h1 h2
        simp only [tfind]
        rw [if_neg (by omega), ih]

theorem tfind_tput_ne {α : Type} (t : Table α) {k i : Nat} (v : α) (h : i ≠ k) : tfind (tput t k v) i = tfind t i := by
  induction t with
  | nil => simp [tput, tfind, Ne.symm h]
  | cons p r ih =>
    obtain ⟨j, u⟩ := p
    simp only [tput]
    split
    · simp [tfind, Ne.symm h]
    · split
      · rename_i h1 h2
        subst h2
        simp [tfind, Ne.symm h]
      · simp only [tfind]
        rw [ih]

@[simp] theorem tget_tput_self {α : Type} (d : α) (t : Table α) (k : Nat) (v : α) : tget d (tput t k v) k = v := by
  simp [tget, tfind_tput_self]

theorem tget_tput_ne {α : Type} (d : α) (t : Table α) {k i : Nat} (v : α) (h : i ≠ k) : tget d (tput t k v) i = tget d t i := by
  simp [tget, tfind_tput_ne t v h]

theorem tfind_tput {α : Type} (t : Table α) (k i : Nat) (v : α) : tfind (tput t k v) i = if i = k then some v else tfind t i := by
  by_cases h : i = k
  · subst h
    simp [tfind_tput_self]
  · simp [h, tfind_tput_ne t v h]

theorem tfind_terase_self {α : Type} (t : Table α) (k : Nat) : tfind (terase t k) k = none := by
  induction t with
  | nil => rfl
  | cons p r ih =>
    obtain ⟨j, u⟩ := p
    by_cases h : j = k
    · simp [terase, h, ih]
    · simp [terase, h, tfind, ih]

theorem tfind_terase_ne {α : Type} (t : Table α) {k i : Nat} (h : i ≠ k) : tfind (terase t k) i = tfind t i := by
  induction t with
  | nil => rfl
  | cons p r ih =>
    obtain ⟨j, u⟩ := p
    by_cases hj : j = k
    · subst hj
      simp [terase, tfind, ih, Ne.symm h]
    · simp [terase, hj, tfind, ih]

end Sys2Proof.Machine
end

