-- ==== Sys2Proof/Laws/Lanes.lean ====
section
/-! SUPPORT. What the shared operations of the lane instructions do, said once: an instruction that is ready runs its body; how a retired instruction's state is written; registers. -/
namespace Sys2Proof.Machine

/-! ### Lanes of the state -/

@[simp] theorem State.setLane_lane (s : State) (l : Nat) (x : Lane) : (s.setLane l x).lane l = x := by
  simp [State.setLane, State.lane]

theorem State.setLane_lane_ne (s : State) {l k : Nat} (x : Lane) (h : k ≠ l) : (s.setLane l x).lane k = s.lane k := by
  simp [State.setLane, State.lane, tget_tput_ne _ _ _ h]

theorem State.laneNext_lane (s : State) (l : Nat) (cs : List Nat) (x : Lane) : (s.laneNext l cs x).lane l = x := by
  simp [State.laneNext, State.lane]

theorem State.laneNext_laneOnly (s : State) (l : Nat) (cs : List Nat) (x : Lane) : LaneOnly s (s.laneNext l cs x) l :=
  ⟨rfl, fun k h => by simp [State.laneNext, State.lane, tget_tput_ne _ _ _ h]⟩

/-! ### General registers (R91) -/

@[simp] theorem Lane.setReg_zero (x : Lane) (v : W64) : x.setReg 0 v = x := by simp [Lane.setReg]

theorem Lane.setReg_w (x : Lane) (r : BitVec 5) (v : W64) : x.setReg r v = { x with w := (x.setReg r v).w } := by
  unfold Lane.setReg; split <;> rfl

theorem Lane.reg_setReg (x : Lane) (r q : BitVec 5) (v : W64) :
    (x.setReg r v).reg q = if q = r ∧ r ≠ 0 then v else x.reg q := by
  by_cases hr : r = 0
  · rw [if_neg (fun c => c.2 hr)]
    simp only [Lane.setReg, if_pos hr]
  · simp only [Lane.setReg, if_neg hr]
    by_cases h : q = r
    · subst h
      rw [if_pos ⟨rfl, hr⟩]
      simp only [Lane.reg, if_neg hr, tget_tput_self]
    · rw [if_neg (fun c => h c.1)]
      simp only [Lane.reg]
      rw [tget_tput_ne _ _ _ (fun e => h (BitVec.eq_of_toNat_eq e))]

/-! ### Issue -/

theorem State.issue_ready {s : State} {l : Nat} (h : s.CanIssue l) (body : State → State) : s.issue l body = body s := by
  obtain ⟨_, _, _, _, _, h6, h7⟩ := h
  simp [State.issue, State.runWord, h6, h7]

theorem State.native_ready {s : State} {l : Nat} (h : s.NativeReady l) (body : State → State) : s.native l body = body s := by
  have hi := State.issue_ready h.1 body
  obtain ⟨⟨h1, h2, h3, h4, h5, _, _⟩, hk⟩ := h
  simp [State.native, Lane.issues, Lane.bitLogic, h1, h2, h3, h4, h5, hk, hi]

theorem State.bitIssue_ready {s : State} {l : Nat} (h : s.BitReady l) (body : State → State) : s.bitIssue l body = body s := by
  have hi := State.issue_ready h.1 body
  obtain ⟨⟨h1, h2, h3, h4, h5, _, _⟩, hk⟩ := h
  simp [State.bitIssue, Lane.issues, Lane.bitLogic, h1, h2, h3, h4, h5, hk, hi]

/-- A lane that does not issue leaves the state as it is. -/
theorem State.native_idle {s : State} {l : Nat} (h : (s.lane l).issues = false) (body : State → State) : s.native l body = s := by
  simp [State.native, h]

theorem State.bitIssue_idle {s : State} {l : Nat} (h : (s.lane l).issues = false) (body : State → State) : s.bitIssue l body = s := by
  simp [State.bitIssue, h]

/-! ### Retiring -/

theorem State.retire_eq (s : State) (l : Nat) {f : Lane → Lane} (h : (f (s.lane l)).pc = (s.lane l).pc) :
    s.retire l f = s.ranOn l [] f := by
  simp only [State.retire, State.ranOn, State.laneNext, State.countLane, State.count, State.setLane, State.counts, State.lane] at *
  rw [h]; rfl

theorem State.retire_counted (s : State) (l e : Nat) {f : Lane → Lane} (h : (f (s.lane l)).pc = (s.lane l).pc) :
    (s.countLane l e).retire l f = s.ranOn l [e] f := by
  simp only [State.retire, State.ranOn, State.laneNext, State.countLane, State.count, State.setLane, State.counts, State.lane] at *
  rw [h]; rfl

theorem Lane.setReg_pc (x : Lane) (r : BitVec 5) (v : W64) : (x.setReg r v).pc = x.pc := by
  unfold Lane.setReg; split <;> rfl

theorem State.retireReg_eq (s : State) (l : Nat) (rd : BitVec 5) (v : W64) : s.retireReg l rd v = s.wrote l rd v :=
  State.retire_eq s l (Lane.setReg_pc _ _ _)

theorem State.retireJump_eq (s : State) (l : Nat) (f : Lane → Lane) (target : W64) :
    s.retireJump l f target = s.jumped l f target := rfl

/-! ### Image access -/

/-- A load that may read answers the word of the class view; only the Counter Unit has counted the guard's check. -/
theorem State.imgRead_ready {s : State} {l lii : Nat} {e : LiiEntry} (h : s.ImageReady l lii e) :
    ∃ c, s.imgRead l lii = .word e.tag (s.imageValue l lii e) { s with ctr := c } := by
  obtain ⟨_, h2, h3, h4, h5⟩ := h
  simp only [State.taskClass] at h2
  have hg : s.imgGuard l lii (s.curBank e.cls) .r = (true, s.count ((s.laneAccess l .r (s.curBank e.cls) lii).ev 0x10)) := by
    have : ∀ x, (s.count x).guard = s.guard := fun _ => rfl
    simp only [State.imgGuard, State.guardCheck, this, h4, if_true]
  have he : (s.count ((s.laneAccess l .r (s.curBank e.cls) lii).ev 0x10)).eccOf (imgAddr (s.curBank e.cls) lii) = none := by
    have : ∀ x, (s.count x).memErr = s.memErr := fun _ => rfl
    simpa only [State.eccOf, this] using h5
  refine ⟨(s.count ((s.laneAccess l .r (s.curBank e.cls) lii).ev 0x10)).ctr, ?_⟩
  simp only [State.imgRead, h2, h3, Option.map_some, Option.getD_some, Bool.false_and, Bool.false_eq_true, if_false, hg,
    Bool.not_true, Option.isSome_none, he]
  rfl

/-- A store that may write passes its check; only the Counter Unit has counted it. -/
theorem State.imgStoreOk_writable {s : State} {l lii : Nat} {e : LiiEntry} (h : s.ImageWritable l lii e) :
    ∃ c, s.imgStoreOk l lii = (true, imgAddr (s.nextBank e.cls) lii, { s with ctr := c }) := by
  obtain ⟨_, h2, h3, h4, _⟩ := h
  simp only [State.taskClass] at h2
  have hg : s.guardCheck (s.laneAccess l .w (s.nextBank e.cls) lii) = (true, s.count ((s.laneAccess l .w (s.nextBank e.cls) lii).ev 0x10)) := by
    have : ∀ x, (s.count x).guard = s.guard := fun _ => rfl
    simp only [State.guardCheck, this, h4, if_true]
  refine ⟨(s.count ((s.laneAccess l .w (s.nextBank e.cls) lii).ev 0x10)).ctr, ?_⟩
  simp only [State.imgStoreOk, h2, h3, Option.map_some, Option.getD_some, hg, Bool.not_true, Bool.false_eq_true, if_false, if_true]
  rfl

/-- A bundle with room for a word still has at most 128 words once it is put. -/
theorem bundlePut_room {ws : List BWord} {w : BWord} (h : ws.length < 128 ∨ ws.length ≤ 128 ∧ ∃ x ∈ ws, x.lii = w.lii) :
    (bundlePut ws w).length ≤ 128 := by
  unfold bundlePut
  split
  · simp only [List.length_map]; omega
  · rename_i hn
    rcases h with h | ⟨_, x, hx, hxl⟩
    · simp; omega
    · exact absurd (List.any_eq_true.2 ⟨x, hx, by simp [hxl]⟩) hn

end Sys2Proof.Machine
end

