-- ==== Sys2Proof/Laws/Memory.lean ====
section
/-! SUPPORT. Byte memory: every write keeps the canonical form, a read after a write gives the value written, and every other byte stays. -/
namespace Sys2Proof.Machine

/-! ### The canonical form -/

theorem Mem.wfFrom_mono {lo lo' : Nat} (h : lo ≤ lo') {m : List Host.Cell} (hm : Mem.wfFrom lo' m = true) : Mem.wfFrom lo m = true := by
  cases m with
  | nil => rfl
  | cons p r =>
    obtain ⟨a, b⟩ := p
    simp only [Mem.wfFrom, Bool.and_eq_true, decide_eq_true_eq] at hm ⊢
    exact ⟨⟨Nat.le_trans h hm.1.1, hm.1.2⟩, hm.2⟩

theorem Mem.wfFrom_terase {lo : Nat} {m : List Host.Cell} (h : Mem.wfFrom lo m = true) (k : Nat) : Mem.wfFrom lo (terase m k) = true := by
  induction m generalizing lo with
  | nil => rfl
  | cons p r ih =>
    obtain ⟨a, b⟩ := p
    simp only [Mem.wfFrom, Bool.and_eq_true, decide_eq_true_eq] at h
    simp only [terase]
    split
    · exact Mem.wfFrom_mono (by omega) (ih h.2)
    · simp only [Mem.wfFrom, Bool.and_eq_true, decide_eq_true_eq]
      exact ⟨h.1, ih h.2⟩

theorem Mem.wfFrom_tput {lo : Nat} {m : List Host.Cell} (h : Mem.wfFrom lo m = true) {k : Nat} (hk : lo ≤ k) {v : Byte} (hv : v ≠ 0#8) :
    Mem.wfFrom lo (tput m k v) = true := by
  induction m generalizing lo with
  | nil => simp [tput, Mem.wfFrom, hk, hv]
  | cons p r ih =>
    obtain ⟨a, b⟩ := p
    simp only [Mem.wfFrom, Bool.and_eq_true, decide_eq_true_eq] at h
    simp only [tput]
    split
    · rename_i hlt
      simp only [Mem.wfFrom, Bool.and_eq_true, decide_eq_true_eq]
      exact ⟨⟨hk, hv⟩, ⟨hlt, h.1.2⟩, h.2⟩
    · split
      · rename_i heq
        subst heq
        simp only [Mem.wfFrom, Bool.and_eq_true, decide_eq_true_eq]
        exact ⟨⟨hk, hv⟩, h.2⟩
      · simp only [Mem.wfFrom, Bool.and_eq_true, decide_eq_true_eq]
        exact ⟨h.1, ih h.2 (by omega)⟩

/-- Writing a byte keeps the canonical form. -/
theorem Mem.wf_wr {m : List Host.Cell} (h : Mem.wf m = true) (a : Nat) (b : Byte) : Mem.wf (Mem.wr m a b) = true := by
  unfold Mem.wr
  split
  · exact Mem.wfFrom_terase h a
  · exact Mem.wfFrom_tput h (Nat.zero_le a) ‹_›

/-- Writing bytes keeps the canonical form. -/
theorem Mem.wf_wrN {m : List Host.Cell} (h : Mem.wf m = true) (a : Nat) (bs : List Byte) : Mem.wf (Mem.wrN m a bs) = true := by
  induction bs generalizing m a with
  | nil => exact h
  | cons b r ih => exact ih (Mem.wf_wr h a b) (a + 1)

/-- Dropping entries keeps the canonical form. -/
theorem Mem.wf_filter {m : List Host.Cell} (h : Mem.wf m = true) (p : Host.Cell → Bool) : Mem.wf (m.filter p) = true := by
  have aux : ∀ {lo : Nat} {m : List Host.Cell}, Mem.wfFrom lo m = true → Mem.wfFrom lo (m.filter p) = true := by
    intro lo m
    induction m generalizing lo with
    | nil => exact fun _ => rfl
    | cons q r ih =>
      obtain ⟨a, b⟩ := q
      intro h
      simp only [Mem.wfFrom, Bool.and_eq_true, decide_eq_true_eq] at h
      simp only [List.filter]
      split
      · simp only [Mem.wfFrom, Bool.and_eq_true, decide_eq_true_eq]
        exact ⟨h.1, ih h.2⟩
      · exact Mem.wfFrom_mono (by omega) (ih h.2)
  exact aux h

theorem State.wrMem_wf {s : State} (h : Mem.wf s.mem = true) (a n x : Nat) : Mem.wf (s.wrMem a n x).mem = true := Mem.wf_wrN h a _

theorem State.wrBytes_wf {s : State} (h : Mem.wf s.mem = true) (a : Nat) (bs : List Byte) : Mem.wf (s.wrBytes a bs).mem = true := Mem.wf_wrN h a bs

/-! ### Read after write -/

/-- A byte written reads back, every other one reads as before. -/
theorem Mem.rd_wr (m : List Host.Cell) (a i : Nat) (b : Byte) : Mem.rd (Mem.wr m a b) i = if i = a then b else Mem.rd m i := by
  unfold Mem.wr Mem.rd tget
  by_cases hb : b = 0#8
  · by_cases h : i = a
    · simp [hb, h, tfind_terase_self]
    · simp [hb, h, tfind_terase_ne]
  · by_cases h : i = a <;> simp [hb, h, tfind_tput]

/-- Bytes written from a on: those addresses read what was written, the others as before. -/
theorem Mem.rd_wrN (m : List Host.Cell) (a i : Nat) (bs : List Byte) :
    Mem.rd (Mem.wrN m a bs) i = if a ≤ i ∧ i < a + bs.length then bs.getD (i - a) 0#8 else Mem.rd m i := by
  induction bs generalizing m a with
  | nil => simp only [Mem.wrN, List.length_nil]; rw [if_neg (by omega)]
  | cons b r ih =>
    simp only [Mem.wrN, ih, Mem.rd_wr, List.length_cons]
    by_cases h1 : i = a
    · subst h1
      rw [if_neg (by omega), if_pos rfl, if_pos (by omega)]
      simp
    · by_cases h2 : a + 1 ≤ i ∧ i < a + 1 + r.length
      · rw [if_pos h2, if_pos (by omega)]
        obtain ⟨j, hj⟩ : ∃ j, i - a = j + 1 := ⟨i - (a + 1), by omega⟩
        rw [hj, show i - (a + 1) = j by omega]
        simp
      · rw [if_neg h2, if_neg h1, if_neg (by omega)]

theorem leBytes_length (n x : Nat) : (leBytes n x).length = n := by
  induction n generalizing x with
  | zero => rfl
  | succ n ih => simp [leBytes, ih]

/-- Byte j of a number, least significant first (R6). -/
theorem leBytes_getD (n x j : Nat) (h : j < n) : (leBytes n x).getD j 0#8 = BitVec.ofNat 8 (x / 256 ^ j) := by
  induction n generalizing x j with
  | zero => omega
  | succ n ih =>
    cases j with
    | zero => simp [leBytes]
    | succ j =>
      simp only [leBytes, List.getD_cons_succ]
      rw [ih _ _ (by omega), Nat.div_div_eq_div_mul, Nat.pow_succ, Nat.mul_comm]

/-- What a store of n bytes leaves at each address. -/
theorem State.rd_wrMem (s : State) (a n x i : Nat) :
    Mem.rd (s.wrMem a n x).mem i = if a ≤ i ∧ i < a + n then BitVec.ofNat 8 (x / 256 ^ (i - a)) else Mem.rd s.mem i := by
  unfold State.wrMem
  rw [Mem.rd_wrN, leBytes_length]
  split
  · rw [leBytes_getD _ _ _ (by omega)]
  · rfl

end Sys2Proof.Machine
end

