-- ==== Sys2Proof/Laws/Sha.lean ====
section
/-! SUPPORT. Lengths of the digests: 32 bytes of SHA-256 and HMAC-SHA-256, which an OPEN_SESSION carries (R337). -/
namespace Sys2Proof.Machine

theorem beBytes_length (n x : Nat) : (beBytes n x).length = n := by simp [beBytes, leBytes_length]

theorem rounds256_length : ∀ (ks : List (W32 × W32)) (v : List W32), v.length = 8 → (ks.foldl round256 v).length = 8
  | [], _, h => h
  | k :: ks, v, _ => rounds256_length ks (round256 v k) (by simp [round256])

theorem block256_length (h : List W32) (b : List Byte) (n : h.length = 8) : (block256 h b).length = 8 := by
  simp [block256, n, rounds256_length _ h n]

theorem blocks256_length : ∀ (bs : List (List Byte)) (h : List W32), h.length = 8 → (bs.foldl block256 h).length = 8
  | [], _, n => n
  | b :: bs, h, n => blocks256_length bs (block256 h b) (block256_length h b n)

theorem flatMap_beBytes_length : ∀ ws : List W32, (ws.flatMap fun w => beBytes 4 w.toNat).length = 4 * ws.length
  | [] => rfl
  | w :: ws => by rw [List.flatMap_cons, List.length_append, flatMap_beBytes_length ws, beBytes_length, List.length_cons]; omega

theorem sha256_length (bs : List Byte) : (sha256 bs).length = 32 := by
  simp only [sha256, flatMap_beBytes_length, blocks256_length _ h256 rfl]

theorem hmac256_length (key msg : List Byte) : (hmac256 key msg).length = 32 := sha256_length _

end Sys2Proof.Machine
end

