-- ==== Sys2Proof/WellFormed.lean ====
section
/-! DEFINITION. Which commands carry operands a sender can produce: the ranges the spec gives the numbers that the types leave open. Meanings are defined on every operand; the check says which ones stand for something on the wire. -/
namespace Sys2Proof

/-- Domain positions number 0 to 4095 and a ring has at most 64 positions (R8, R10). -/
def LinkName.wf (l : LinkName) : Bool := l.ring < 64 && l.pos < 64

/-- A frame's payload is a multiple of 4 bytes, at most 1024, and at most 128 on VC2 (R181). -/
def Frame.wf (f : Frame) : Bool :=
  f.payload.length % 4 = 0 && f.payload.length ≤ (if f.typeVc.extractLsb' 4 2 = 2#2 then 128 else 1024)

/-- IDENT carries NR 1 to 64 and NC 2 to 64 (R176, R10). -/
def Ident.wf (i : Ident) : Bool := 1 ≤ i.nr && i.nr ≤ 64 && 2 ≤ i.nc && i.nc ≤ 64

/-- An LII names one of 2^20 words (R20, R66). -/
def liiWf (lii : Nat) : Bool := lii < 2 ^ 20

/-- CAN data has at most 64 bytes, at most 8 in a classical frame (R400). -/
def CanFrame.wf (c : CanFrame) : Bool := c.data.length ≤ (if c.fdf then 64 else 8)

/-- A PTP domain number is one byte (R354). -/
def PtpMsg.wf (m : PtpMsg) : Bool := m.domain < 256

/-- A bundle word's LII (R17). -/
def BWord.wf (w : BWord) : Bool := liiWf w.lii

/-- A bundle holds at most 128 words (R17). -/
def bundleWf (ws : List BWord) : Bool := ws.length ≤ 128 && ws.all BWord.wf

/-- A guard rule table holds at most 4096 rules (R297). -/
def rulesWf (rs : List Rule) : Bool := rs.length ≤ 4096

/-- The operands of a command lie in the ranges the spec gives them. -/
def Instr.wf : Instr → Bool
  | .inputDeadline _ lii => liiWf lii
  | .prepare _ f _ _ => f.wf
  | .pub _ f => f.wf
  | .req _ f m => f.wf && m.payload.length ≤ 4064 && m.origin < 4096 && m.part < 512
  | .rsp _ f m => f.wf && m.payload.length ≤ 4064
  | .sig f | .beacon _ f | .healthReportFrame _ f | .ready _ f | .refuse _ f | .go _ f | .abandon _ f | .migrationDelta _ f _ => f.wf
  | .safeNotice _ f _ _ _ | .echo _ f | .echoAnswer _ f | .sync _ f | .announce _ f | .pdelayReq _ f | .pdelayResp _ f => f.wf
  | .mgmtQueryAnswer _ f => f.wf
  | .ident _ i => i.wf
  | .ringBreak _ f l => f.wf && l.wf
  | .ringMend _ f l => f.wf && l.wf
  | .ringPlan _ f ls _ => f.wf && ls.all LinkName.wf
  | .bundle _ _ ws => bundleWf ws
  | .mirror m => m.words.all BWord.wf && m.part < 512 && m.cls < 8
  | .guardSet _ rs => rulesWf rs
  | .canFrameReceived _ c => c.wf
  | .ptpSync _ m => m.wf
  | .ptpAnnounce _ m _ => m.wf
  | .hostkeySet _ _ key => key.length = 32
  | .safetyLogin _ pw => 1 ≤ pw.length && pw.length ≤ 16
  | .safetyPasswordSet _ pw => 1 ≤ pw.length && pw.length ≤ 16
  | .classSet _ _ period phase => 100 ≤ period && period ≤ 1000000 && period % 10 = 0 && phase < period
  | .varRead _ vids => vids.length ≤ 250
  | .vinApplied mv => mv < 65536
  | .powerLoss mv => mv < 65536
  | _ => true

end Sys2Proof
end

