-- ==== Sys2Proof/Tests/Slice0.lean ====
section
/-! SUPPORT. Tests of this model: for every statement a witness of its hypotheses (`witness_<statement>`), an ill-formed operand for each check of WellFormed, and single steps with results that the spec's tables and worked examples give. -/

namespace Sys2Proof.Tests
set_option Elab.async false
open Sys2Proof.Machine

/-! ### States the tests are about -/

/-- Lane 0 awake in SUP mode at IM offset 0x100. -/
def lane0 : Lane := { Lane.reset with en := true, gated := false, run := true, mode := true, pc := 0x100, task := 0x00800001 }

/-- Lane 0 in a USR pass. -/
def usr0 : Lane := { lane0 with mode := false }

/-- Lane 0 in a bit-logic pass. -/
def bit0 : Lane := { usr0 with kind := true }

/-- An ACTIVE module with nothing placed. -/
def act : State := { State.reset with mod := { Mod.reset with st := .active } }

/-- The same with lane 0 as given. -/
def withLane (x : Lane) : State := { act with lanes := [(0, x)] }

/-- A lane with values in w2 and w3. -/
def regs23 (a b : W64) : State := withLane { lane0 with w := [(2, a), (3, b)] }

/-- What a plain outcome holds. -/
def next (o : Host.Outcome State Fault Refusal) : State := match o with
  | .next t => t
  | _ => State.reset

/-! ### Witnesses of the statements' hypotheses, named after them: steps -/

theorem witness_StepRunsFrontCommand : ({ act with pending := [.bundleCollected] } : State).pending = .bundleCollected :: [] := by decide
theorem witness_IdleStepCountsOneClock : State.reset.pending = [] ∧ act.pending = [] ∧ act.powered = true := by decide
theorem witness_StepKeepsInv : State.reset.Inv ∧ (step State.reset = .next (State.idle State.reset)) := ⟨rfl, rfl⟩
theorem witness_OnlyTheseCommandsWriteMemory : (Instr.laneGateGrant).writesMemory = false ∧ exec .laneGateGrant act = .next (next (exec .laneGateGrant act)) :=
  ⟨by decide, rfl⟩
theorem witness_OnlyTheseCommandsSet : (Instr.laneGateGrant).setsForces = false ∧ (Instr.laneGateGrant).setsClasses = false ∧
    (Instr.laneGateGrant).setsConfig = false ∧ (Instr.laneGateGrant).setsTime = false := by decide
theorem witness_LaneIsolation : (Instr.add 0 1 2 3).laneWord = some (0, false) ∧ (Instr.blLd 255 0).laneWord = some (255, true) ∧
    exec (.add 0 1 2 3) act = .next (next (exec (.add 0 1 2 3) act)) := ⟨by decide, by decide, rfl⟩

/-! ### Lane instructions -/

theorem witness_IntegerResults : (withLane lane0).NativeReady 0 ∧ (withLane usr0).NativeReady 0 ∧ (63#16).toNat < 64 ∧ 64 ≤ (64#16).toNat := by decide
theorem witness_MultiplyDivideResults : (regs23 7 5).NativeReady 0 ∧ ((regs23 7 5).lane 0).alu = false ∧ ((regs23 7 5).lane 0).reg 3 ≠ 0 ∧
    ((regs23 7 0).lane 0).reg 3 = 0 ∧ (regs23 7 0).NativeReady 0 ∧ (regs23 0x8000000000000000 0xFFFFFFFFFFFFFFFF).NativeReady 0 ∧
    ((regs23 0x8000000000000000 0xFFFFFFFFFFFFFFFF).lane 0).reg 2 = 0x8000000000000000 ∧
    ((regs23 0x8000000000000000 0xFFFFFFFFFFFFFFFF).lane 0).reg 3 = 0xFFFFFFFFFFFFFFFF := by decide

/-- Not a code word; the first product out of range, the last one in it; the first value CCHK refuses, the last it takes. -/
theorem witness_CodedInstructionResults : (regs23 1 65521).NativeReady 0 ∧ ((regs23 1 65521).lane 0).alu = false ∧
    ((1 : Int) % 65521 ≠ 0) ∧ (2 ^ 47 * 65521 ^ 2 ≤ ((65521 * 2 ^ 24 : Int) * (65521 * 2 ^ 23)).natAbs) ∧
    (((65521 * 2 ^ 24 : Int) * (65521 * (2 ^ 23 - 1))).natAbs < 2 ^ 47 * 65521 ^ 2) ∧ ((65521 * 2 ^ 24 : Int) % 65521 = 0) ∧
    ((65521 * 2 ^ 47 : Int) < 2 ^ 63 ∧ 2 ^ 47 ≤ ((65521 * 2 ^ 47 : Int) / 65521).natAbs) ∧ (((65521 * (2 ^ 47 - 1) : Int)) / 65521).natAbs < 2 ^ 47 := by decide
theorem witness_FloatResults : (regs23 0x3FF0000000000000 0x4000000000000000).NativeReady 0 ∧
    ((regs23 0x3FF0000000000000 0x4000000000000000).lane 0).alu = false ∧ (1#5) ≠ 0 := by decide

/-- A quiet NaN, a signalling one. -/
theorem witness_FloatNanResults : (0x7FF8000000000000#64).extractLsb' 52 11 = 0x7FF ∧ (0x7FF8000000000000#64).extractLsb' 0 52 ≠ 0 ∧
    (0x7FF8000000000000#64).getLsbD 51 = true ∧ (0x7FF0000000000001#64).extractLsb' 0 52 ≠ 0 ∧ (0x7FF0000000000001#64).getLsbD 51 = false ∧
    (regs23 0x7FF8000000000000 0x7FF0000000000001).NativeReady 0 := by decide

/-- The first and the last byte, half-word, word and double word of DM. -/
theorem witness_LoadsAndStoresOfDm : (withLane lane0).NativeReady 0 ∧ (withLane lane0).DmReady 0 0x20000 8 ∧ (withLane lane0).DmReady 0 0x3FFF8 8 ∧
    (withLane lane0).DmReady 0 0x3FFFC 4 ∧ (withLane lane0).DmReady 0 0x3FFFE 2 ∧ (withLane lane0).DmReady 0 0x3FFFF 1 ∧
    (withLane usr0).DmReady 0 0x3EFF8 8 := by decide

/-- Below DM, above the control registers, beyond L_DWIN in USR mode; misaligned accesses. -/
theorem witness_LaneFaults : (withLane usr0).NativeReady 0 ∧ 0x1FFFF < 0x20000 ∧ inWindow usr0.dwin (0x3F000 - 0x20000) = false ∧ 0x3F000 < 0x40000 ∧
    lane0.mode = true ∧ 0x20001 % 8 ≠ 0 ∧ 0x20002 % 4 ≠ 0 ∧ 0x3FFFF % 2 ≠ 0 ∧
    (0x20000 ≤ (0x20000 : W64).toNat ∧ (withLane { lane0 with pc := 0x20000 } |>.lane 0).issues = true) ∧
    (usr0.mode = false ∧ inWindow usr0.xwin 0x1F000 = false) ∧
    ((withLane lane0).lane 0).fetchOk = true ∧
    ({ withLane lane0 with memErr := [(imAddr 0 0x100 / 8, .uncorrectable)] } : State).eccOf (imAddr 0 0x100) = some .uncorrectable ∧
    ((withLane usr0).lane 0).mode = false ∧ ((withLane usr0).lane 0).fltValid = false ∧
    (let s : State := { withLane lane0 with mem := [(imAddr 0 0x103, 0xFC)] }
     s.imWord 0 = 0xFC000000 ∧ wordDefined false (s.imWord 0) = false ∧ wordDefined true 0xFC000000 = false ∧ s.eccOf (imAddr 0 0x100) = none) := by decide
theorem witness_ControlTransfers : (withLane lane0).NativeReady 0 ∧ ((0x100 : W64) + 4 * (2#21).signExtend 64).toNat % 4 = 0 ∧
    ((regs23 0x200 0x202).lane 0).reg 3 + (0#16).signExtend 64 = 0x202 ∧ (0x202 : W64).toNat % 4 ≠ 0 := by decide
theorem witness_SystemInstructions : lane0.mode = true ∧ lane0.eclass = 0 ∧ usr0.mode = false ∧ (withLane { lane0 with eclass := 1 }).NativeReady 0 ∧
    (withLane { lane0 with eclass := 2 }).NativeReady 0 ∧ (1#5) ≠ 0 := by decide
theorem witness_PassStartAndEnd : (withLane usr0).NativeReady 0 ∧ usr0.mode = false ∧ (withLane bit0).BitReady 0 ∧ (regs23 0x100 0x102).NativeReady 0 ∧
    ((regs23 0x100 0x102).lane 0).mode = true ∧ (((regs23 0x100 0x102).lane 0).reg 2).toNat % 4 = 0 ∧
    (((regs23 0x100 0x102).lane 0).reg 3).toNat % 4 ≠ 0 ∧ (regs23 0x100 0x102).passVoid 0 = false := by decide

/-! ### A placed task: lane 0 runs task 1 of partition 1 in class 0; it reads LII 5 and writes LII 6 (BITS) -/

def entry (lii : Nat) (writer : W32) : LiiEntry :=
  { lii := lii, vid := BitVec.ofNat 32 (0x00800000 + lii), declared := BitVec.ofNat 32 (0x00800000 + lii), tag := .bits, cls := 0, part := 1,
    writer := writer, init := 0, replica := false }

def task1 : TaskPlan :=
  { task := 0x00800001, lane := 0, cls := 0, bitLogic := true, wcetP := 10, wcetC := 10, coded := false, im := 0x100, dm := 0x100, bundle := 8,
    outs := [⟨0x00800006, 0x00800006, 6, .bits, 0, none⟩], ins := [⟨0x00800005, 5, .bits, false, 0⟩], inputDl := 50, endDl := 90, pins := [], pinPair := none,
    subs := [], xwinP := 0x01EF0000, dwinP := 0x01EF0000, xwinC := 0x01EF0000, dwinC := 0x01EF0000, dmDigest := 0, codeP := [], codeC := [], dmP := [],
    dmC := [], relocs := [], arrays := [] }

def plan1 : ModPlan := { emptyPlan with tasks := [task1], lii := [entry 5 0x00800002, entry 6 0x00800001] }

def part1 : Part :=
  { cfg := ⟨1, .s, .winter, ⟨[], 0, [], []⟩, false, false, true, false⟩, order := 0, state := .running, limit := 3, mismatchSafe := true, faultSafe := true,
    pend := none, was := .loaded, entered := [], later := [], pendProfile := none, profEntered := [], owedFrom := [], change := .none, applyAt := 0, window := 0,
    reverting := false, stagedLen := 0, stagedCrc := 0, keepStaged := false }

/-- The module that runs it: pages of both banks granted to the lanes of partition 1, class 0 of 100 µs at its first boundary. -/
def world : State :=
  { act with lanes := [(0, usr0)], pl := { Place.reset with plan := plan1 }, parts := [(1, part1)],
             guard := { Guard.reset with active := [(0, ⟨0x80020C08, 0x4000000, 0x40008FF, 0⟩)] },
             cls := [(0, { Cls.reset with period := 100, bnd := some 0 })] }

def moving (st : MState) (written : Bool) (app : List Package) : State :=
  { State.reset with mod := { Mod.reset with st := st }, nv := { Nv.reset with app := app, moves := [⟨1, [], [⟨task1, true⟩], written⟩] } }
theorem witness_IdleStepCountsOneClock_moves : (moving .active false []).pending = [] ∧ (moving .active false []).mod.st ∉ [MState.off, .bypass, .boot, .recovery] ∧
    (moving .active false []).nv.moves = [⟨1, [], [⟨task1, true⟩], false⟩] ∧ (moving .active true [⟨task1, true⟩]).nv.app.getLast? = some ⟨task1, true⟩ ∧
    State.reset.mod.st ∈ [MState.off, .bypass, .boot, .recovery] := by decide

theorem witness_ImageAccessResults : world.NativeReady 0 ∧ world.ImageReady 0 5 (entry 5 0x00800002) ∧ world.ImageWritable 0 6 (entry 6 0x00800001) ∧
    ((world.lane 0).pass && !(world.lane 0).mode) = false := by decide
/-- LII 5 is a same-class input of task 1, from task 2: not delivered yet, and delivered; both banks readable. -/
def fed (got : List (W32 × W64)) : State :=
  { world with pl := { Place.reset with plan := { plan1 with tasks := [{ task1 with ins := [⟨0x00800005, 5, .bits, true, 0x00800002⟩] }] } }, inNext := got,
               guard := { Guard.reset with active := [(0, ⟨0x80020F0F, 0x4000000, 0x40008FF, 0⟩)] } }
theorem witness_ImageAccessResults_sameClass :
    (fed []).NativeReady 0 ∧ (fed []).liiEntry ((fed []).taskClass 0) 5 = some (entry 5 0x00800002) ∧
    (fed []).sameClass ((fed []).findTask ((fed []).lane 0).task) 5 = some ⟨0x00800005, 5, .bits, true, 0x00800002⟩ ∧
    (((fed []).lane 0).task, ((fed []).lane 0).bnd, 5) ∉ (fed []).delays ∧ (0x00800002, ((fed []).lane 0).bnd) ∉ (fed []).inNext ∧
    (fed []).guard.allows ((fed []).laneAccess 0 .r ((fed []).curBank 0) 5) = true ∧
    (0x00800002, ((fed [(0x00800002, 0)]).lane 0).bnd) ∈ (fed [(0x00800002, 0)]).inNext ∧
    (fed []).guard.allows ((fed []).laneAccess 0 .r ((fed []).nextBank 0) 5) = true ∧ (fed []).eccOf (imgAddr ((fed []).nextBank 0) 5) = none := by decide

/-- The coded pass of a task cycle that has its signature entry already. -/
theorem witness_PassStartAndEnd_void :
    let s : State := { world with lanes := [(0, { lane0 with runPass := true, w := [(2, 0x100)] })], cycles := [{ Cycle.new 1 0 0 with own := [⟨0x00800001, 0, 0, 0, 0⟩] }] }
    s.NativeReady 0 ∧ (s.lane 0).mode = true ∧ ((s.lane 0).reg 2).toNat % 4 = 0 ∧ s.passVoid 0 = true := by decide

def bworld : State := { world with lanes := [(0, { bit0 with bun := { Bundles.reset with pre := [6] } })] }

theorem witness_BitLogicReadsAndStack : bworld.BitReady 0 ∧ bworld.OperandBit 0 0x3FFFFC0 false ∧ bworld.OperandBit 0 0x143 false ∧
    (bworld.lane 0).stack.length < 16 ∧ (bworld.lane 0).stack = [] ∧ (withLane { bit0 with stack := List.replicate 16 true }).BitReady 0 :=
  ⟨by decide, .inl (by decide), .inr ⟨by decide, entry 5 0x00800002, by decide, rfl, by decide⟩, by decide, by decide, by decide⟩
/-- A word of tag INT, read by a bit-logic pass. -/
theorem witness_BitLogicReadsAndStack_tag :
    let e : LiiEntry := { entry 5 0x00800002 with tag := .int }
    let s : State := { bworld with pl := { Place.reset with plan := { plan1 with lii := [e] } } }
    s.BitReady 0 ∧ blLii 0x143 ≠ 0xFFFFF ∧ s.ImageReady 0 (blLii 0x143) e ∧ e.tag ≠ .bits ∧ (s.lane 0).fltValid = false := by decide
theorem witness_BitLogicStoresAndJumps : bworld.BitReady 0 ∧ bworld.OperandWritable 0 0x180 ∧ blLii 0x3FFFFC0 = 0xFFFFF ∧
    (0x40#26).toNat % 64 = 0 ∧ 4 * ((0x40#26).toNat / 64) < 0x20000 ∧ inWindow bit0.xwin (4 * ((0x40#26).toNat / 64)) = true ∧
    inWindow bit0.xwin (4 * ((0x1F0000#26).toNat / 64)) = false ∧ (0x41#26).toNat % 64 ≠ 0 :=
  ⟨by decide, ⟨by decide, by decide, entry 6 0x00800001, by decide⟩, by decide, by decide, by decide, by decide, by decide, by decide⟩
theorem witness_HaltedLaneKeepsState : (Instr.yieldPass 0 0 1 0).laneWord = some (0, false) ∧ (act.lane 0).issues = false ∧
    (((withLane bit0).lane 0).kind && !((withLane bit0).lane 0).mode) ≠ false := by decide

/-! ### Lane events, tests, comparators -/

def tim0 : State := withLane { lane0 with tarm := true, timer := 0 }
def ev0 (i : Nat) (cls : BitVec 13) : State := withLane { lane0 with evpend := BitVec.twoPow 13 i, evmask := 0x1FFF, evclass := cls }
def idle_ (s : State) (t : Timer) : State := { s with timers := [(t, 0)] }

/-- TIMER due at its very instant and one before; in a fast handler's USR pass and outside; the wake queue's classes; a gate request. -/
theorem witness_TimerWakesAndGates :
    ((tim0.lane 0).tarm = true ∧ 0 ≤ (lo32 tim0.now - (tim0.lane 0).timer).toInt) ∧
    ¬(0 ≤ (lo32 tim0.now - (1 : W32)).toInt) ∧
    (let x := { usr0 with eclass := 2, evclass := 0x200 }; x.eclass = 2 ∧ x.evclass.getLsbD 9 = true ∧ x.mode = false) ∧
    (((0 : Nat), Wake.cycle) ∈ [(0, Wake.cycle), (3, .other)]) ∧ (∀ p ∈ [((1 : Nat), Wake.other)], p.2 = .other) ∧ (∀ j ∈ [(2 : Nat), 5], 2 ≤ j) ∧
    (let x := { lane0 with wait := true, gate := true, owed := 1 }
     x.wait = true ∧ x.gate = true ∧ x.takeable = none ∧ x.en = true ∧ x.retire = false ∧ x.owed ≠ 0) ∧ act.pwr.wakeQ = [] ∧ act.pwr.gateQ = [] := by decide

/-- A normal event, the fast TIMER, the highest source. -/
theorem witness_EventEntry : ((ev0 0 0).lane 0).takeable = some 0 ∧ ((ev0 9 0x200).lane 0).takeable = some 9 ∧ ((ev0 12 0x1000).lane 0).takeable = some 12 ∧
    ((ev0 0 0).lane 0).en = true ∧ ((ev0 0 0).lane 0).gated = false ∧ ((ev0 0 0).lane 0).run = true ∧ ((ev0 9 0x200).lane 0).mode = true ∧
    0x1F000 ≤ lane0.evvecN.toNat ∧ lane0.evvecF.toNat ≤ 0x1FFFC ∧ (ev0 0 0).abandonDue 0 0 = false ∧ lane0.takeable = none ∧
    ({ lane0 with evvecF := 0x1EFFC } : Lane).evvecF.toNat < 0x1F000 ∧ lane0.lvlRepl = false ∧ lane0.fltValid = false := by decide
/-- The pass of task 1 is open at its end deadline, 90 µs after its boundary, when the fast TIMER event comes. -/
theorem witness_EventEntry_abandon :
    let s : State := { world with lanes := [(0, { usr0 with evpend := 0x200, evmask := 0x1FFF, evclass := 0x200 })], clk := 90000, time := { Time.reset with cnt := 90000 } }
    (s.lane 0).takeable = some 9 ∧ s.abandonDue 0 9 = true ∧ ({ s with time := { Time.reset with cnt := 89999 } } : State).abandonDue 0 9 = false := by decide
theorem witness_ClockHalvesLatched : (({ lane0 with shLane := some 7 } : Lane).shLane = some 7) ∧ lane0.shLane = none ∧
    (({ lane0 with shSvc := some 7 } : Lane).shSvc = some 7) ∧ lane0.shSvc = none := by decide

def ecc (a : Nat) (e : MemErr) : State := { withLane lane0 with memErr := [(a / 8, e)] }
theorem witness_ScrubbingAndBackgroundTests : (ecc 0 .single).eccOf (imAddr 0 0) = none ∧ (ecc (imAddr 0 0) .single).eccOf (imAddr 0 0) = some .single ∧
    (ecc (dmAddr 0 0x20000) .single).eccOf (dmAddr 0 0x20000) = some .single ∧ (ecc (dmAddr 0 0x20000) .single).eccOf (imAddr 0 0) = none ∧
    inImage 0x4000000000 = true ∧ (ecc 0x4000000000 .single).eccOf 0x4000000000 = some .single ∧
    (ecc 0x4000000000 .uncorrectable).eccOf 0x4000000000 = some .uncorrectable ∧ inDram 0 = true ∧ (ecc 0 .single).eccOf 0 = some .single ∧
    act.due (.scrubLane 0) = true ∧ ({ act with timers := [(.scrubLane 0, 1)] } : State).due (.scrubLane 0) = false ∧ inImage 0x8000000000 = false ∧
    inDram 0x8000000000 = false ∧ (withLane lane0).laneFree 0 = true ∧ lane0.bgtest = false ∧ ({ lane0 with bgtest := true } : Lane).bgtest = true := by decide

def hand (p k : List BWord) (coded : Bool) : HandOver := ⟨3, 0x00800001, 0, 0, p, k, coded, none⟩
def cmp0 (q : List HandOver) : State := { world with cmp := [(0, { Cmp.reset 0 with queue := q })] }
def round (st : CmpStep) : State := { idle_ act .cmpShadow with rnd := { CmpRound.reset with step := some st } }

/-- Two hand-overs of one cluster: the lower lane's is judged; a passing and a failing one; every stage of a test round. -/
theorem witness_ComparatorsJudgeAndAreTested :
    lowestLane ((cmp0 [hand [] [] false, { hand [] [] false with lane := 5 }]).cmpOf 0).queue = some (hand [] [] false) ∧
    (cmp0 []).noComparator 0 (hand [] [] true) = false ∧ ({ cmp0 [] with rnd := { CmpRound.reset with lost := [0] } } : State).noComparator 0 (hand [] [] false) = true ∧
    ((cmp0 []).cmpOf ((cmp0 []).serving 0)).en = true ∧ ((cmp0 []).cmpOf ((cmp0 []).serving 0)).defect = none ∧ (cmp0 []).shadowing 0 = none ∧
    (let s : State := { world with cmp := [(0, { Cmp.reset 0 with en := false })] }; (s.cmpOf (s.serving 0)).en = false) ∧
    (verdictOf none true [⟨6, .int, 2⟩] [⟨6, .int, BitVec.ofNat 64 (2 * 65521)⟩]).1 = .pass ∧ (verdictOf none true [⟨6, .int, 2⟩] []).1 ≠ .pass ∧
    act.rnd.stopped = false ∧ act.rnd.step = none ∧ act.due .cmpRound = true ∧ act.booted = true ∧ State.reset.booted = false ∧ (round .spare).rnd.step = some .spare ∧
    (round (.before 0)).rnd.step = some (.before 0) ∧ (round (.before 15)).expired .cmpShadow = true ∧
    (round (.vectors 15)).rnd.step = some (.vectors 15) ∧ (round (.after 15)).rnd.step = some (.after 15) ∧ (round (.after 0)).rnd.retest = false ∧
    ((round .spare).cmpOf 16).defect = none ∧ ((round (.vectors 15)).cmpOf 15).defect = none ∧ act.expired .cmpShadow = false := by decide

/-! ### One control cycle -/

theorem witness_SlowestClass : world.slowest [0, 1] = some 0 ∧ act.slowest [0, 1] = some 1 ∧ act.slowest [] = none := by decide

/-- A boundary due now, phase 0 and the last phase; a freeze that is complete; a lane that is owed its cycle start, awake and gated. -/
theorem witness_BoundariesAndFreeze :
    (let s : State := { act with cls := [(0, { Cls.reset with period := 100 }), (1, { Cls.reset with period := 100, phase := 99 })] }
     s.joined = true ∧ (s.cls_ 0).period ≠ 0 ∧ (s.cls_ 1).phase < (s.cls_ 1).period ∧ tfind s.time.grid 0 = none ∧ (s.cls_ 0).bnd ≠ some s.now ∧
     s.now.toNat % (1000 * (s.cls_ 0).period) = 1000 * (s.cls_ 0).phase ∧ s.boundaryDue 0 = some (0, true) ∧ (s.cls_ 0).frozen ≠ some 0) ∧
    (let s : State := { withLane { lane0 with owed := 1 } with cls := [(0, { Cls.reset with freezing := some 0 })] }
     (s.cls_ 0).freezing = some 0 ∧ 0 ≤ s.clk ∧ (s.lane 0).owed.getLsbD 0 = true ∧ (s.lane 0).gated = false ∧ (s.lane 1).gated = true) := by decide

def settled1 : State := { world with cycles := [{ Cycle.new 1 0 0 with settled := [(0x00800001, true)] }] }
def late1 : State :=
  { world with clk := 20001, mod := { act.mod with st := .active }, cycles := [{ Cycle.new 1 0 0 with own := [⟨0x00800001, 0, 0, 0, 0⟩] }] }
def wait1 : State :=
  { world with pl := { Place.reset with plan := { plan1 with tasks := [{ task1 with ins := [⟨0x00800007, 7, .int, true, 0x00800002⟩], inputDl := 0 }] } } }
theorem witness_CollectionAndCommit :
    (let s : State := { world with coll := { last := 15, waiting := [hand [⟨6, .bits, 1⟩] [] false] } }
     s.coll.grant = some (hand [⟨6, .bits, 1⟩] [] false) ∧ (s.cls_ 0).bnd = some 0 ∧ (([⟨6, .bits, 1⟩] : List BWord).map (·.lii)).Nodup) ∧
    settled1.mayCommit 1 0 0 = true ∧ world.mayCommit 1 0 0 = false ∧
    (wait1.tasksOf 0 ≠ [] ∧ (wait1.tasksOf 0).all (fun t => wait1.awaits t 7 0) = true ∧ reached (0 + BitVec.ofNat 64 0) wait1.now = true) ∧
    ((late1.cycle 1 0 0).ownOf 0x00800001 = some ⟨0x00800001, 0, 0, 0, 0⟩ ∧ (late1.cycle 1 0 0).partnerOf 0x00800001 = none ∧
     late1.comparing 1 0 0 = true ∧ 0 + 20000 < late1.clk ∧ late1.pair.misses = 0 ∧ (late1.cycle 1 0 0).isSettled 0x00800001 = false ∧
     taskPart 0x00800001 = 1) := by decide

/-! ### Trip I/O, recorder, counters -/

def samp : Sample := { hi := 1, lo := 3, idleLow := 0, inOt := 0, readback := 0, lostIn := 0, lostOut := 0, outHot := 0, clockBad := false }
/-- Output 0 is owned by the checkers and tested, and closed. -/
def pulse0 : State := { act with trip := { Trip.reset with image := List.replicate 135 0 ++ [0xA0], drive := 1, running := true } }
theorem witness_TripInputsAndOutputs : act.trip.running = false ∧ pulse0.trip.running = true ∧ pulse0.due .tripSample = true ∧
    ({ pulse0 with timers := [(.tripSample, 1)] } : State).due .tripSample = false ∧ (idle_ act (.outputRetry 0)).trip.ot.getLsbD 0 = false ∧
    ({ act with trip := { Trip.reset with ot := 1 } } : State).trip.ot.getLsbD 0 = true ∧ act.pulseDue 0 = false ∧ act.trip.pulse = none ∧
    outOwner (cfgOut (List.replicate 135 0 ++ [0xA0]) 0) = 2 ∧ samp.hi.getLsbD 0 = true ∧
    (samp.hi.getLsbD 1 = false ∧ samp.lo.getLsbD 1 = true) ∧ (idle_ act (.outputRetry 0)).expired (.outputRetry 0) = true ∧
    act.expired (.outputRetry 15) = false ∧ pulse0.pulseDue 0 = true ∧
    (let s : State := { idle_ act .testPulseEnd with trip := { Trip.reset with pulse := some 0 } }
     s.trip.pulse = some 0 ∧ s.expired .testPulseEnd = true) ∧
    act.trip.check ≠ act.trip.check + 1 ∧ act.unpaired = false ∧ act.due .safetyDiff = true := by decide

def rec0 : Rec := ⟨0, 0, 0x0202, 1, 1, 0, 0, 0, 0, 0, 0⟩
def bucket0 (run : Option Nat) (drops : Nat) : Bucket := ⟨0x0202, 1, 0, 0, 10, run, drops, 0, 0⟩
def rec1 (run : Option Nat) (drops : Nat) : State :=
  { act with rcd := { Recorder.reset with staging := [(rec0, false)], buckets := [bucket0 run drops],
                                          views := [(1, { View.reset with bound := some 7, snap := some ([], false, 0, 0, 0, 0) })] },
             mb := { Mail.reset with sessions := [⟨7, 1, .mailbox 1, 0, 600, none⟩] },
             ctr := { Ctr.reset with enLo := some 1 } }
theorem witness_RecorderAndCounterUnit : act.powered = true ∧ State.reset.powered = false ∧ (rec1 none 0).rcd.staging = (rec0, false) :: [] ∧
    (rec1 none 0).rcd.lostCnt = 0 ∧ (rec1 none 0).rcd.circ.length < 262144 ∧ (rec1 none 0).rcd.bucket 0x0202 1 = some (bucket0 none 0) ∧
    (rec1 (some 0) 0).rcd.bucket 0x0202 1 = some (bucket0 (some 0) 0) ∧ (bucket0 (some 0) 0).run = some 0 ∧ 0 ≤ act.clk ∧ (bucket0 (some 0) 3).drops ≠ 0 ∧
    (act.view 1).bound = none ∧ ((rec1 none 0).view 1).bound = some 7 ∧ ((rec1 none 0).view 1).snap.isSome = true ∧
    ((rec1 none 0).mb.sessions.any fun y => decide (y.tag = mk64 7 0) && decide (y.part = 1)) = true ∧
    ((rec1 none 0).mb.sessions.all fun y => decide (y.tag ≠ mk64 8 0) || decide (y.part ≠ 1)) = true ∧
    (rec1 none 0).ctr.enLo = some 1 ∧ act.ctr.enLo = none ∧
    ({ rec1 none 0 with rcd := { (rec1 none 0).rcd with lostCnt := 1 } } : State).rcd.lostCnt ≠ 0 ∧ act.rcd.staging = [] ∧ act.rcd.lostCnt = 0 ∧
    act.rcd.bucket 0x0202 1 = none ∧ (rec1 (some 1) 0).rcd.bucket 0x0202 1 = some (bucket0 (some 1) 0) ∧ (rec1 (some 1) 0).clk < 1 ∧
    (let w : View := { View.reset with bound := some 7, data := [(1, rec0), (2, rec0)] }
     (w.ctl 0x100).adv = 1 ∧ (w.ctl 0x100).adv < w.data.length ∧ w.data[(w.ctl 0x100).adv - 1]? = some (1, rec0) ∧ View.reset.data.length ≤ (View.reset.ctl 0).adv ∧
      View.reset.snap = none) := by decide

/-- A request of mailbox 0 in partition 0 with a command and a payload, alone in its queue. -/
def req (cmd : W16) (pl : List Byte) : Request := ⟨.mailbox 0, cmd, 1, 7, 0, true, false, pl, false⟩
def asked (r : Request) (s : State) : State :=
  { s with mb := { s.mb with queue := [r], sessions := [⟨7, r.part, r.src, 0, 600, some 0⟩] } }
def askedOk (cmd : W16) (pl : List Byte) : Bool := (asked (req cmd pl) act).reqOf (.mailbox 0) cmd.toNat == some (req cmd pl)

theorem witness_RecorderAndCounterCommands : askedOk 0x0802 [1, 0, 0, 0] = true ∧ field ([1, 0, 0, 0] : List Byte) 0 4 < 2 ∧
    askedOk 0x0803 [3, 2, 1, 0, 1, 0, 0, 0] = true ∧ modeOk [3, 2, 1, 0, 1, 0, 0, 0] = true ∧ modeOk [3, 2, 0, 0, 1, 0, 0, 0] = false ∧
    askedOk 0x0804 ([63, 3, 0, 0, 0, 0, 0, 0x41] ++ List.replicate 12 0) = true ∧ field ([63, 3, 0, 0, 0, 0, 0, 0x41] : List Byte) 7 1 ∈ evCodes ∧
    askedOk 0x0805 [63, 0, 0xFF, 7] = true ∧ askedOk 0x0805 [64, 0, 0, 0] = true ∧ (63 < 64 ∧ 64 ≤ 64) ∧ (req 0x0802 []).part = 0 := by decide

/-! ### The ring: a domain of one row of four modules, this one module 0, all links UP -/

def ports : Table PortSt := [(0, { PortSt.reset with st := .up }), (1, { PortSt.reset with st := .up }), (2, { PortSt.reset with st := .up }),
  (3, { PortSt.reset with st := .up }), (4, { PortSt.reset with st := .up })]
def onRow (st : MState) : State :=
  { State.reset with mod := { Mod.reset with st := st }, nv := { Nv.reset with nc := 4 }, ring := { Ring.reset with ports := ports },
                     pins := { Pins.reset with bypEW := false, bypNS := false } }
def row : State := onRow .active

/-- A sealed frame of a type for module 0. -/
def frame (ty vc : Byte) (src : W16) (payload : List Byte) : Frame :=
  let f : Frame := { typeVc := ty + 16 * vc, flags := 0, dst := 0, src := src, lenHops := BitVec.ofNat 16 (payload.length / 4), epoch := 0, stamp := 0,
                     payload := payload, crc := 0 }
  { f with crc := f.goodCrc }

def pubFrame : Frame := frame 1 0 2 ([5, 0, 0, 0, 1, 0, 0, 0, 0, 1, 0, 0, 0, 0, 0, 0] : List Byte)
theorem witness_FramesOnArrival : row.onRing .e = true ∧ { pubFrame with lenHops := 0 }.formed = false ∧
    ({ pubFrame with crc := ~~~pubFrame.goodCrc }.formed = true ∧ { pubFrame with crc := ~~~pubFrame.goodCrc }.crc = ~~~{ pubFrame with crc := ~~~pubFrame.goodCrc }.goodCrc) ∧
    (pubFrame.formed = true ∧ pubFrame.crc = pubFrame.goodCrc ∧ row.position pubFrame.srcMod ≠ .adapter ∧ pubFrame.scope = 0 ∧ pubFrame.dstMod = row.module) ∧
    { pubFrame with lenHops := 126 * 512 + 4 }.hops = 126 ∧ (row.Delivers .e pubFrame ∧ pubFrame.ty = 1 ∧ 16 ≤ pubFrame.payload.length) := by decide +kernel


def txOf (hops : Nat) : Tx := ⟨{ pubFrame with lenHops := BitVec.ofNat 16 (hops * 512 + 4) }, none, none⟩
/-- Forwarded at its last but one and its last hop, on a free output with credit. -/
theorem witness_FramesOnArrival_forward : (txOf 126).f.hops = 126 ∧ (txOf 125).f.hops < 126 ∧ row.silent = false ∧ row.portUp .e = true ∧ (row.port .e).txq = [] ∧
    (row.port .e).sending = [] ∧ (∀ v, v < 4 → (row.port .e).mayStart ((txOf 125).f.onVc v) = true) := by decide

def wanting : State :=
  { row with pl := { Place.reset with plan := { emptyPlan with shadowSets := [(5, [])], setHome := [(5, 2)] } } }

/-- A wanted set from its home, from another module, and from a module where no home is named. -/
theorem witness_FramesOnArrival_publication :
    wanting.Delivers .e pubFrame ∧ (wanting.afterFrame .e pubFrame).wantsSet 5 = true ∧ BitVec.ofNat 32 (field pubFrame.payload 0 4) = 5#32 ∧
    ((wanting.afterFrame .e pubFrame).homeOfSet 5 (extNear (wanting.afterFrame .e pubFrame).now pubFrame.stamp)).map
      (fun h => (wanting.afterFrame .e pubFrame).fromHome h pubFrame.srcMod) = some true ∧ field pubFrame.payload 9 1 = 1 ∧
    (wanting.afterFrame .e pubFrame).setRx = [] ∧ ((wanting.afterFrame .e pubFrame).deliveries .e 5 pubFrame.payload.length).1 = none ∧
    (row.afterFrame .e pubFrame).wantsSet 5 = false ∧ row.onRing .e = true ∧ pubFrame.formed = true ∧ pubFrame.crcOk = true ∧ (wanting.afterFrame .e pubFrame).fromHome 4 pubFrame.srcMod = false := by decide +kernel

def farIdent (domain : W16) : Ident := { module := 1, domain := domain, ring := true, port := .w, nr := 1, nc := 4, up := true }
/-- Port E as given. -/
def atE (x : PortSt) : State := { row with ring := { Ring.reset with ports := tput ports 1 x } }
def upE : PortSt := { PortSt.reset with st := .up }

/-- A subscription of partition 1 whose assembly buffers no rule grants the ring. -/
theorem witness_FramesOnArrival_refused :
    let sub : SubPlan := ⟨5, 1, 0, 9, 1000, 0, 2, none, [], []⟩
    let s : State := { wanting with pl := { wanting.pl with plan := { wanting.pl.plan with subs := [sub] } } }
    ((s.afterFrame .e pubFrame).deliveries .e 5 pubFrame.payload.length).1.isSome = true := by decide +kernel

/-- An acceptable and a refused IDENT, in TRAIN and UP; the first and the last lane; IDENT acceptable for just 10 ms. -/
theorem witness_LinkStates :
    row.portLive .e = true ∧ row.identFault .e (farIdent 0) = none ∧ (row.identFault .e (farIdent 1)).isSome = true ∧ (row.port .e).st = .up ∧
    ((atE PortSt.reset).port .e).st ≠ .up ∧ (atE PortSt.reset).portLive .e = true ∧ lanesOf .e = 2 ∧ 3 < lanesOf .pl ∧ 1 ∉ (row.port .e).lock ∧
    (let x := (atE { upE with lock := [0, 1] }).port .e; 1 ∈ x.lock ∧ 1 ∉ x.aligned ∧ x.st = .up) ∧
    (idle_ row (.identUp 1)).expired (.identUp (Port.ix .e)) = true ∧
    (let s := { atE { PortSt.reset with lock := [0, 1], aligned := [1, 0], identOkAt := some 0 } with clk := 10000000 }
     s.portLive .e = true ∧ (∀ l, l < lanesOf .e → l ∈ (s.port .e).lock ∧ l ∈ (s.port .e).aligned) ∧ (s.port .e).st ≠ .up ∧ 0 + 10000000 ≤ s.clk) ∧
    row.due (.identSend (Port.ix .e)) = true ∧ ({ row with timers := [(.identSend 1, 1)] } : State).due (.identSend (Port.ix .e)) = false ∧
    row.due (.alignSend (Port.ix .e) 0) = true ∧ row.portUp .e = true ∧ (row.port .e).txq = [] ∧ act.portUp .e = false ∧ knownBlock .e 0x70 = false ∧ act.portLive .e = false ∧
    (let x : PortSt := { upE with txq := [txOf 1] }; nextTx .e { x with credit := tput x.credit 1 64 } = some (txOf 1) ∧ x.sending = []) := by
  decide +kernel

def linkE : LinkName := { row := true, ring := 0, pos := 0 }
def planned : State := { row with ring := { row.ring with links := [⟨linkE, none, some 0⟩] } }

/-- The last and the last but one repetition of a notice; bypasses of row and column; a link planned whose t0 has come, and none. -/
theorem witness_RingBreaksAndBypasses :
    (let f := frame 7 2 2 [2, 0, 0, 0]
     f.ty = 7 ∧ row.Delivers .w f (some (.notice 0x02 [linkE] 0)) ∧ row.Delivers .w f (some (.notice 0x03 [linkE] 0)) ∧ row.Delivers .w f (some (.notice 0x04 [linkE] 9)) ∧
     (row.afterFrame .w f (some (.notice 0x02 [linkE] 0))).ring.links = [] ∧
     (let d : State := { row with ring := { row.ring with links := [⟨linkE, some 0, none⟩] } }
      d.Delivers .w f (some (.notice 0x02 [linkE] 0)) ∧ ∃ e ∈ (d.afterFrame .w f (some (.notice 0x02 [linkE] 0))).ring.links, e.link = linkE ∧ e.downAt.isSome = true)) ∧
    (let s (n : Nat) : State := { idle_ row (.breakRepeat 0) with ring := { row.ring with repeats := [(0, n, [linkE], 2)] } }
     tfind (s 1).ring.repeats (Port.ix .n) = some (1, [linkE], 2) ∧ (s 2).expired (.breakRepeat (Port.ix .n)) = true) ∧
    row.expired (.breakRepeat 4) = false ∧ row.expired (.breakRepeat 5) = false ∧
    (idle_ row (.bypassOpen true)).expired (.bypassOpen true) = true ∧ (idle_ row (.bypassOpen false)).joined = true ∧
    (idle_ row .bypassClose).expired .bypassClose = true ∧ row.expired .bypassClose = false ∧
    (∀ q ∈ [Port.n, .e, .s, .w], planned.plannedOut q = true ↔ q = .e) ∧ (∀ q ∈ [Port.n, .e, .s, .w], row.plannedOut q = false) := by decide +kernel

def asker : Request := req 0x0302 []
def asking (t : Timer) : State := { idle_ row t with mb := { Mail.reset with fwd := [(asker, 2)] } }
def rspMsg (interim : Bool) : RspMsg := ⟨7, 0x0302, 1, interim, 0, 0, [], none⟩
def reqF : Frame := frame 2 0 2 [0, 0, 0, 0]
def rspF : Frame := frame 3 0 2 [0, 0, 0, 0]
/-- A request of module 2 to module 0: a command, or one that asks for the plan of an epoch. -/
def reqMsg_ (obj : Option W32) : ReqMsg := ⟨2, 7, 0, true, 0x0302, 1, [], obj⟩
def planAsk (e : Nat) : ReqMsg := ⟨2, 0, 0, true, 0, 1, leBytes 4 e, none⟩
/-- A variable read that two homes answer; the frame comes from pair 2. -/
def gathering (homes : List Nat) : State := { row with mb := { Mail.reset with fwd := homes.map fun h => ({ asker with cmd := 0x0704 }, h) } }
/-- Module 0 at an epoch, hosting variable 6, with a record of variable 9 that has moved to pair 2. -/
def moved (e : W32) : State :=
  { row with pl := { Place.reset with epoch := e, plan := { emptyPlan with lii := [{ entry 6 0x00800001 with vid := 6, declared := 6 }] }, fwd := [(9, 2, 9, 1)] } }
theorem witness_ForwardedRequests :
    (let u (s : State) (m : ReqMsg) := s.afterFrame .e reqF (some (.req m))
     row.Delivers .e reqF (some (.req (reqMsg_ none))) ∧ reqF.ty = 2 ∧ (reqMsg_ none).session ≠ 0 ∧ (u row (reqMsg_ none)).mb.rsps = [] ∧ (u row (reqMsg_ none)).mb.queue = [] ∧
     row.Delivers .e reqF (some (.req (planAsk 1))) ∧ ((u row (planAsk 1)).pl.epoch - 1).toInt < 0 ∧ 0 ≤ ((u row (planAsk 0)).pl.epoch - 0).toInt ∧
     (let s : State := { row with mb := { Mail.reset with rsps := [(2, rspMsg false)] } }
      s.Delivers .e reqF (some (.req (reqMsg_ none))) ∧ ((u s (reqMsg_ none)).mb.rsps.find? (fun x => decide (x.1 = 2) && (decide (x.2.session = 7) && decide (x.2.cmd = 0x0302) &&
        decide (x.2.seq = 1)))) = some (2, rspMsg false)) ∧
     (let s : State := { row with mb := { Mail.reset with queue := [{ asker with src := ReqMsg.src (reqMsg_ none) }] } }
      s.Delivers .e reqF (some (.req (reqMsg_ none))) ∧ ∃ x ∈ (u s (reqMsg_ none)).mb.queue, x.src = ReqMsg.src (reqMsg_ none) ∧ x.cmd = (reqMsg_ none).cmd)) ∧
    (let u (s : State) (o : W32) := s.afterFrame .e reqF (some (.req (reqMsg_ (some o))))
     row.Delivers .e reqF (some (.req (reqMsg_ (some 6)))) ∧ ((u (moved (-1)) 6).pl.epoch - reqF.epoch).toInt < 0 ∧ 2 < ((u (moved 3) 6).pl.epoch - reqF.epoch).toInt ∧
     (let d := ((u (moved 2) 6).pl.epoch - reqF.epoch).toInt; 0 ≤ d ∧ d ≤ 2) ∧ (u (moved 2) 6).hosts 6 = true ∧ (u (moved 2) 9).hosts 9 = false ∧
     ((u (moved 2) 9).pl.fwd.find? fun q => decide (q.1 = (9 : W32)) || decide (q.1 = (u (moved 2) 9).resolve 9)) = some (9, 2, 9, 1) ∧ reqF.fwd = false ∧ reqF.hops ≠ 126 ∧
     (u (moved 2) 8).hosts 8 = false ∧ ((u (moved 2) 8).pl.fwd.find? fun q => decide (q.1 = (8 : W32)) || decide (q.1 = (u (moved 2) 8).resolve 8)) = none) := by decide +kernel
theorem witness_ForwardedRequests_answers :
    (let b (i : Bool) : Option Msg := some (.rsp (rspMsg i))
     (asking .held).Delivers .e rspF (b true) ∧ rspF.ty = 3 ∧
     ((asking .held).afterFrame .e rspF (b true)).mb.fwd.find? (fun x => decide (x.1.tag = (rspMsg true).session) && decide (x.1.seq = (rspMsg true).seq) &&
       decide (x.1.cmd = (rspMsg true).cmd)) = some (asker, 2) ∧ asker.cmd ≠ 0x0704 ∧ (rspMsg false).interim = false ∧ row.Delivers .e rspF (b false) ∧
     (row.afterFrame .e rspF (b false)).mb.fwd = []) ∧
    (let a : RspMsg := { rspMsg false with cmd := 0x0704 }
     let v (hs : List Nat) := (gathering hs).afterFrame .e rspF (some (.rsp a))
     (gathering [2]).Delivers .e rspF (some (.rsp a)) ∧ a.status = 0 ∧ (v [2]).mb.fwd = (gathering [2]).mb.fwd ∧
     (∀ x ∈ (v [pairDst 2]).mb.fwd, x.1.key = asker.key → x.2 = pairDst (pairOf rspF.srcMod)) ∧
     (∃ x ∈ (v [pairDst 2, pairDst 4]).mb.fwd, x.2 ≠ pairDst (pairOf rspF.srcMod))) ∧
    (let a : RspMsg := ⟨0, 0, 1, false, 0, 0, leBytes 4 3, some (3, emptyPlan, emptyDomain)⟩
     let s (x : W32) : State := { row with pl := { Place.reset with asked := some x } }
     (s 3).Delivers .e rspF (some (.rsp a)) ∧ ((s 3).afterFrame .e rspF (some (.rsp a))).pl.asked = some 3 ∧ 0 ≤ ((3 : W32) - 3).toInt ∧
     ((s 4).afterFrame .e rspF (some (.rsp a))).pl.asked = some 4 ∧ ((3 : W32) - 4).toInt < 0 ∧ row.Delivers .e rspF (some (.rsp { a with plan := none }))) ∧
    (asking (.reqRetry 7 1)).forwarded 7 1 = some (asker, 2) ∧ (asking (.reqRetry 7 1)).expired (.reqRetry 7 1) = true ∧
    (asking (.reqTimeout 7 1)).expired (.reqTimeout 7 1) = true ∧ row.forwarded 7 1 = none := by decide +kernel

/-! ### Placement -/

/-- A PLACE frame of a kind for an epoch from module src; module 0 with a leader pair. -/
def place_ (kind : Nat) (e : W32) (src : W16) : Frame := frame 5 0 src (placePayload kind false src.toNat e 0 (crc32c []) 0 0)
def led (l : Option Nat) : State := { row with pl := { Place.reset with leader := l } }
def seen2 (a : Nat) : Table HealthView := [(2, ⟨a, 6, 0, 0, 0, [], []⟩), (3, ⟨a, 5, 0, 0, 0, [], []⟩)]
def watching (qs : List Nat) : State :=
  { led (some 0) with clk := 3000000, timers := [(.pairQuery 2, 3000000)],
                      pl := { Place.reset with leader := some 0, health := seen2 0, queries := qs, dom := { emptyDomain with mods := [(2, emptyPlan)] } } }

/-- A beacon to a module without a leader, of its leader pair, of a lower and of a higher pair; silence of just 3 ms and of less. -/
theorem witness_LeaderAndHealth :
    (led (some 0)).leads = true ∧ (led (some 0)).due .beaconSend = true ∧ (led (some 2)).leads = false ∧ row.mod.st = .active ∧ row.stopping = false ∧
    row.due .healthFrame = true ∧
    (row.Delivers .e (place_ 1 0 2) ∧ (place_ 1 0 2).ty = 5 ∧ 24 ≤ (place_ 1 0 2).payload.length ∧ placeKind (place_ 1 0 2) = 1 ∧
     (row.afterFrame .e (place_ 1 0 2)).pl.leader = none) ∧
    ((led (some 2)).Delivers .e (place_ 1 0 3) ∧ ((led (some 2)).afterFrame .e (place_ 1 0 3)).pl.leader = some 2 ∧ pairOf 3 ≤ 2 ∧
     ((led (some 2)).afterFrame .e (place_ 1 0 3)).pl.prep = none) ∧
    ((led (some 0)).Delivers .e (place_ 1 0 2) ∧ ((led (some 0)).afterFrame .e (place_ 1 0 2)).pl.leader = some 0 ∧ 0 < pairOf 2) ∧
    (let s : State := { led (some 2) with clk := 3000000, pl := { Place.reset with leader := some 2, lastBeacon := some 0 } }
     s.leads = false ∧ s.armed .leaderQuery = false ∧ s.pl.leader = some 2 ∧ 3000000 ≤ s.clk - 0 ∧ ({ s with clk := 2999999 } : State).clk - 0 < 3000000) ∧
    (let s := idle_ (led (some 2)) .leaderQuery
     s.expired .leaderQuery = true ∧ ({ s.disarm .leaderQuery with pl := { s.pl with health := terase (terase s.pl.health 2) 3 } }).elect = some 0) ∧
    (let s : State := { led (some 2) with timers := [(.leaderQuery, 5)] }
     s.Delivers .e (frame 6 0 2 [0, 0, 0, 0]) ∧ (s.afterFrame .e (frame 6 0 2 [0, 0, 0, 0])).armed .leaderQuery = true) ∧
    ((watching []).leads = true ∧ 2 ∈ (watching []).pairs ∧ 2 ≠ pairOf (watching []).module ∧ (tfind (watching []).pl.dom.mods 2).isSome = true ∧
     ((watching []).pl.health.all fun h => decide (3000000 ≤ (watching []).clk - h.2.at_)) = true ∧ 2 ∉ (watching []).pl.queries ∧
     2 ∈ (watching [2]).pl.queries ∧ (watching [2]).expired (.pairQuery 2) = true) := by decide +kernel

/-- The leader's pair is elected, no pair is, another pair is; a BEACON of a newer epoch, one after 3 ms of silence, one that is not heeded; a module without a leader in silence, with a pair to elect and with none. -/
theorem witness_LeaderAndHealth_roles :
    (let s (h : Table HealthView) := { led (some 0) with pl := { Place.reset with leader := some 0, health := h } }
     (s []).elect = some 0 ∧ (s (seen2 0)).elect = some 2 ∧ (s (seen2 0)).due .beaconSend = true ∧ (s []).quorum = false ∧ ({ row with mod := { row.mod with st := .unsynced } } : State).elect = none) ∧
    (row.stopping = false ∧ State.reset.mod.st ≠ .active) ∧
    (let f := place_ 1 1 2; row.Delivers .e f ∧ termNewer (placeEpoch f) (row.afterFrame .e f).pl.epoch = true ∧ (row.afterFrame .e f).pl.prep = none ∧
     termNewer (placeEpoch (place_ 1 0 2)) 0 = false) ∧
    (let s (b : Nat) : State := { led (some 4) with clk := 3000000, pl := { Place.reset with leader := some 4, lastBeacon := some b, health := seen2 0 } }
     (s 0).Delivers .e (place_ 1 0 2) ∧ ((s 0).afterFrame .e (place_ 1 0 2)).pl.lastBeacon = some 0 ∧ ((s 0).afterFrame .e (place_ 1 0 2)).leads = false ∧
     3000000 ≤ ((s 0).afterFrame .e (place_ 1 0 2)).clk - 0) ∧
    (let s : State := { led (some 0) with pl := { Place.reset with leader := some 0, lastBeacon := some 3000000 }, clk := 3000000 }
     s.Delivers .e (place_ 1 0 2) ∧ (s.afterFrame .e (place_ 1 0 2)).leadsBefore 2 0 = false ∧ (s.afterFrame .e (place_ 1 0 2)).leads = true) ∧
    (let s (st : MState) : State := { onRow st with pl := { Place.reset with leader := none } }
     (s .active).leads = false ∧ (s .active).pl.lastBeacon = none ∧ (s .active).elect = some 0 ∧ (s .synced).elect = none ∧ (s .active).armed .leaderQuery = false) ∧
    (idle_ row .leaderQuery).expired .leaderQuery = true ∧ row.pl.leader = none ∧ 2 ∉ (watching []).pl.gone := by decide +kernel

def report1 : Frame := frame 7 2 1 (1 :: List.replicate 63 0)
theorem frame_crcOk (ty vc : Byte) (src : W16) (bs : List Byte) : (frame ty vc src bs).crcOk = true := by
  simp [frame, Frame.crcOk, Frame.goodCrc, Frame.header]
theorem not_stomped (f : Frame) (h : f.crcOk = true) : f.stomped = false := by
  have h : f.crc = f.goodCrc := by simpa [Frame.crcOk] using h
  have n : ∀ x : W32, x ≠ ~~~x := by intro x; bv_omega
  simp [Frame.stomped, h, n]
/-- A sound frame for this module is delivered; its CRC need not be computed. -/
theorem delivers_of (s : State) (p : Port) (f : Frame) (a : s.onRing p = true) (b : f.formed = true) (c : s.foreign f = false) (d : s.atDst f = true)
    (e : f.scope = 0) (h : f.crcOk = true) : s.Delivers p f := by
  have c' : ({ s with ring := { s.ring with nextId := s.ring.nextId + 1 } } : State).foreign f = false := c
  have d' : ({ s with ring := { s.ring with nextId := s.ring.nextId + 1 } } : State).atDst f = true := d
  simp [State.Delivers, State.receiveAs, State.take, State.unicast, State.pairDeliver, a, b, c', d', e, h, not_stomped f h]
theorem report1_delivers : row.Delivers .e report1 :=
  delivers_of _ _ _ (by decide) (by decide) (by decide) (by decide) (by decide) (frame_crcOk _ _ _ _)
theorem witness_LeaderAndHealth_report : row.Delivers .e report1 ∧ report1.ty = 7 ∧ 64 ≤ report1.payload.length ∧ field report1.payload 0 1 = 1 ∧ report1.srcMod = row.partner :=
  ⟨report1_delivers, by decide, by decide, by decide, by decide⟩

def prep1 (go : Option W64) : Prep := ⟨1, 2, false, emptyPlan, emptyDomain, go⟩
def issue1 (ready : List Nat) (go : Option W64) : Issue := ⟨1, .guard, emptyDomain, [0, 2], ready, go, [], none⟩
def agreeing (l : Option Nat) (x : Option Prep) (i : Option Issue) (t : Timer) : State :=
  { idle_ row t with pl := { Place.reset with leader := l, prep := x, issue := i } }
def bad1 : ModPlan := { emptyPlan with tasks := [{ task1 with lane := 256 }] }

/-- PREPARE from the leader and from another pair; READY not yet of all, and of all; GO, ABANDON; the first GO and the last repetition; an epoch issued with quorum and without; an apply instant that has come and one that has not. -/
theorem witness_EpochsAgreedAndApplied :
    (let s := agreeing (some 2) none none .held
     s.Delivers .e (place_ 2 1 2) ∧ placeKind (place_ 2 1 2) = 2 ∧ (s.afterFrame .e (place_ 2 1 2)).pl.leader = some (pairOf (place_ 2 1 2).srcMod) ∧
     crc32c ((place_ 2 1 2).payload.drop 24) = BitVec.ofNat 32 (field (place_ 2 1 2).payload 16 4) ∧
     (s.afterFrame .e (place_ 2 1 2)).pl.prep = none ∧ (s.afterFrame .e (place_ 2 1 2)).planFault emptyPlan = none ∧
     (s.afterFrame .e (place_ 2 1 2)).planFault bad1 ≠ none) ∧
    (let s := agreeing none none none .held; s.Delivers .e (place_ 2 1 2) ∧ (s.afterFrame .e (place_ 2 1 2)).pl.leader ≠ some 2) ∧
    (let s (r : List Nat) := agreeing (some 0) none (some (issue1 r none)) .held
     (s []).Delivers .e (place_ 3 1 2) ∧ placeKind (place_ 3 1 2) = 3 ∧ ((s []).afterFrame .e (place_ 3 1 2)).pl.issue = some (issue1 [] none) ∧
     placeEpoch (place_ 3 1 2) = 1 ∧ (place_ 3 1 2).srcMod ∈ (issue1 [] none).mods ∧ (0 ∈ (issue1 [] none).mods ∧ 0 ∉ (issue1 [] none).ready) ∧
     ((s [0]).afterFrame .e (place_ 3 1 2)).pl.issue = some (issue1 [0] none) ∧ (∀ y ∈ (issue1 [0] none).mods, y = 2 ∨ y ∈ (issue1 [0] none).ready) ∧
     (s []).Delivers .e (place_ 6 1 2) ∧ placeKind (place_ 6 1 2) = 6 ∧ ((s []).afterFrame .e (place_ 6 1 2)).pl.issue = some (issue1 [] none)) := by
  decide +kernel

theorem witness_EpochsAgreedAndApplied_go :
    (let s := agreeing (some 2) (some (prep1 none)) none .held
     s.Delivers .e (place_ 4 1 2) ∧ placeKind (place_ 4 1 2) = 4 ∧ (s.afterFrame .e (place_ 4 1 2)).pl.prep = some (prep1 none) ∧
     (prep1 none).epoch = placeEpoch (place_ 4 1 2) ∧ s.Delivers .e (place_ 5 1 2) ∧ placeKind (place_ 5 1 2) = 5 ∧
     (s.afterFrame .e (place_ 5 1 2)).pl.prep = some (prep1 none)) ∧
    (let s := agreeing (some 0) none (some (issue1 [] (some 500000))) .goRepeat
     s.pl.issue = some (issue1 [] (some 500000)) ∧ s.expired .goRepeat = true ∧ 500000 ≤ since 500000 s.now ∧ since 499999 s.now < 500000) ∧
    ((agreeing none (some (prep1 none)) none .prepared).expired .prepared = true ∧ (agreeing none none (some (issue1 [] none)) .readyWait).expired .readyWait = true) ∧
    (let s := { agreeing none (some (prep1 (some 0))) none .goCompare with ring := { Ring.reset with ports := ports } }
     s.expired .goCompare = true ∧ s.portUp .pl = true ∧ s.unpaired = false ∧ s.stopping = false ∧ (agreeing none (some (prep1 none)) none .held).portUp .pl = true) := by
  decide +kernel

theorem witness_EpochsAgreedAndApplied_issue :
    (let s (h : Table HealthView) : State := { led (some 0) with pl := { Place.reset with leader := some 0, todo := [(.guard, none)], health := h } }
     (s []).leads = true ∧ (s []).nextWork = some (.guard, none) ∧ (s []).quorum = false ∧ (s (seen2 0)).quorum = true ∧ (s []).pl.issue = none ∧
     (s []).pl.prep = none ∧ (led (some 0)).nextWork = none ∧
     (match { s (seen2 0) with pl := { (s (seen2 0)).pl with todo := [] } }.computePlan .guard 1 with
      | .inr d => ({ s (seen2 0) with pl := { (s (seen2 0)).pl with todo := [] } }.planFault ((tfind d.mods (s []).module).getD emptyPlan)).isNone
      | .inl _ => false) = true) ∧
    (let s := agreeing none (some (prep1 (some 0))) none .held; s.pl.prep = some (prep1 (some 0)) ∧ reached 0 s.now = true ∧ reached 1 s.now = false) := by
  decide +kernel

/-- A PREPARE with its body: sound, of one fragment and of two; an epoch with GO already prepared; a plan that this module refuses. -/
theorem witness_EpochsAgreedAndApplied_prepare :
    let b (m : ModPlan) : Option Msg := some (.plan 1 false m emptyDomain)
    let f := place_ 2 1 2
    let two := frame 5 0 2 (placePayload 2 false 2 1 0 0 0 0 |>.set 14 2)
    (let s := agreeing (some 2) none none .held
     let u := s.afterFrame .e f (b emptyPlan)
     s.Delivers .e f (b emptyPlan) ∧ u.pl.leader = some (pairOf f.srcMod) ∧ u.fragments f = (some (f.payload.drop 24), (u.fragments f).2) ∧ f.payload.drop 24 = [] ∧
     crc32c [] = BitVec.ofNat 32 (field f.payload 16 4) ∧ (u.fragments f).2.pl.prep = none ∧ (u.fragments f).2.planFault emptyPlan = none ∧
     (u.fragments f).2.planFault bad1 = some 3 ∧ s.Delivers .e two (b emptyPlan) ∧ ((s.afterFrame .e two (b emptyPlan)).fragments two).1 = none ∧
     crc32c [] ≠ BitVec.ofNat 32 (field (two.payload.set 16 1) 16 4)) ∧
    (let s := agreeing (some 2) (some { prep1 (some 0) with epoch := 7 }) none .held
     s.Delivers .e f (b emptyPlan) ∧ ∃ y, ((s.afterFrame .e f (b emptyPlan)).fragments f).2.pl.prep = some y ∧ y.epoch ≠ placeEpoch f ∧ y.go.isSome = true) ∧
    (agreeing none none none .held).Delivers .e f (b emptyPlan) := by decide +kernel

/-- A pair found lost while an epoch is without its GO, and with it; work whose plan fails a check. -/
theorem witness_EpochsAgreedAndApplied_loss :
    (let s (go : Option W64) : State := { led (some 0) with pl := { Place.reset with leader := some 0, todo := [(.loss [2], none)], health := seen2 0, issue := some (issue1 [] go) } }
     (s none).leads = true ∧ (s none).quorum = true ∧ (s none).pl.issue = some (issue1 [] none) ∧ (s none).lossesDue ≠ [] ∧ (issue1 [] (some 0)).go.isSome = true) ∧
    (let s : State := { led (some 0) with pl := { Place.reset with leader := some 0, todo := [(.confirm 9, none)], health := seen2 0 } }
     let w : Work := .confirm 9
     s.nextWork = some (w, none) ∧ (match (s.takeWork w none).computePlan ((s.takeWork w none).asOfNow w) ((s.takeWork w none).topEpoch + 1) with | .inl _ => true | .inr _ => false) = true) ∧
    (let x : GoMsg := { epoch := 1, go := some 9 }
     (prep1 none).epoch = x.epoch ∧ x.go = some 9) := by decide +kernel

def migr1 : Migr := ⟨0x00800001, 2, true, 1, false, [], [], [], none, []⟩
def delta1 (n : Nat) (image : Bool) : DeltaMsg := ⟨0x00800001, n, image, true, [(0x00800006, 1)], [(0, 1)], [], false⟩
def moving_ : State := { row with pl := { Place.reset with plan := { emptyPlan with migrIn := [(0x00800001, 2)] }, migr := [migr1], held := [(reqF, 0, row.reqMsg asker none)] } }
def partly (y : Part) : State := { led (some 0) with parts := [(1, y)], timers := [(.revertRetry 1, 0)] }

/-- The first image of a stream, a delta after a gap; a SAFE notice to a RUNNING and to a LOADED partition; a confirm window that has ended and one that has not begun. -/
theorem witness_MigrationAndReverts :
    (moving_.Delivers .e (frame 6 0 2 [0, 0, 0, 0]) ∧ ((moving_.afterFrame .e (frame 6 0 2 [0, 0, 0, 0])).pl.plan.migrIn.find? fun q => decide (q.1 = 0x00800001)) = some (0x00800001, 2) ∧
     pairOf (frame 6 0 2 [0, 0, 0, 0]).srcMod = 2 ∧ (delta1 0 true).complete = true ∧ (delta1 3 false).image = false ∧
     (moving_.afterFrame .e (frame 6 0 2 [0, 0, 0, 0])).pl.migr = [migr1] ∧ migr1.newest ≠ (delta1 3 false).number - 1) ∧
    (moving_.pl.held.filter fun h => decide (h.2.1 ≤ moving_.clk)).length = 1 ∧
    ((partly part1).Delivers .e (frame 6 0 2 [0, 0, 0, 0]) ∧ ((partly part1).afterFrame .e (frame 6 0 2 [0, 0, 0, 0])).part? 1 = some part1 ∧ part1.state = .running ∧ part1.pend = none ∧
     { part1 with state := .loaded }.state ≠ .running) ∧
    (let y : Part := { part1 with change := .unconfirmed, window := 1, applyAt := 0 }
     let s := partly y
     s.part? 1 = some y ∧ s.leads = true ∧ y.windowOver 1000000000 = true ∧ y.reverting = false ∧ s.revertBusy 1 = false ∧ part1.windowOver 0 = false ∧
     s.expired (.revertRetry 1) = true ∧ y.change = .unconfirmed) := by decide +kernel

/-- Deltas that count, with what module 0 holds; an agreement 5 µs before the switch boundary and before that; the orders a SAFE notice can meet. -/
theorem witness_MigrationAndReverts_more :
    (let f := frame 6 0 2 [0, 0, 0, 0]
     let b (n : Nat) (i : Bool) : Option Msg := some (.delta (delta1 n i))
     moving_.Delivers .e f (b 2 false) ∧ (moving_.afterFrame .e f (b 2 false)).pl.migr = [migr1] ∧ migr1.newest = (delta1 2 false).number - 1 ∧
     moving_.Delivers .e f (b 0 true) ∧ (moving_.afterFrame .e f (b 3 false)).pl.migr = [migr1]) ∧
    (let s (now : Nat) : State :=
       { moving_ with clk := now, time := { Time.reset with cnt := BitVec.ofNat 64 now }, cls := [(0, { Cls.reset with period := 100, bnd := some 0 })],
                      pl := { moving_.pl with plan := { moving_.pl.plan with tasks := [task1] }, prep := some (prep1 (some 100000)) } }
     (s 95000).switchNear 0 = true ∧ (s 94999).switchNear 0 = false ∧ ((s 95000).pl.migr.find? fun m => m.incoming && decide (m.task = 0x00800001)) = some migr1 ∧
     migr1.agreed = none ∧ ((s 95000).pl.plan.tasks.find? fun t => decide (t.task = 0x00800001)) = some task1) ∧
    (let f := frame 6 0 2 [0, 0, 0, 0]
     let b : Option Msg := some (.safeNotice 1 5 3)
     (partly part1).Delivers .e f b ∧ ((partly part1).afterFrame .e f b).part? 1 = some part1 ∧ ((partly part1).afterFrame .e f b).part? 2 = none ∧
     (∀ st ∈ [PState.safe, .loaded, .running], ((partly { part1 with pend := some (st, 9, 3) }).afterFrame .e f b).part? 1 = some { part1 with pend := some (st, 9, 3) }) ∧
     since (5 : W64) 9 < 0 ∧ 0 ≤ since (5 : W64) 4 ∧ part1.entered = [] ∧ part1.later = []) ∧
    (let y : Part := { part1 with change := .unconfirmed, reverting := true }; (partly y).part? 1 = some y) ∧ act.part? 1 = none ∧ act.expired (.revertRetry 1) = false := by
  decide +kernel

/-! ### The redundant pair: module 0 of the row, its partner module 1 as a view shows it -/

def view_ (st : BitVec 4) : PartnerView := ⟨st, false, false, false, 0, 0, 0⟩
/-- Module 0 in a state, with a view of the partner, pair data changed and one timer due now. -/
def pairIn (st : MState) (v : Option PartnerView) (f : Pair → Pair) (t : Timer) : State :=
  { idle_ (onRow st) t with pair := f { Pair.reset with view := v } }
def beat (st : Byte) (term : W32) : Heartbeat := ⟨st, term, 0, 0⟩
def echo1 : Frame := frame 6 0 1 [0, 0, 0, 0]
def hand1 (h : W64) (incoming : Bool) (stage : Nat) : Handover := ⟨h, 0, incoming, true, stage⟩

/-- A heartbeat with a newer term and with an older one; JOINING beside an ACTIVE and a joining partner; a due and a missed heartbeat; an echo answered after three misses and after two. -/
theorem witness_HeartbeatsAndRoles_beats :
    act.pairLink = false ∧ row.pairLink = true ∧ row.active = true ∧ ((beat 6 1).flags.setWidth 4 : BitVec 4) = 6 ∧ termNewer 1 row.pair.term = true ∧
    termNewer 0xFFFFFFFF row.pair.term = false ∧
    (onRow .joining).pairLink = true ∧ (onRow .joining).mod.st = .joining ∧ (onRow .joining).preferred = true ∧ (onRow .joining).stopping = false ∧
    ({ onRow .joining with nv := { row.nv with preferOdd := [(0, true)] } } : State).preferred = false ∧
    row.due .hbSend = true ∧ ({ row with mod := { row.mod with stop := .silent } } : State).stopping = true ∧
    (idle_ row .hbMiss).expired .hbMiss = true ∧ row.powered = true ∧ row.paired = true ∧ row.pair.misses = 0 ∧
    (row.Delivers .e echo1 ∧ echo1.ty = 6 ∧ (row.afterFrame .e echo1).stopping = false ∧ (row.afterFrame .e echo1).joined = true) ∧
    (let s := { row with mod := { row.mod with stop := .silent } }; s.Delivers .e echo1 ∧ (s.afterFrame .e echo1).stopping = true) ∧
    (let s (st : MState) (n : Nat) := pairIn st none (fun p => { p with misses := n, firstMiss := some 0 }) .takeover
     (s .synced 3).Delivers .e echo1 ∧ echo1.srcMod = (s .synced 3).partner ∧ 3 ≤ ((s .synced 3).afterFrame .e echo1).pair.misses ∧
     ((s .active 3).afterFrame .e echo1).armed .takeover = true ∧ ((s .active 3).afterFrame .e echo1).pair.echoed = true ∧
     ((s .active 2).afterFrame .e echo1).pair.misses < 3) := by decide +kernel

/-- Every way out of the take-over evaluation, the last miss that still waits and the first that does not; roles proposed, confirmed, refused; the hold of 60 s just over and not over; H reached and not reached. -/
theorem witness_HeartbeatsAndRoles_roles :
    (let s (st : MState) (n : Nat) (echoed q : Bool) := pairIn st none (fun p => { p with misses := n, echoed := echoed, qE := q, qW := q }) .takeover
     (s .synced 3 false true).expired .takeover = true ∧ (s .synced 3 false true).paired = true ∧ (s .synced 3 false true).stopping = false ∧
     (s .synced 3 false true).accounted = true ∧ (s .unsynced 3 false true).accounted = true ∧ (s .active 3 false true).mod.st = .active ∧
     (s .synced 3 true true).pair.echoed = true ∧ (s .synced 2 true true).pair.misses < 3 ∧ (s .synced 3 false false).accounted = false) ∧
    (let s (n : Nat) : State := { pairIn .synced none (fun p => { p with misses := 3, lastHb := some 0 }) .takeover with timers := [(.takeover, 0), (.hbMiss, n)] }
     (s 1000000).expired .takeover = true ∧ (s 1000000).accounted = false ∧ tdue (s 1000000).timers .hbMiss = some 1000000 ∧ 1000000 ≤ 0 + 1000000 ∧
     tdue (s 1000001).timers .hbMiss = some 1000001 ∧ 0 + 1000000 < 1000001) ∧
    (let s := pairIn .joining none id .partnerSilent
     s.expired .partnerSilent = true ∧ s.unpaired = false ∧ s.pair.echoed = false ∧ s.pair.firstMiss = none ∧
     ({ s with nv := { s.nv with positions := [(1, .empty)] } } : State).unpaired = true) ∧
    (let s := pairIn .active (some (view_ 5)) id .held
     s.pairLink = true ∧ s.active = true ∧ s.confirms 0 true = true ∧ (pairIn .active (some (view_ 4)) id .held).confirms 0 true = false) ∧
    (let s := pairIn .synced (some (view_ 6)) (fun p => { p with hand := some (hand1 9 true 0) }) .held
     s.pairLink = true ∧ s.stopping = false ∧ s.pair.hand = some (hand1 9 true 0) ∧ (hand1 9 true 0).h = 9 ∧ s.mod.st = .synced) ∧
    (let s (c : Nat) : State := { pairIn .synced (some (view_ 6)) (fun p => { p with syncedAt := some 0 }) .takeBack with clk := c }
     (s 60000000000).preferred = true ∧ (s 60000000000).due .takeBack = true ∧ (s 60000000000).pair.syncedAt = some 0 ∧
     (s 60000000000).nv.hold * 1000000000 ≤ (s 60000000000).clk - 0 ∧ (s 59999999999).clk - 0 < (s 59999999999).nv.hold * 1000000000 ∧
     (s 60000000000).nv.inhibit = false ∧ (s 60000000000).disputeOpen = false ∧ (s 60000000000).epochSoon = false ∧ (s 60000000000).pair.hand = none) ∧
    (let s (inc : Bool) (h : W64) (g : Nat) := pairIn .synced none (fun p => { p with hand := some (hand1 h inc g) }) .held
     (s true 0 1).pair.hand = some (hand1 0 true 1) ∧ reached (hand1 0 true 1).h (s true 0 1).now = true ∧ (s false 0 1).stopping = false ∧
     reached (hand1 1 true 1).h (s true 1 1).now = false ∧ (hand1 0 true 0).stage ≠ 1) := by decide +kernel

/-- What an ACTIVE module sees: another ACTIVE one, its synced standby again and anew, one that joins; a joining module beside one that joins and beside one that waits; roles that are refused, cancelled and given way. -/
theorem witness_HeartbeatsAndRoles_more :
    (let s (v : BitVec 4) := pairIn .active (some (view_ v)) id .held
     (s 5).pairLink = true ∧ (s 5).stopping = false ∧ (s 5).mod.st = .active ∧ ((s 5).pair.view.map (·.st.toNat)).getD 0 = 5 ∧ ((s 4).pair.view.map (·.st.toNat)).getD 0 ≠ 5 ∧
     (beat 5 0).flags.setWidth 4 = (5#4) ∧ (beat 4 0).flags.setWidth 4 = (4#4) ∧ termNewer 0 row.pair.term = false) ∧
    ((beat 3 0).flags.setWidth 4 = (3#4) ∧ ({ onRow .joining with nv := { row.nv with preferOdd := [(0, true)] } } : State).preferred = false) ∧
    ((onRow .boot).mod.st ≠ .active ∧ (onRow .boot).mod.st ≠ .joining ∧ (onRow .boot).pairLink = true ∧ ({ row with timers := [(.hbSend, 1)] } : State).due .hbSend = false) ∧
    (let s (n : Nat) := pairIn .active none (fun p => { p with misses := n }) .hbMiss
     (s 2).expired .hbMiss = true ∧ (s 2).paired = true ∧ (s 2).mod.st = .active ∧ 2 ≤ (s 2).pair.misses ∧ (s 2).mod.solo = false) ∧
    (let f := frame 6 0 3 [0, 0, 0, 0]; row.Delivers .e f ∧ f.srcMod ≠ (row.afterFrame .e f).partner) ∧
    (isRowPort .e = true ∧ isRowPort .n = false ∧ echo1.srcMod = (row.afterFrame .e echo1).partner) ∧
    (let s := pairIn .joining none (fun p => { p with firstMiss := some 0, qE := true, qW := true }) .partnerSilent
     s.pair.firstMiss.isSome = true ∧ s.accounted = true ∧ s.unpaired = false ∧ s.pair.echoed = false ∧ { s.pair with echoed := true }.echoed = true) ∧
    ((onRow .synced).pairLink = true ∧ (onRow .synced).stopping = false ∧ (onRow .synced).pair.hand = none ∧ (onRow .unsynced).active = false ∧ (onRow .unsynced).mod.st ≠ .synced) ∧
    (onRow .synced).pair.syncedAt = none ∧ ({ onRow .synced with nv := { row.nv with inhibit := true } } : State).nv.inhibit ≠ false := by decide +kernel

def sig1 : Frame := frame 6 0 1 ([0x20, 0, 1, 0, 0, 0, 0, 0, 1, 0, 0, 0, 0, 0, 0, 0] ++ [1, 0, 0x80, 0] ++ List.replicate 12 0)
def words1 : List BWord := [⟨6, .bits, 1⟩]
def adopt1 (w : List BWord) : Adopt := ⟨1, 0, 0x00800001, 0, signature w⟩
def mirror1 (committed : Bool) : MirrorMsg := ⟨1, 0, 0, committed, true, words1, [], [], [], []⟩

/-- A signature that arrives first and one that comes again; a bundle that has the signature and one that has not; mirrored cycles committed and not. -/
theorem witness_SignaturesAndMirrors :
    act.pairLink = false ∧ ({ sig1 with crc := 0 } : Frame).crcOk = false ∧
    (row.pairLink = true ∧ sig1.crcOk = true ∧ sig1.ty = 6 ∧ sig1.srcMod = row.partner ∧ field sig1.payload 0 1 = 0x20 ∧ field sig1.payload 8 1 = 1 ∧
     32 ≤ sig1.payload.length ∧ (row.cycle 1 0 0).partnerOf (sigEntry sig1.payload 0 0).task = none ∧
     (sigEntry sig1.payload 0 0).task ∉ (row.cycle 1 0 0).latePartner ∧
     (({ row with cycles := [{ Cycle.new 1 0 0 with partner := [sigEntry sig1.payload 0 0] }] } : State).cycle 1 0 0).partnerOf (sigEntry sig1.payload 0 0).task ≠ none) ∧
    ((({ row with words := [(0x00800001, 0, words1)] } : State).words.find? fun q => decide (q.1 = 0x00800001) && decide (lo32 q.2.1 = 0)) = some (0x00800001, 0, words1)) ∧
    (let s (w : List BWord) (t : Timer) := pairIn .synced none (fun p => { p with adopt := [adopt1 w] }) t
     (s words1 .held).pairLink = true ∧ (s words1 .held).adoption 0x00800001 = some (adopt1 words1) ∧ lo32 (adopt1 words1).bnd = 0 ∧
     (s words1 .held).expired (.adoption 0x00800001) = false ∧ signature words1 = (adopt1 words1).sig ∧ signature words1 ≠ (adopt1 []).sig ∧
     (s words1 (.adoption 0x00800001)).expired (.adoption 0x00800001) = true ∧ row.adoption 0x00800001 = none) ∧
    (row.mod.st ≠ .synced ∧ row.mod.st ≠ .unsynced ∧ (onRow .synced).pairLink = true ∧ (mirror1 true).complete = true ∧ (mirror1 false).committed = false ∧
     (mirror1 true).words = [⟨6, .bits, 1⟩] ∧ (mirror1 true).inSeq = [] ∧ (mirror1 true).dm = []) := by decide +kernel

def synced_ (err : W32) : State :=
  { pairIn .unsynced (some (view_ 6)) (fun p => { p with level := some 1, sync := ⟨true, true, true, true, true, [], 0⟩ }) .held with
    time := { Time.reset with errEst := err, state := 0 } }

/-- A warm partition 1 (AUTUMN) that runs in class 0, whose last cycle has had no MIRROR. -/
def warm : State :=
  { onRow .synced with clk := 250000, time := { Time.reset with cnt := 250000 }, pair := { Pair.reset with syncedAt := some 0 }, pl := { Place.reset with plan := plan1 }, parts := [(1, { part1 with cfg := { part1.cfg with profile := .autumn }, was := .running })],
                       cls := [(0, { Cls.reset with period := 100, bnd := some 200000, prevBnd := some 100000 })] }
theorem witness_SignaturesAndMirrors_late :
    warm.stopping = false ∧ (warm.cls_ 0).prevBnd = some 100000 ∧ (100000 : W64) - BitVec.ofNat 64 ((warm.cls_ 0).period * 1000) = 0 ∧ warm.mirrorOwed 1 0 0 = true ∧
    (∀ x ∈ warm.pair.mirrorRx, x.part ≠ 1) ∧ (row.cls_ 0).prevBnd = none ∧ row.mirrorOwed 1 0 0 = false ∧
    ({ warm with pair := { warm.pair with syncedAt := some 250000 } } : State).mirrorOwed 1 0 0 = false := by decide +kernel

/-- A SIG in full; words that a partner asks for; a MIRROR of the cycle before, of the present one, to a class that runs hot and to one that does not. -/
theorem witness_SignaturesAndMirrors_more :
    (row.powered = true ∧ row.Delivers .pl sig1 ∧ sig1.scope = 0 ∧ 1 ≤ field sig1.payload 8 1 ∧ field sig1.payload 8 1 ≤ 63 ∧
     16 + 16 * field sig1.payload 8 1 ≤ sig1.payload.length ∧ ((row.afterFrame .pl sig1).cycle 1 0 0).partner = [] ∧ act.powered = true ∧ act.pairLink = false) ∧
    (let s : State := { row with cycles := [{ Cycle.new 1 0 0 with partner := [sigEntry sig1.payload 0 0] }] }
     s.Delivers .pl sig1 ∧ (((s.afterFrame .pl sig1).cycle 1 0 0).partnerOf (sigEntry sig1.payload 0 0).task).isSome = true) ∧
    (let s (t : Timer) := pairIn .synced none (fun p => { p with adopt := [adopt1 words1] }) t
     (s .held).overdue (.adoption 0x00800001) = false ∧ ({ s (.adoption 0x00800001) with clk := 1 } : State).overdue (.adoption 0x00800001) = true ∧
     (s .held).stopping = false ∧ (pairIn .active (some (view_ 5)) id .held).partnerSynced = true ∧ (pairIn .active none id .held).partnerSynced = false) ∧
    ((warm.cls_ 0).bnd = some 200000 ∧ (mirror1 true).bnd = 0 ∧ (warm.cls_ 0).prevBnd.map lo32 = some 100000 ∧ warm.executes 1 0 200000 = false ∧ warm.hotIn 1 0 200000 = false ∧
     ({ warm with parts := [(1, part1)] } : State).hotIn 1 0 200000 = true ∧ ((onRow .synced).cls_ 0).bnd = none) ∧
    (let s : State := synced_ 0
     s.mod.st = .unsynced ∧ s.pair.sync.image = true ∧ s.hotIn 1 0 (extNear s.now 0) = true ∧
     ({ s with parts := [(1, { part1 with cfg := { part1.cfg with profile := .autumn } })] } : State).hotIn 1 0 (extNear s.now 0) = false) := by decide +kernel

/-- Placer state with no epoch prepared and with this one; the parts of a JOIN; all that STANDBY SYNCED asks for, the largest time error it takes and the first it does not; words for the standby; a latch due 5 µs ahead. -/
theorem witness_JoiningAndWords :
    ((onRow .synced).pairLink = true ∧ (onRow .synced).active = false ∧ (onRow .synced).pl.prep = none ∧ row.active = true ∧
     ({ onRow .synced with pl := { Place.reset with prep := some (prep1 none) } } : State).pl.prep = some (prep1 none) ∧ (prep1 none).epoch = 1) ∧
    ((onRow .unsynced).mod.st = .unsynced ∧ (onRow .unsynced).pairLink = true) ∧
    (let s := synced_ 1000
     s.mod.st = .unsynced ∧ s.stopping = false ∧ s.portUp .pl = true ∧ s.pair.level = some 1 ∧ s.pair.sync.config = true ∧ s.pair.sync.plan = true ∧
     s.pair.sync.packages = true ∧ s.pair.sync.forces = true ∧ s.pair.sync.image = true ∧ s.timeErr ≤ 1000 ∧ s.allClean = true ∧ s.modFault = false ∧
     s.partnerActive = true ∧ 1000 < (synced_ 1001).timeErr) ∧
    row.due .healthReport = true ∧ row.mod.isolated = false ∧
    (let s := pairIn .synced (some (view_ 6)) id .held
     s.pairLink = true ∧ s.freezesPartner = true ∧ s.wordsLate 0 (tfind s.trip.lateAt 0) = false ∧ s.wordsLate 7 (tfind (s.canOf 3).lateAt 7) = false) ∧
    (let s : State := { pairIn .synced (some (view_ 6)) id .held with cls := [(0, { Cls.reset with period := 100 })], time := { Time.reset with cnt := 1 }, trip := { Trip.reset with lateAt := [(0, 0)] },
                                                                      can := [(3, { Can.reset with lateAt := [(0, 0)] })] }
     s.wordsLate 0 (tfind s.trip.lateAt 0) = true ∧ s.wordsLate 0 (tfind (s.canOf 3).lateAt 0) = true) ∧
    (synced_ 0).nv.moves = [] ∧ row.mod.isolated = false ∧ (onRow .boot).mod.st ≠ .active ∧ (onRow .boot).mod.st ≠ .unsynced ∧
    row.freezesPartner = false ∧ row.latchDue 0 = none ∧
    (let s := { pairIn .active (some (view_ 5)) id .held with cls := [(0, { Cls.reset with period := 100, phase := 5 })], time := { Time.reset with cnt := 0 } }
     (s.latchDue 0).isSome = true ∧ s.freezesPartner = false ∧ s.partnerStandby = true) := by decide +kernel

/-! ### Host Port and mailboxes -/

def hosted : State := { act with pins := { act.pins with hrdy := true } }
def ruleR : Rule := ⟨0x80020F08, 0, 0, 0⟩
def guarded (t : Table Rule) : State := { act with guard := { act.guard with checking := true, staging := t } }

/-- An aligned and a misaligned transaction, one outside every block, an unknown command; moderation just over; a check that passes, one with a bad rule, one with an overlap; the last access below the end of DRAM; accesses of partition 0 allowed and refused. -/
theorem witness_HostGuardAndServiceAccesses :
    State.reset.powered = false ∧ act.powered = true ∧ act.pins.hrdy = false ∧ hosted.powered = true ∧ hosted.pins.hrdy = true ∧
    (0x101 % 4 ≠ 0 ∧ 4 ≤ 4096 - 0x101 % 4096 ∧ (5 : Nat) % 4 ≠ 0) ∧
    (let u := { hosted with pins := { hosted.pins with hio := [] } }.count (ctrEv 0x40 1 0)
     (u.readWord 0x108 .host).1 = some 0 ∧ (u.readWord 0x500000 .host).1 = none) ∧
    hosted.mod.st ≠ .recovery ∧ (1 : W32).getLsbD 0 = true ∧ 0x9F ∉ [0x0B#8, 0x02, 0xEB, 0x32] ∧ hostLo 0x780008 = true ∧
    (let s : State := { idle_ hosted .irqMod with clk := 1000, host := { hosted.host with irqEn := true, mask := 1, stMbox := true, unsig := some 0, modTime := 1 } }
     s.expired .irqMod = true ∧ s.host.irqEn = true ∧ s.host.mask.getLsbD 0 = true ∧ s.host.stMbox = true ∧ s.host.unsig = some 0 ∧ 0 + s.host.modNs ≤ s.clk) ∧
    act.guard.checking = false ∧ (guarded [(0, ruleR)]).guard.checking = true ∧ (∀ x ∈ (guarded [(0, ruleR)]).guard.staging, Rule.bad x.2 = false) ∧
    firstOverlap (guarded [(0, ruleR)]).guard.staging = none ∧ Rule.bad { ruleR with attr := 0x80020F00 } = true ∧
    firstOverlap [(0, ruleR), (1, ruleR)] = some (0, 1) ∧ 0x6000010014 < 2 ^ 40 ∧
    (tget 0 act.guard.act 3).msb = false ∧ 0x1FFFFFFF8 + max 8 1 ≤ 0x200000000 ∧
    (let s := { act with guard := { act.guard with act := [(0, 0x80000001)] } }
     (tget 0 s.guard.act 0).msb = true ∧ s.guard.allows ⟨1, .service, .w, 0, 0, 8⟩ = false ∧ s.guard.fltValid = false) := by decide +kernel
theorem witness_HostGuardAndServiceAccesses_ecc : ∀ w, act.eccOf w = none := fun _ => rfl

/-- The bytes of a request in mailbox 0's buffer. -/
def buffered (bs : List Byte) (sessions : List Session) : State :=
  { hosted with host := { hosted.host with req := (List.range bs.length).map fun i => (i, (bs[i]?).getD 0) }, mb := { Mail.reset with sessions := sessions } }
def reqBytes_ (cmd : Nat) (len : Nat) : List Byte := leBytes 2 cmd ++ leBytes 2 1 ++ leBytes 4 len ++ leBytes 8 7 ++ leBytes 16 0
def len_ (s : State) : Nat := field (s.reqBytes 0 (32 + min (field (s.reqBytes 0 8) 4 4) 4064)) 4 4
def head_ (s : State) : Request :=
  let bs := s.reqBytes 0 (32 + min (field (s.reqBytes 0 8) 4 4) 4064)
  (headerOf (.mailbox 0) (s.partOf (.mailbox 0) bs) bs).req
def session7 : Session := ⟨7, 0, .mailbox 0, 0, 600, none⟩
def response1 : Response := ⟨0x0402, 1, 0, 0, 0, 0, 0, [], false, 7⟩

/-- A request too long by one byte, of unknown code, without a session, with one, and the last one again; a response and a notice that wait; a full buffer. -/
theorem witness_MailboxRequestsAndResponses :
    hosted.mod.st ≠ .boot ∧ (hosted.bell 0).out = false ∧ (hosted.setBell 0 ⟨1, 0, true⟩).bell 0 = ⟨1, 0, true⟩ ∧
    hosted.mb.last = [] ∧ (len_ (buffered (reqBytes_ 0x0102 0) []) ≤ 4064 ∧ (head_ (buffered (reqBytes_ 0x0102 0) [])).cmd.toNat ∈ cmdCodes) ∧
    (head_ (buffered (reqBytes_ 0x0999 0) [])).cmd.toNat ∉ cmdCodes ∧
    (let s := buffered (reqBytes_ 0x0402 0) []; s.session (.mailbox 0) (head_ s).tag = none ∧ (head_ s).cmd ≠ 0x0101) ∧
    (let s := buffered (reqBytes_ 0x0402 0) [session7]; (s.session (.mailbox 0) (head_ s).tag).isSome = true) ∧
    (let s := buffered (reqBytes_ 0x0402 0) [session7]; response1.key = (head_ s).tag ∧ response1.cmd = (head_ s).cmd ∧ response1.seq = (head_ s).seq) ∧
    (let s := { hosted with mb := { Mail.reset with ready := [(0, response1)] } }; (s.bell 0).buf = 0 ∧ tfind s.mb.ready 0 = some response1) ∧
    (let s := { hosted with mb := { Mail.reset with notices := [(0, [response1])] } }; tfind s.mb.ready 0 = none ∧ tget [] s.mb.notices 0 = response1 :: []) ∧
    ((hosted.setBell 511 ⟨1, 2, false⟩).bell 511).buf ≠ 0 := by decide +kernel
theorem witness_MailboxRequestsAndResponses_long : 4064 < len_ (buffered (reqBytes_ 0x0102 4065) []) := by decide +kernel

/-- A request of mailbox 0 in a partition. -/
def reqIn (part : Nat) (cmd : W16) (pl : List Byte) : Request := { req cmd pl with part := part }
def reqFits (r : Request) (s : State) : Bool := (asked r s).reqOf (.mailbox 0) r.cmd.toNat == some r
/-- A request is accepted, passes its checks and acts here. -/
def goes (r : Request) (s : State) (checks : State → List (Bool × Status)) (a : Acts) : Bool :=
  let s := asked r s
  s.reqOf r.src r.cmd.toNat == some r && firstFail (checks s) == none && s.executor a
/-- The first check that fails. -/
def stops (r : Request) (s : State) (checks : State → List (Bool × Status)) (st : Status) : Bool :=
  let s := asked r s
  s.reqOf r.src r.cmd.toNat == some r && firstFail (checks s) == some st

def linked_ (s : State) : State := { s with stn := { s.stn with link1 := true } }
def tls1 (busy : Bool) : State := { linked_ act with mb := { Mail.reset with tls := [⟨15, 3, busy⟩] } }
def open_ (step : Nat) : Request := req 0x0101 (leBytes 2 step ++ leBytes 2 0 ++ leBytes 36 0)

theorem witness_ConnectionsAndSessions :
    ((linked_ act).ipOn 0 = true ∧ (linked_ act).mb.tls.length < 16 ∧ (linked_ act).mb.queue = []) ∧
    ((idle_ act (.tlsSession 15)).expired (.tlsSession 15) = true ∧ act.mod.st ≠ .recovery ∧ (∀ y ∈ act.mb.sessions, srcIx y.src ≠ 527)) ∧
    ((∃ x ∈ (tls1 true).mb.tls, x.conn = 15) ∧ (∀ x ∈ (tls1 true).mb.tls, x.conn = 15 → x.busy = true) ∧ (reqBytes_ 0x0402 0).length = 32 + field (reqBytes_ 0x0402 0) 4 4) ∧
    (let s : State := { act with clk := 600000000000, mb := { Mail.reset with sessions := [session7] } }
     (s.mb.sessions.find? fun y => decide (y.tag = 7)) = some session7 ∧ session7.idle * 1000000000 ≤ s.clk - session7.last) ∧
    (let r := req 0x0402 []
     let s : State := { asked r act with timers := [(r.limit, 0)] }
     (s.mb.queue.find? fun x => decide (x.src = .mailbox 0) && s.expired x.limit) = some r) ∧
    (let s : State := { idle_ (onRow .synced) .delayedReset with mod := { (onRow .synced).mod with resetDue := some 0x20 } }
     s.mod.resetDue = some 0x20 ∧ s.expired .delayedReset = true ∧ s.stopping = false ∧ s.mod.st ≠ .active) ∧
    (reqFits (open_ 1) act = true ∧ (open_ 1).payload.length = 40 ∧ field (open_ 1).payload 2 2 = 0 ∧ act.locked 0 = false ∧ field (open_ 2).payload 0 1 = 2 ∧
     (asked (open_ 2) act).proofOk (open_ 2) 0 = false) ∧
    (reqFits (req 0x0102 []) act = true ∧ reqFits (req 0x0103 []) act = true ∧ reqFits (req 0x0104 [0, 0, 0, 0]) (onRow .synced) = true ∧
     field ([1, 0, 0, 0] : List Byte) 0 4 = 1 ∧ field ([0, 0, 0, 0] : List Byte) 0 4 = 0 ∧ act.mod.st = .active) ∧
    ((req 0x0105 ([3, 0, 4, 0] ++ leBytes 4 86400)).items = some [(3, leBytes 4 86400)] ∧ (req 0x0105 ([3, 0, 4, 0] ++ leBytes 4 9)).items = some [(3, leBytes 4 9)] ∧
     reqFits (req 0x0105 ([3, 0, 4, 0] ++ leBytes 4 86400)) act = true) ∧
    (reqFits (req 0x0106 []) act = true ∧ reqFits (req 0x0107 []) act = true ∧ (List.replicate 32 (0 : Byte)).length = 32 ∧ act.active = true ∧
     (world.part? 1).isSome = true ∧ reqFits (req 0x0108 []) act = true) := by decide +kernel

/-- The right proof of partition 0's host key to the challenge of 32 zero bytes. -/
def proof0 : List Byte := hmac256 Config.systemKey (List.replicate 32 0 ++ leBytes 2 0 ++ leBytes 8 Config.serial.toNat)
def proving : Request := req 0x0101 (leBytes 2 2 ++ leBytes 2 0 ++ leBytes 4 9 ++ proof0)
def challenged : State := { asked proving act with mb := { (asked proving act).mb with chal := [(0, 9, List.replicate 32 0, 1)] } }
theorem witness_ConnectionsAndSessions_proof :
    proving.payload.length = 40 ∧ challenged.mb.issued.length + 2 < 2 ^ 64 ∧ challenged.proofOk proving (field proving.payload 2 2) = true := by
  have h : proof0.length = 32 := hmac256_length _ _
  have p : proving.payload = leBytes 2 2 ++ leBytes 2 0 ++ leBytes 4 9 ++ proof0 := rfl
  have d : proving.payload.drop 8 = proof0 := by rw [p]; rfl
  have f : field proving.payload 2 2 = 0 := by rw [p]; rfl
  have f' : field proving.payload 4 4 = 9 := by rw [p]; rfl
  refine ⟨by simp [p, leBytes_length, h], by decide, ?_⟩
  rw [f]
  have c : tfind challenged.mb.chal (srcIx proving.src) = some (9, List.replicate 32 0, 1) := rfl
  have k : challenged.hostKey 0 = some Config.systemKey := rfl
  simp only [State.proofOk, c, k, f', d]
  rw [List.take_of_length_le (by omega)]
  have n : challenged.clk = 0 := rfl
  rw [n]; simp [proof0]

/-- Commands of a session that pass their checks; a length that fails; executors: this module, one that a leader names, none known. -/
def keyReq : Request := req 0x0107 []
def tlsOpen : Request := { open_ 0 with src := .tls 15 }
theorem witness_ConnectionsAndSessions_checks :
    goes (open_ 1) act (fun _ => [lenIs (open_ 1) 40, openForm (open_ 1)]) .here = true ∧
    goes (open_ 2) act (fun _ => [lenIs (open_ 2) 40, openForm (open_ 2)]) .here = true ∧ (asked (open_ 2) act).locked 0 = false ∧
    openForm tlsOpen = (true, .checkFail) ∧ lenIs tlsOpen 40 = (true, .badLen) ∧ srcIx tlsOpen.src - 512 = 15 ∧
    ({ tls1 false with nv := { Nv.reset with certs := some ⟨[1], none, [(3, 0)], true⟩ } } : State).certFor 15 0 = true ∧ act.certFor 15 0 = false ∧
    goes (req 0x0102 []) act (fun _ => [lenIs (req 0x0102 []) 0]) .here = true ∧ stops (req 0x0102 [0]) act (fun _ => [lenIs (req 0x0102 [0]) 0]) .badLen = true ∧
    goes (req 0x0103 []) act (fun _ => [lenIs (req 0x0103 []) 0]) .here = true ∧
    (let r := req 0x0104 [0, 0, 0, 0]
     goes r (onRow .synced) (fun s => [lenIs r 4, sys r, flagsOk r, (decide (s.mod.st ≠ .active) || decide (field r.payload 0 4 % 2 = 1), .notNow)]) .here = true ∧
     stops r act (fun s => [lenIs r 4, sys r, flagsOk r, (decide (s.mod.st ≠ .active) || decide (field r.payload 0 4 % 2 = 1), .notNow)]) .notNow = true) ∧
    (let r := req 0x0105 ([3, 0, 4, 0] ++ leBytes 4 86400); goes r act (fun s => s.configChecks r) r.configActs = true ∧ r.items = some [(3, leBytes 4 86400)]) ∧
    (let r := req 0x0105 ([5, 0, 4, 0] ++ [1, 0, 2, 0])
     let s : State := { led (some 0) with parts := [(1, part1)] }
     goes r s (fun s => s.configChecks r) .leader = true ∧ r.configActs = .leader ∧ r.items = some [(5, [1, 0, 2, 0])] ∧ domainItem 5 = true) ∧
    goes (req 0x0106 []) act (fun _ => []) .here = true ∧
    goes keyReq act (fun s => [(decide ((List.replicate 32 (0 : Byte)).length = 32), .badLen), sys keyReq, (decide ((0 : Fin 512).val = 0) || (s.part? 0).isSome, .checkFail)]) .pair = true ∧
    goes (req 0x0108 []) act (fun _ => [sys (req 0x0108 []), ((⟨[1], none, [], true⟩ : CertSet).chains, .checkFail)]) .pair = true ∧
    (led (some 2)).executor .leader = false ∧ (led (some 2)).dstOf .leader = some (pairDst 2) ∧ (led none).dstOf .leader = none ∧ (onRow .synced).executor .pair = false ∧
    (onRow .synced).follows .pair { keyReq with src := .forwarded 1 7 1 } = true ∧ ReqSrc.isForwarded (.forwarded 1 7 1) = true := by decide +kernel

/-- A command row whose source holds no request of its code. -/
theorem witness_RightsChecked_rows : (Instr.closeSession (.mailbox 0)).command = some (0x0102, .mailbox 0) ∧ act.reqOf (.mailbox 0) 0x0102 = none := by decide

def codesWithEpoch : List (Nat × Nat) :=
  [(0x0201, 4), (0x0202, 4), (0x0203, 4), (0x0204, 4), (0x0206, 8), (0x0209, 4), (0x020C, 4), (0x0301, 16), (0x0302, 20), (0x0303, 8), (0x0304, 8), (0x0306, 8),
   (0x0401, 4), (0x0403, 12), (0x0404, 4), (0x0701, 24), (0x0702, 16), (0x0704, 4), (0x0B06, 4)]
theorem witness_StaleEpochRefused :
    (codesWithEpoch.all fun x =>
      let r := req (BitVec.ofNat 16 x.1) (leBytes 4 1 ++ leBytes (x.2 - 4) 0)
      reqFits r act && decide (r.part = 0) && decide (r.payload.length = x.2) && decide (field r.payload 0 4 ≠ 0) && decide (field r.payload 0 4 ≠ act.pl.epoch.toNat) &&
        (asked r act).forceTurn (.mailbox 0) x.1) = true ∧
    reqFits (req 0x0209 [0, 0, 0, 0]) (led (some 0)) = true ∧ (asked (req 0x0209 [0, 0, 0, 0]) (led (some 0))).executor .leader = true := by decide +kernel

def codesWithRight : List (Nat × Nat) :=
  [(0x0104, 4), (0x0209, 0), (0x0202, 0), (0x0501, 0), (0x0502, 0), (0x0503, 4), (0x0504, 4), (0x0505, 4), (0x0705, 0), (0x0802, 4), (0x0903, 0), (0x0904, 4),
   (0x0905, 0), (0x0906, 4), (0x0908, 4), (0x0B03, 12), (0x0203, 0), (0x0204, 0), (0x0205, 0), (0x020B, 0), (0x0305, 0), (0x0302, 20), (0x0303, 8), (0x0304, 8), (0x0306, 8)]
theorem witness_RightsChecked :
    (codesWithRight.all fun x =>
      let r := reqIn 1 (BitVec.ofNat 16 x.1) (leBytes x.2 0)
      reqFits r act && decide (r.part ≠ 0) && decide (r.payload.length = x.2) && decide (r.part ≠ 2) && decide (r.part ≠ r.partAt4)) = true := by decide +kernel

/-! ### Commands -/

/-- The leader of its domain, with partition 1 in the placer state. -/
def pp1 (ch : Change) : PartPlan := ⟨part1.cfg, 0, none, ch, 0, 0, false, [], false⟩
def leader_ (y : Part) : State :=
  { led (some 0) with parts := [(1, y)],
                      pl := { Place.reset with leader := some 0, dom := { emptyDomain with parts := [pp1 y.change], classes := [(0, (100, 0))] } } }
def pkg1 : Package := ⟨{ task1 with ins := [] }, true⟩
def part2 : PartCfg := { part1.cfg with part := 511, crit := .a, profile := .spring }
def on1 (pl : List Byte) : List Byte := leBytes 4 0 ++ leBytes 2 1 ++ pl
def changed (c : Change) : Part := { part1 with change := c }

/-- Requests of the system partition that the leader takes up, on partition 1 and for partition 511. -/
theorem witness_PartitionAndEpochCommands :
    (let s := asked (req 0x0201 (on1 [0, 0])) (leader_ part1)
     s.executor .leader = true ∧ s.reqOf (.mailbox 0) 0x0201 = some (req 0x0201 (on1 [0, 0])) ∧ field (on1 [0, 0]) 0 4 = 0 ∧ (req 0x0201 (on1 [0, 0])).part = 0 ∧
     (req 0x0201 (on1 [0, 0])).partAt4 = 1 ∧ 1 ≤ part2.part ∧ part2.part < 512 ∧ domPart s.pl.dom part2.part = none ∧ Reserve.wf part2.reserve = true ∧
     permits part2.crit part2.profile = true) ∧
    (let y := { part1 with state := .loaded }; (leader_ y).part? 1 = some y ∧ y.state = .loaded ∧ y.pend = none ∧ y.change = .none ∧ reqFits (req 0x0202 (on1 [])) (leader_ y) = true) ∧
    (let r := req 0x0206 (on1 [3, 0])
     reqFits r (leader_ { part1 with cfg := { part1.cfg with profile := .summer } }) = true ∧ r.payload.length = 8 ∧ (leader_ part1).profileBusy 1 = false ∧ part1.state ≠ .safe ∧
     part1.change ≠ .unconfirmed ∧ profileOfNum (field r.payload 6 1) = some .spring ∧ permits .s .spring = true ∧ Profile.spring.coded = false ∧ Profile.spring.hot = false) ∧
    (reqFits (req 0x0209 (on1 [])) (leader_ part1) = true ∧ reqFits (req 0x020C (on1 [])) (leader_ part1) = true ∧ Reserve.wf ⟨[(7, 1)], 1, [], []⟩ = true) ∧
    (let r := req 0x0301 (on1 [1, 0] ++ leBytes 4 0 ++ leBytes 4 0)
     let s := leader_ { part1 with stagedCrc := 0xFFFFFFFF }
     reqFits r s = true ∧ r.payload.length = 16 ∧ field r.payload 6 2 = [pkg1].length ∧ s.stagedOk r = true ∧ s.changeOf 1 = some .none ∧
     s.loadFault s.pl.dom 1 [pkg1] = none) ∧
    (let r := req 0x0302 (on1 [0, 0] ++ leBytes 8 0 ++ leBytes 4 60)
     let s := leader_ (changed .staged)
     reqFits r s = true ∧ r.payload.length = 20 ∧ 60 ≤ r.window ∧ r.window ≤ 259200 ∧ (s.part? 1).map (·.state) ≠ some .safe ∧ s.profileBusy 1 = false ∧
     s.changeOf 1 = some .staged ∧ s.pl.issue = none ∧ s.pl.prep = none) ∧
    (let s := leader_ (changed .unconfirmed)
     reqFits (req 0x0303 (on1 [0, 0])) s = true ∧ (on1 [0, 0]).length = 8 ∧ s.changeOf 1 = some .unconfirmed ∧ s.allSwitched 1 = true ∧ s.revertBusy 1 = false ∧
     reqFits (req 0x0304 (on1 [0, 0])) s = true) ∧
    (reqFits (req 0x0306 (on1 [0, 0])) (leader_ (changed .staged)) = true ∧ reqFits (req 0x0401 (on1 [])) (leader_ part1) = true ∧ (leader_ part1).classFree 7 = true ∧
     classOk 100 99 = true ∧ classOk 1000000 0 = true ∧ reqFits (req 0x0404 (on1 [])) (leader_ part1) = true ∧ ((leader_ part1).part? 1).isSome = true) := by
  decide +kernel

/-- The same commands pass their checks in the order of R324. -/
theorem witness_PartitionAndEpochCommands_checks :
    let s0 := leader_ part1
    (let r := req 0x0201 (on1 [0, 0])
     goes r s0 (fun s => [sys r, s.epochIs r, (decide (1 ≤ part2.part) && decide (part2.part < 512) && (domPart s.pl.dom part2.part).isNone && Reserve.wf part2.reserve, .checkFail),
       (permits part2.crit part2.profile, .denied)]) .leader = true) ∧
    (let r := req 0x0202 (on1 [])
     goes r (leader_ { part1 with state := .loaded }) (fun s => [sys r, s.epochIs r, ((s.part? 1).isSome, .checkFail),
       (((s.part? 1).map fun y => decide (y.state = .loaded) && y.pend.isNone && decide (y.change = .none)).getD false, .notNow)]) .leader = true) ∧
    (let r := req 0x0206 (on1 [3, 0])
     goes r (leader_ { part1 with cfg := { part1.cfg with profile := .summer } }) (fun s => s.profileChecks r) .leader = true) ∧
    goes (req 0x0209 (on1 [])) s0 (fun s => [sys (req 0x0209 (on1 [])), s.epochIs (req 0x0209 (on1 []))]) .leader = true ∧
    (let r := req 0x020C (on1 []); goes r s0 (fun s => [sys r, s.epochIs r, ((s.part? 1).isSome && Reserve.wf ⟨[(7, 1)], 1, [], []⟩, .checkFail)]) .leader = true) ∧
    (let r := req 0x0302 (on1 [0, 0] ++ leBytes 8 0 ++ leBytes 4 60)
     goes r (leader_ (changed .staged)) (fun s => [lenIs r 20, s.ownP r 1, s.epochIs r, ((s.part? 1).isSome && decide (60 ≤ r.window) && decide (r.window ≤ 259200), .checkFail),
       (decide ((s.part? 1).map (·.state) ≠ some .safe), .safeState), (!s.profileBusy 1, .busy),
       (decide (s.changeOf 1 = some .staged) && s.pl.issue.isNone && s.pl.prep.isNone, .notNow)]) .leader = true) ∧
    (let r := req 0x0303 (on1 [0, 0])
     goes r (leader_ (changed .unconfirmed)) (fun s => [lenIs r 8, s.ownP r 1, s.epochIs r, ((s.part? 1).isSome, .checkFail), (decide (s.changeOf 1 = some .unconfirmed), .notNow),
       (s.allSwitched 1, .notNow)]) .leader = true) ∧
    (let r := req 0x0304 (on1 [0, 0])
     goes r (leader_ (changed .unconfirmed)) (fun s => [lenIs r 8, s.ownP r 1, s.epochIs r, ((s.part? 1).isSome, .checkFail), (decide (s.changeOf 1 = some .unconfirmed), .notNow),
       (!s.revertBusy 1, .busy)]) .leader = true) ∧
    (let r := req 0x0306 (on1 [0, 0])
     goes r (leader_ (changed .staged)) (fun s => [lenIs r 8, own r 1, s.epochIs r, ((s.part? 1).isSome, .checkFail), (decide (s.changeOf 1 = some .staged), .notNow)]) .leader = true) ∧
    (let r := req 0x0401 (on1 [])
     goes r s0 (fun s => [sys r, s.epochIs r, (decide (100 % 10 = 0) && decide (100 ≤ 100) && decide (100 ≤ 1000000) && decide (99 < 100), .checkFail), (s.classFree 7, .notNow)]) .leader = true) ∧
    (let r := req 0x0404 (on1 [])
     goes r s0 (fun s => [sys r, s.epochIs r, ([1].all fun y => (s.part? y).isSome, .checkFail), (s.pl.issue.isNone && s.pl.prep.isNone, .notNow)]) .leader = true) ∧
    (let r := req 0x0301 (on1 [1, 0] ++ leBytes 4 0 ++ leBytes 4 0)
     let s := leader_ { part1 with stagedCrc := 0xFFFFFFFF }
     goes r s (fun s => s.loadChecks [pkg1] r) .leader = true ∧ (s.loadFault s.pl.dom 1 [⟨{ task1 with task := 0x01000001 }, true⟩]).isSome = true ∧
     (let u : State := { s with pl := { s.pl with leader := some 2 } }
      firstFail ((asked r u).loadChecks [] r) = none ∧ (asked r u).executor .leader = false ∧ (asked r u).dstOf .leader = some (pairDst 2))) := by decide +kernel

/-- Starting, stopping and SAFE, policy and rules pass their checks; a partition that an overload has stopped starts again with room and without. -/
theorem witness_PartitionAndEpochCommands_orders :
    (let r := req 0x0203 (on1 [])
     let chk := fun s : State => [s.ownP r 1, s.epochIs r, ((s.part? 1).isSome, .checkFail), (decide ((s.part? 1).map (·.state) ≠ some .running), .notNow),
       (((s.part? 1).map fun y => y.pend.isNone).getD true, .busy), (s.classesSettled 1, .busy)]
     let y := { part1 with state := .loaded }
     let stopped (g : List Package) : State :=
       { leader_ y with pl := { (leader_ y).pl with health := seen2 0, dom := { (leader_ y).pl.dom with parts := [{ pp1 .none with stopped := true }], packages := g } } }
     goes r (leader_ y) chk .leader = true ∧ ((domPart (leader_ y).pl.dom 1).map (·.stopped)).getD false = false ∧
     goes r (stopped []) chk .leader = true ∧ ((domPart (stopped []).pl.dom 1).map (·.stopped)).getD false = true ∧
     (match (stopped []).computePlan (.restart 1) ((stopped []).topEpoch + 1) with | .inl _ => false | .inr _ => true) = true ∧
     (match (stopped [pkg1]).computePlan (.restart 1) ((stopped [pkg1]).topEpoch + 1) with | .inl _ => true | .inr _ => false) = true) ∧
    (let r := req 0x0204 (on1 [])
     goes r (leader_ part1) (fun s => [own r 1, s.epochIs r, ((s.part? 1).isSome, .checkFail), (decide ((s.part? 1).map (·.state) ≠ some .loaded), .notNow),
       (((s.part? 1).map fun y => y.pend.isNone).getD true, .busy)]) .leader = true) ∧
    (let r := req 0x0205 (on1 [])
     goes r (leader_ part1) (fun s => [own r 1, ((s.part? 1).isSome, .checkFail), (decide ((s.part? 1).map (·.state) = some .running), .notNow)]) .leader = true) ∧
    (let r := req 0x0207 (on1 [])
     goes r (leader_ part1) (fun s => [s.ownP r 1, (decide ((s.part? 1).map (·.cfg.crit) ≠ some .p) || (false && true), .denied),
       ((s.part? 1).isSome && decide (1 ≤ 16) && decide (16 ≤ 16), .checkFail)]) .leader = true) ∧
    (let r := req 0x0208 (on1 [])
     let rules : List Rule := [{ ruleR with attr := 0x80020F00 }]
     goes r (leader_ part1) (fun _ => [sys r, (decide (rules.length ≤ 1024) && rules.all (fun x => !x.attr.getLsbD 3), .checkFail)]) .here = true) := by decide +kernel

theorem witness_PartitionAndEpochCommands_states :
    (let y := { part1 with state := .loaded }; reqFits (req 0x0203 (on1 [])) (leader_ y) = true ∧ y.state ≠ .running ∧
     (domPart (leader_ y).pl.dom 1).map (·.stopped) ≠ some true ∧ y.pend = none) ∧
    (reqFits (req 0x0204 (on1 [])) (leader_ part1) = true ∧ part1.state ≠ .loaded) ∧
    (reqFits (req 0x0205 (on1 [])) (leader_ part1) = true ∧ part1.state = .running ∧ part1.pend = none) ∧
    (reqFits (req 0x0207 (on1 [])) (leader_ part1) = true ∧ part1.cfg.crit ≠ .p ∧ { part1 with cfg := { part1.cfg with crit := .p } }.cfg.crit = .p) ∧
    (reqFits (req 0x0208 (on1 [])) (leader_ part1) = true ∧ (∀ x ∈ [ruleR], ({ x with attr := 0x80020F00 } : Rule).attr.getLsbD 3 = false) ∧ ruleR.attr.getLsbD 3 = true) := by
  decide +kernel

def reading : List (W16 × Nat) :=
  [(0x020B, 0), (0x020A, 0), (0x0402, 0), (0x0305, 0), (0x0501, 0), (0x0601, 0), (0x0703, 0), (0x0806, 0), (0x0907, 0), (0x0A04, 0), (0x0A05, 0), (0x0B04, 0), (0x0B07, 0)]
def area_ (a : Nat) : Request := req 0x0801 (leBytes 4 a ++ leBytes 4 0 ++ leBytes 4 126)
def placeQ (p : Nat) : Request := req 0x0403 (leBytes 4 0 ++ leBytes 2 p ++ leBytes 6 31)
def readable : State :=
  { leader_ part1 with pl := { (leader_ part1).pl with plan := { plan1 with lii := [{ entry 6 0x00800001 with vid := 6 }] },
                                                       dom := { emptyDomain with mods := [(0, { plan1 with lii := [{ entry 6 0x00800001 with vid := 6 }] })] } } }

theorem witness_QueriesAndTransfers :
    (reading.all fun x => reqFits (req x.1 []) (leader_ part1)) = true ∧ (leader_ part1).executor .leader = true ∧ (leader_ part1).executor .pair = true ∧
    (leader_ part1).part? 1 = some part1 ∧
    (let s := asked (req 0x0A04 []) act; s.touchLogin (.mailbox 0) 0x0A04 = s) ∧ (let s := asked (req 0x0A05 []) act; s.touchLogin (.mailbox 0) 0x0A05 = s) ∧
    (reqFits (area_ 0) act = true ∧ (area_ 0).payload.length = 12 ∧ (area_ 0).area ≤ 1 ∧ (area_ 1).area = 1 ∧ (area_ 2).area = 2 ∧ 1 ≤ (area_ 0).max ∧ (area_ 0).max ≤ 126) ∧
    (reqFits (placeQ 0xFFFF) (leader_ part1) = true ∧ (placeQ 0xFFFF).payload.length = 12 ∧ (placeQ 0xFFFF).partAt4 = 0xFFFF ∧ field (placeQ 1).payload 6 1 < 32 ∧
     ((leader_ part1).part? (placeQ 1).partAt4).isSome = true) ∧
    (let r := reqIn 1 0x0307 (leBytes 4 4 ++ [1, 2, 3, 4])
     let s : State := { leader_ { part1 with stagedLen := 4 } with guard := { Guard.reset with active := [(0, ⟨0x80020F0F, 0, 0xFFFFF, 0⟩)] } }
     reqFits r s = true ∧ r.payload.length = 8 ∧ s.part? 1 = some { part1 with stagedLen := 4 } ∧ 0 < field r.payload 0 4 ∧ s.guard.allows (stageAccess r) = true ∧
     reqFits r (leader_ part1) = true ∧ field r.payload 0 4 ≠ part1.stagedLen) ∧
    (let s := readable
     reqFits (req 0x0704 [0, 0, 0, 0]) s = true ∧ s.active = true ∧ s.homePair 6 = pairOf s.module ∧ (s.homed 6).isSome = true ∧ (s.homeEntry (s.currentVid 6)).isSome = true ∧
     s.guard.allows { part := 0, master := .service, kind := .r, source := 0, addr := imgAddr (s.curBank 0) 6, len := 8 } = true) := by decide +kernel

/-- The reading commands pass their checks where they act; staging with a rule and without; variables of this pair, of another one, of a partition without a rule for them. -/
theorem witness_QueriesAndTransfers_checks :
    (let q (c : W16) : Request := req c []
     let s0 := leader_ part1
     goes (q 0x020B) s0 (fun s => [own (q 0x020B) 1, ((s.part? 1).isSome, .checkFail)]) .leader = true ∧ goes (q 0x020A) s0 (fun _ => []) .here = true ∧
     goes (q 0x0305) s0 (fun s => [own (q 0x0305) 1, ((s.part? 1).isSome, .checkFail)]) .leader = true ∧ goes (q 0x0501) s0 (fun _ => [sys (q 0x0501)]) .pair = true ∧
     ([0x0402, 0x0601, 0x0703].all fun c => goes (q c) s0 (fun _ => []) .here) = true ∧
     ([0x0A04, 0x0B04, 0x0B07].all fun c => goes (q c) s0 (fun _ => [lenIs (q c) 0]) .here) = true ∧
     ([0x0907, 0x0A05].all fun c => goes (q c) s0 (fun _ => [lenIs (q c) 0, sys (q c)]) .here) = true ∧
     goes (q 0x0806) s0 (fun _ => [(decide (([63] : List (Fin 64)).length ≤ 508), .badLen)]) .here = true) ∧
    (let chk (r : Request) : State → List (Bool × Status) := fun _ => [lenIs r 12, (decide (r.area ≠ 2) || decide (r.part = 0), .denied),
       (decide (r.area ≤ 2) && decide (1 ≤ r.max) && decide (r.max ≤ 126), .checkFail)]
     goes (area_ 0) act (chk (area_ 0)) .here = true ∧ goes (area_ 2) act (chk (area_ 2)) .here = true ∧ stops (area_ 3) act (chk (area_ 3)) .checkFail = true) ∧
    (let r := placeQ 0xFFFF
     goes r (leader_ part1) (fun s => [lenIs r 12, (decide (r.partAt4 = 0xFFFF) || decide (r.part = 0) || decide (r.part = r.partAt4), .denied), s.epochIs r,
       ((decide (r.partAt4 = 0xFFFF) || (s.part? r.partAt4).isSome) && decide (field r.payload 6 1 < 32), .checkFail)]) .leader = true) ∧
    (let r := reqIn 1 0x0307 (leBytes 4 4 ++ [1, 2, 3, 4])
     let chk : State → List (Bool × Status) := fun s => [(decide (8 ≤ r.payload.length) && decide (r.payload.length ≤ 4064), .badLen),
       (decide (field r.payload 0 4 = 0) || decide (field r.payload 0 4 = ((s.part? r.part).map (·.stagedLen)).getD 0), .badLen),
       (decide (field r.payload 0 4 ≠ 0) || !s.stagingKept r.part, .busy), (decide (field r.payload 0 4 + r.payload.length ≤ 2 ^ 24 + 4), .noRoom)]
     let y := { part1 with stagedLen := 4 }
     goes r { leader_ y with guard := { Guard.reset with active := [(0, ⟨0x80020F0F, 0, 0xFFFFF, 0⟩)] } } chk .here = true ∧ goes r (leader_ y) chk .here = true ∧
     (leader_ y).guard.allows (stageAccess r) = false) ∧
    (let r (p : Nat) := reqIn p 0x0704 [0, 0, 0, 0]
     let chk (p : Nat) (vs : List W32) : State → List (Bool × Status) := fun s => [(decide (vs.length ≤ 250), .badLen),
       (decide ((r p).part = 0) || vs.all (fun v => match s.homed v with | some e => decide (e.part = (r p).part) | none => true), .denied), s.epochIs (r p),
       (vs.all fun v => (s.homed v).isSome, .checkFail), (!ReqSrc.isForwarded (r p).src || s.active, .notNow)]
     let far : State := { readable with pl := { readable.pl with dom := { emptyDomain with mods := [(2, { plan1 with lii := [{ entry 6 0x00800001 with vid := 0x00200006 }] })] } } }
     goes (r 0) readable (chk 0 [6]) .here = true ∧ goes (r 1) readable (chk 1 [6]) .here = true ∧ readable.homesOf [6] = [pairOf readable.module] ∧ readable.homesOf [] = [] ∧
     readable.guard.allows { part := 1, master := .service, kind := .r, source := 0, addr := imgAddr (readable.curBank 0) 6, len := 8 } = false ∧
     far.homesOf [0x00200006] = [2] ∧ goes (r 0) far (chk 0 [0x00200006]) .here = true) := by decide +kernel

def four (v : Nat) : List Byte := leBytes 4 v
def timed_ : State := { row with time := { Time.reset with stepRefused := true, refused := 5 } }

/-- Both ends of the hold time's range and the values just outside; a step as large as accepted. -/
theorem witness_PairAndForceCommands_pair :
    (let s := pairIn .active (some (view_ 5)) id .held
     s.active = true ∧ reqFits (req 0x0502 []) s = true ∧ s.partnerSynced = true ∧ s.disputeOpen = false ∧ s.epochSoon = false ∧ s.pair.hand = none ∧ row.partnerSynced = false ∧
     s.partnerStandby = true) ∧
    (reqFits (req 0x0503 (four 1)) row = true ∧ field (four 1) 0 1 < 2) ∧
    (reqFits (req 0x0504 (four 10)) row = true ∧ field (four 10) 0 4 = 10 ∧ field (four 86400) 0 4 = 86400 ∧ field (four 9) 0 4 < 10 ∧ 86400 < field (four 86401) 0 4) ∧
    ((onRow .synced).active = false ∧ reqFits (req 0x0504 (four 10)) (onRow .synced) = true ∧ ReqSrc.isForwarded (req 0x0504 (four 10)).src = false ∧ (onRow .synced).stopping = false) ∧
    (reqFits (req 0x0505 (four 0)) (onRow .synced) = true ∧ field (four 0) 0 2 = (onRow .synced).module ∧ (onRow .synced).position 0 = .module ∧ (onRow .synced).mayServe = true) ∧
    (reqFits (req 0x0602 (leBytes 8 5)) timed_ = true ∧ timed_.active = true ∧ timed_.time.stepRefused = true ∧ timed_.time.refused.toInt.natAbs ≤ field (leBytes 8 5) 0 8 ∧
     row.time.stepRefused = false) ∧
    (reqFits (req 0x0603 []) row = true ∧ timeCfgOk ⟨100, [3, 1], 255⟩ = true) := by decide +kernel

theorem witness_PairAndForceCommands_pairChecks :
    (let r := req 0x0502 []
     goes r (pairIn .active (some (view_ 5)) id .held) (fun s => [sys r, (s.partnerSynced && !s.disputeOpen && !s.epochSoon, .notNow), (s.pair.hand.isNone, .busy)]) .pair = true) ∧
    (let r := req 0x0503 (four 1); goes r row (fun _ => [lenIs r 4, sys r, (decide (field r.payload 0 1 < 2), .checkFail)]) .pair = true) ∧
    (let chk (n : Nat) : State → List (Bool × Status) := fun _ => [lenIs (req 0x0504 (four n)) 4, sys (req 0x0504 (four n)), (decide (10 ≤ field (four n) 0 4) && decide (field (four n) 0 4 ≤ 86400), .checkFail)]
     goes (req 0x0504 (four 10)) row (chk 10) .pair = true ∧ goes (req 0x0504 (four 86400)) row (chk 86400) .pair = true ∧ stops (req 0x0504 (four 9)) row (chk 9) .checkFail = true ∧
     stops (req 0x0504 (four 86401)) row (chk 86401) .checkFail = true) ∧
    (let r := req 0x0505 (four 0)
     goes r (onRow .synced) (fun s => [lenIs r 4, sys r, (decide (field r.payload 0 2 < 4096) && decide (s.position (field r.payload 0 2) = .module), .checkFail),
       (decide (field r.payload 0 2 ≠ s.module) || decide (s.mod.st = .synced) || decide (s.mod.st = .unsynced) || decide (s.mod.st = .joining), .notNow)]) (.named 0) = true) ∧
    (let r := req 0x0602 (leBytes 8 5)
     goes r timed_ (fun s => [lenIs r 8, sys r, (!s.executor .pair || s.time.stepRefused, .notNow),
       (!s.executor .pair || decide (s.time.refused.toInt.natAbs ≤ field r.payload 0 8), .checkFail)]) .pair = true ∧ timed_.follows .pair r = false ∧
     (onRow .synced).follows .pair { r with src := .forwarded 1 7 1 } = true) ∧
    (let r := req 0x0603 []; goes r row (fun _ => [sys r, (timeCfgOk ⟨100, [3, 1], 255⟩, .checkFail)]) .pair = true) := by decide +kernel

def forceReq (cmd : W16) (n : Nat) : Request := req cmd (leBytes 4 0 ++ leBytes 4 6 ++ leBytes 8 1 ++ leBytes (n - 16) 0)
def forced (l : List Force) : State := { readable with forces := l }
def force1 : Force := ⟨6, 1, 0, 0, none, true⟩
def checked_ : State :=
  { readable with trip := { Trip.reset with image := List.replicate 135 0 ++ [0x80] },
                  pl := { readable.pl with plan := { readable.pl.plan with tasks := [{ task1 with pins := [(0, 6)] }] } } }

theorem witness_PairAndForceCommands_forces :
    (let r := forceReq 0x0701 24
     let s := asked r readable
     s.reqOf (.mailbox 0) 0x0701 = some r ∧ s.forceTurn (.mailbox 0) 0x0701 = true ∧ r.payload.length = 24 ∧ field r.payload 0 4 = 0 ∧
     s.executor (.home (s.homePair r.vid)) = true ∧ (s.homed r.vid).isSome = true ∧ field r.payload 16 2 < 2 ^ 15 ∧ s.drivesChecked (s.currentVid r.vid) = false ∧
     s.liveForces.length < 4096) ∧
    (let r := forceReq 0x0702 16
     reqFits r (forced [force1]) = true ∧ (asked r (forced [])).forceTurn (.mailbox 0) 0x0702 = true ∧ r.payload.length = 16 ∧ (∃ f ∈ (forced [force1]).liveForces, f.vid = (forced []).currentVid r.vid) ∧
     (∀ f ∈ (forced []).liveForces, f.vid ≠ 6)) ∧
    (reqFits (req 0x0705 []) (forced []) = true ∧ (forced []).active = true ∧ (forced []).liveForces = []) ∧
    (let s := onRow .synced
     s.pairLink = true ∧ s.stopping = false ∧ s.sameForce 6 9 true = false ∧ reached s.now 9 = true ∧ reached s.now (-1) = false) ∧
    (let s := pairIn .active none (fun p => { p with forceChg := [⟨.set 6 1 0 0, none, false⟩] }) .forceRepeat
     s.expired .forceRepeat = true ∧ s.pair.forceChg = [⟨.set 6 1 0 0, none, false⟩] ∧ s.stopping = false) := by decide +kernel
/-- Force commands pass their checks at the home module; forces to clear at once; acknowledgements of a synced partner and of one that is not; a change whose E has come without one. -/
theorem witness_PairAndForceCommands_changes :
    (let r := forceReq 0x0701 24
     goes r readable (fun s => s.forceSetChecks r) (.home (readable.homePair r.vid)) = true ∧ (asked r readable).forceTurn (.mailbox 0) 0x0701 = true ∧ r.part = 0) ∧
    (let r := forceReq 0x0702 16
     goes r (forced [force1]) (fun s => [lenIs r 16, s.forceRight r, s.epochIs r, ((s.homed r.vid).isSome, .checkFail)]) (.home (readable.homePair r.vid)) = true) ∧
    (let r := req 0x0705 []; goes r (forced [force1]) (fun _ => [sys r]) .pair = true ∧ (forced [force1]).liveForces.getLast? = some force1) ∧
    (let s : State := { onRow .synced with forces := [⟨6, 1, 0, 9, none, true⟩] }
     s.sameForce 6 9 true = true ∧ s.sameForce 6 9 false = false ∧ ({ s with forces := [⟨6, 1, 0, 9, none, false⟩] } : State).sameForce 6 9 false = true ∧ act.pairLink = false ∧
     row.mod.st ≠ .synced ∧ row.mod.st ≠ .unsynced) ∧
    (let r := forceReq 0x0701 24
     let s (v : BitVec 4) (e : W64) : State := { asked r (pairIn .active (some (view_ v)) (fun p => { p with forceChg := [⟨.set 6 1 0 e, some r.key, false⟩] }) .forceEffective) with forces := [] }
     (s 5 0).pairLink = true ∧ (s 5 0).partnerSynced = true ∧ (s 4 0).partnerSynced = false ∧ ForceMsg.isFor (.set 6 1 0 0) 6 0 = true ∧
     ((s 5 0).mb.queue.find? fun y => decide (y.key = r.key)) = some r ∧ ForceMsg.due (.set 6 1 0 0) (s 5 0).now = true ∧ ForceMsg.due (.set 6 1 0 9) (s 5 9).now = false ∧
     (s 5 0).active = true ∧ (s 5 0).mod.solo = false) ∧
    (let s := pairIn .active none id .forceRepeat; s.expired .forceRepeat = true ∧ s.pair.forceChg = []) := by decide +kernel
theorem witness_PairAndForceCommands_checked :
    reqFits (forceReq 0x0701 24) checked_ = true ∧ checked_.drivesChecked (checked_.currentVid 6) = true ∧ (checked_.homed 6).isSome = true := by decide +kernel

/-- A full-image header (R272): format 2, 5 bytes in one block, version 6; its signature is out of range. -/
def header6 : List Byte :=
  [0x51, 0x44, 0x4C, 0x55] ++ leBytes 2 0x9256 ++ leBytes 2 2 ++ leBytes 8 0 ++ leBytes 4 0 ++ [6, 0, 0, 0] ++ leBytes 4 0 ++ leBytes 4 1 ++ leBytes 4 5 ++ leBytes 4 5
    ++ List.replicate 152 0
def openUpdate (done len : Nat) : State :=
  { onRow .synced with nv := { (onRow .synced).nv with update := some ⟨header6, [0], done, len, 0⟩ } }
def slots (a b : SlotSt) (run : Bool) : State :=
  { onRow .synced with nv := { (onRow .synced).nv with slotA := ⟨a, 5, 0, 0⟩, slotB := ⟨b, 6, 0, 0⟩, runB := run }, mod := { (onRow .synced).mod with bootOk := true } }

/-- An update that may begin, one too old and one while another is open; data that fill the image; a complete image with a bad signature; slots to start, commit and roll back. A good signature needs the private key of the update key, which is an opaque constant (log 9). -/
theorem witness_UpdateCommands :
    (let r := req 0x0901 (header6 ++ leBytes 4 0)
     let s := slots .confirmed .invalid false
     reqFits r s = true ∧ 192 ≤ r.payload.length ∧ r.payload.length = 192 + 4 * hdrBlocks r.payload ∧ hdrOk (r.payload.take 192) = true ∧ s.mod.st ≠ .recovery ∧
     s.rejects (r.payload.take 192) = none ∧ s.nv.update = none ∧ (s.nv.slot s.updateSlot).st ≠ .trial ∧
     (State.rejects { s with nv := { s.nv with floor := 0x07000000 } } (r.payload.take 192)).isSome = true ∧ (openUpdate 0 0).nv.update.isSome = true ∧
     (openUpdate 0 0).rejects (r.payload.take 192) = none) ∧
    (let r := req 0x0902 (leBytes 4 0 ++ [1, 2, 3, 4, 5])
     reqFits r (openUpdate 0 0) = true ∧ 8 ≤ r.payload.length ∧ r.payload.length - 4 ≤ 4060 ∧ field r.payload 0 4 = 0 ∧ 0 + (r.payload.length - 4) ≤ hdrOps header6) ∧
    (reqFits (req 0x0903 []) (openUpdate 5 5) = true ∧ (5 : Nat) = hdrLen header6) ∧
    (let s := slots .confirmed .valid false
     reqFits (req 0x0904 (four 0)) s = true ∧ (four 0).length = 4 ∧ field (four 0) 0 4 < 2 ∧ (s.mayStop (req 0x0904 (four 0))).1 = true ∧ s.validSlot = some true ∧ s.activatable = true) ∧
    (let s := slots .valid .trial true
     reqFits (req 0x0905 []) s = true ∧ s.onTrial = true ∧ s.mod.bootOk = true ∧ (s.nv.slot !s.nv.runB).st ≠ .invalid ∧ (slots .confirmed .valid false).onTrial = false ∧
     reqFits (req 0x0906 (four 0)) s = true ∧ (s.mayStop (req 0x0906 (four 0))).1 = true ∧ s.mod.st ≠ .active ∧ reqFits (req 0x0908 (four 1)) s = true) := by decide +kernel
theorem witness_UpdateCommands_checks :
    (let r := req 0x0901 (header6 ++ leBytes 4 0)
     let chk : State → List (Bool × Status) := fun s => [(decide (192 ≤ r.payload.length) && decide (r.payload.length = 192 + 4 * hdrBlocks r.payload), .badLen), sys r,
       (hdrOk (r.payload.take 192) && (decide (s.mod.st ≠ .recovery) || hdrFull r.payload), .checkFail)]
     goes r (slots .confirmed .invalid false) chk .here = true ∧ goes r (openUpdate 0 0) chk .here = true ∧ ((slots .confirmed .trial false).nv.slot (slots .confirmed .trial false).updateSlot).st = .trial) ∧
    (let r := req 0x0902 (leBytes 4 0 ++ [1, 2, 3, 4, 5])
     goes r (openUpdate 0 0) (fun s => [(decide (8 ≤ r.payload.length) && decide (r.payload.length - 4 ≤ 4060), .badLen), sys r, (s.nv.update.isSome, .notNow),
       ((s.nv.update.map fun u => decide (field r.payload 0 4 = u.opsDone)).getD true, .badLen),
       ((s.nv.update.map fun u => decide (u.opsDone + (r.payload.length - 4) ≤ hdrOps u.header)).getD true, .checkFail)]) .here = true) ∧
    (let r := req 0x0903 []
     goes r (openUpdate 5 5) (fun s => [lenIs r 0, sys r, ((s.nv.update.map fun u => decide (u.len = hdrLen u.header)).getD false, .notNow)]) .here = true) ∧
    (let r := req 0x0904 (four 0)
     goes r (slots .confirmed .valid false) (fun s => [lenIs r 4, sys r, flagsOk r, s.mayStop r, (s.activatable, .notNow)]) .here = true) ∧
    (let s := slots .valid .trial true
     goes (req 0x0905 []) s (fun s => [lenIs (req 0x0905 []) 0, sys (req 0x0905 []), (s.onTrial && s.mod.bootOk, .notNow)]) .here = true ∧
     goes (req 0x0906 (four 0)) s (fun s => [lenIs (req 0x0906 (four 0)) 4, sys (req 0x0906 (four 0)), flagsOk (req 0x0906 (four 0)), (s.onTrial, .notNow), s.mayStop (req 0x0906 (four 0))]) .here = true ∧
     goes (req 0x0908 (four 1)) s (fun s => [lenIs (req 0x0908 (four 1)) 4, sys (req 0x0908 (four 1)), flagsOk (req 0x0908 (four 1)), s.mayStop (req 0x0908 (four 1))]) .here = true) := by decide +kernel
theorem witness_UpdateCommands_unsigned : (openUpdate 5 5).signed (openUpdate 5 5).updateSlot ⟨header6, [0], 5, 5, 0⟩ = false := by
  simp [State.signed, ecdsaOk, show field header6 88 48 = 0 by decide +kernel]

/-- The smallest sample period and debounce, no outputs and no pairs. -/
def image10 : List Byte := leBytes 4 10 ++ ((List.range 32).flatMap fun _ => leBytes 4 1) ++ List.replicate 128 0
def password_ (pw : List Byte) : State := { act with trip := { Trip.reset with password := some ([], sha384 ([] ++ pw)) } }
def session0 : Session := ⟨7, 0, .mailbox 0, 0, 600, some 0⟩

theorem witness_SafetyCommands :
    (let s := asked (req 0x0A01 []) act
     s.sessionOf (req 0x0A01 []) = some session0 ∧ session0.loggedIn s.clk = true ∧ s.reqOf (.mailbox 0) 0x0A01 = some (req 0x0A01 []) ∧ s.trip.loginLocked s.clk = false ∧
     s.trip.passwordIs [0x41] = false ∧ { s.trip with pwLockUntil := some 1 }.loginLocked s.clk = true ∧
     ({ s.trip with pwFails := [0, 0] }.pwFails.filter fun a => decide (s.clk - a < 300000000000)).length = 2) ∧
    (let s := { asked (req 0x0A06 []) act with clk := 300000000000 }
     (∃ y ∈ s.mb.sessions, y.tag = 7 ∧ y.login.isSome = true ∧ y.loggedIn s.clk = false) ∧ ¬(session0.loggedIn s.clk = true)) ∧
    (reqFits (req 0x0A06 []) act = true ∧ passwordOk (List.replicate 16 0x7E) = true ∧ passwordOk [0x20] = true ∧ reqFits (req 0x0A02 []) act = true ∧ image10.length = 260 ∧
     imageOk image10 = true ∧ imageOk (List.replicate 260 0) = false) := by decide +kernel
theorem witness_SafetyCommands_checks :
    (let login (r : Request) (s : State) : Bool × Status := (decide (r.part = 0) && ((s.sessionOf r).map fun x => Session.loggedIn x s.clk).getD false, .denied)
     goes (req 0x0A01 []) act (fun _ => [sys (req 0x0A01 [])]) .here = true ∧
     goes (req 0x0A06 []) act (fun s => [login (req 0x0A06 []) s, (passwordOk [0x20], .checkFail)]) .here = true ∧
     goes (req 0x0A02 []) act (fun s => [(decide (image10.length = 260), .badLen), login (req 0x0A02 []) s]) .here = true ∧
     ((asked (req 0x0A04 []) act).sessionOf (req 0x0A04 [])).map (fun x => Session.loggedIn x act.clk) = some true) := by decide +kernel
theorem witness_SafetyCommands_password : (password_ [0x41]).trip.passwordIs [0x41] = true := by simp [Trip.passwordIs, password_]

/-- A SAFETY_CONFIRM of partition 1, criticality P, for a check value. -/
def confirm (c : W32) : Request := req 0x0A03 (leBytes 2 1 ++ leBytes 2 0 ++ leBytes 4 c.toNat)
def critical : State :=
  { act with parts := [(1, { part1 with cfg := { part1.cfg with crit := .p } })], trip := { Trip.reset with image := image10, password := some ([], []) } }
theorem field_confirm (c : W32) : field (confirm c).payload 4 4 = c.toNat ∧ field (confirm c).payload 0 2 = 1 ∧ (confirm c).payload.length = 8 := by
  refine ⟨?_, rfl, rfl⟩
  have h := c.isLt
  simp [confirm, req, leBytes, field, leNat]
  omega
theorem witness_SafetyCommands_confirm :
    (asked (confirm 0) critical).reqOf (.mailbox 0) 0x0A03 = some (confirm 0) ∧ (critical.part? 1).map (·.cfg.crit) = some .p ∧ critical.trip.password.isSome = true ∧
    critical.trip.pendImage.getD critical.trip.image = image10 ∧ image10 ≠ [] ∧ imageOk image10 = true ∧
    (∀ c, (asked (confirm c) critical).checkOver image10 1 = critical.checkOver image10 1) ∧
    field (confirm (critical.checkOver image10 1)).payload 4 4 = (critical.checkOver image10 1).toNat ∧
    field (confirm (critical.checkOver image10 1 + 1)).payload 4 4 ≠ (critical.checkOver image10 1).toNat := by
  refine ⟨by decide +kernel, by decide, by decide, rfl, by decide, by decide +kernel, fun _ => rfl, (field_confirm _).1, ?_⟩
  rw [(field_confirm _).1]
  bv_omega

/-! ### Time, CAN and station ports -/

def shadow_ (at_ : W64) (step : Option (W64 × W64)) : State :=
  { row with time := { Time.reset with applyArm := true, applyAt := at_, cnt := 5, step := step, stepLoaded := step.isSome } }
def timeAt (cnt : W64) (f : Time → Time) : State := { row with clk := cnt.toNat, time := f { Time.reset with cnt := cnt } }

/-- T_APPLY just reached and not yet; 2 s after the last anchor and before; the ns of a whole second and the third one after; 3 s without a measurement; 1000 s in HOLDOVER, an error of 1 µs and above. -/
theorem witness_TimeUnitAndRingTime_unit :
    (row.time.applyArm = false ∧ (shadow_ 6 none).time.cnt.toNat < (shadow_ 6 none).time.applyAt.toNat ∧ (shadow_ 5 none).time.applyAt.toNat ≤ (shadow_ 5 none).time.cnt.toNat ∧
     (shadow_ 5 none).time.step = none ∧ (shadow_ 5 (some (5, 1))).time.step = some (5, 1) ∧ (shadow_ 5 (some (5, 1))).time.stepLoaded = true) ∧
    (row.firmware = true ∧ row.time.anchored = none ∧ State.reset.firmware = false ∧
     2000000000 ≤ (since (timeAt 2000000000 fun t => { t with anchored := some 0 }).now 0).natAbs ∧
     (since (timeAt 1999999999 fun t => { t with anchored := some 0 }).now 0).natAbs < 2000000000) ∧
    (let s := timeAt 0 fun t => { t with ppsinEn := true }; s.firmware = true ∧ s.time.ppsinEn = true ∧ s.time.everSet = false ∧ row.time.ppsinEn = false) ∧
    ((timeAt 1000000001 id).powered = true ∧ (timeAt 1000000001 id).time.ppsoutEn = true ∧ (timeAt 1000000001 id).now.toNat % 1000000000 ≤ 1 ∧
     (timeAt 1000000001 id).time.ppsSec = none ∧ 1 < (timeAt 1000000002 id).now.toNat % 1000000000) ∧
    (idle_ row .ppsEnd).expired .ppsEnd = true ∧
    (let s (c : W64) := timeAt c fun t => { t with state := 0 }
     (s 3000000000).time.state = 0 ∧ 3000000000 ≤ (s 3000000000).clk - (s 3000000000).time.lastMeas ∧ (s 2999999999).clk - (s 2999999999).time.lastMeas < 3000000000 ∧
     row.time.state ≠ 0) ∧
    (let s (c : W64) (e : Nat) := timeAt c fun t => { t with state := 1, holdE0 := e }
     (s 0 0).time.state = 1 ∧ 1000000000000 ≤ (s 1000000000000 0).clk - (s 1000000000000 0).time.holdAt ∧ 1000 < (s 0 1001).timeErr ∧ (s 0 1000).timeErr ≤ 1000 ∧
     (s 0 1000).clk - (s 0 1000).time.holdAt < 1000000000000) := by decide +kernel

/-- A TIME frame of a kind from module 2. -/
def time_ (kind : Byte) : Frame := frame 4 2 2 (kind :: List.replicate 31 0)
def heard_ (m : Nat) : State := { idle_ row .masterSync with time := { Time.reset with masterMod := some m, masterGrade := 5, heard := [(2, 0, 0, 0, 2)] } }

/-- Exchange of a link delay; the master's own SYNC; ANNOUNCE to a module without a master, and the third in succession of a better grade; the master silent. -/
theorem witness_TimeUnitAndRingTime_ring :
    (row.portUp .e = true ∧ row.due (.pdelaySend 1) = true ∧ Port.e ≠ .pl) ∧
    ((row.receiveNear .e (time_ 2)).deliver = true ∧ (time_ 2).ty = 4 ∧ field (time_ 2).payload 0 1 = 2 ∧ (act.receiveNear .e (time_ 2)).deliver = false) ∧
    (let s := row.setLinkDelay .e { LinkDelay.reset with reqAt := some 0 }
     (s.receiveNear .e (time_ 3)).deliver = true ∧ field (time_ 3).payload 0 1 = 3 ∧ (s.link .e).reqAt = some 0 ∧ (row.link .e).reqAt = none) ∧
    ((heard_ 0).firmware = true ∧ (heard_ 0).time.masterMod = some (heard_ 0).module ∧ (heard_ 0).due .syncSend = true ∧ (heard_ 1).time.masterMod ≠ some (heard_ 1).module ∧
     row.due .announceSend = true) ∧
    (row.Delivers .e (time_ 4) ∧ field (time_ 4).payload 0 1 = 4 ∧ row.time.masterMod = none) ∧
    ((heard_ 1).Delivers .e (time_ 4) ∧ (heard_ 1).time.masterMod = some 1 ∧ 1 ≠ (time_ 4).srcMod ∧ tfind (heard_ 1).time.heard (time_ 4).srcMod = some (0, 0, 0, 2) ∧
     field (time_ 4).payload 1 1 < (heard_ 1).time.masterGrade) ∧
    (let s := { heard_ 1 with clk := 3000000000 }
     s.time.masterMod = some 1 ∧ 1 ≠ s.module ∧ s.expired .masterSync = true ∧ (∀ q ∈ terase s.time.heard 1, 3000000000 ≤ s.clk - q.2.2.2.1)) ∧
    ({ time_ 1 with crc := 0 } : Frame).crcOk = false := by decide +kernel

theorem syncOn_crcOk (f : Frame) (d : Nat) (r : W64) (h : f.crcOk = true) : (syncOn f d r).crcOk = true := by
  unfold syncOn
  simp only [h, if_true]
  exact decide_eq_true rfl
/-- SYNC of the domain time master, whatever its residence time in this module. -/
theorem witness_TimeUnitAndRingTime_sync :
    let s := heard_ 2
    let f := time_ 1
    let g := if f.formed ∧ f.crcOk then syncOn f (s.link .e).delay s.draw.1 else f
    (s.draw.2.receive .e g).deliver = true ∧ f.ty = 4 ∧ field f.payload 0 1 = 1 ∧ s.firmware = true ∧ s.time.masterMod = some 2 ∧ 2 = f.srcMod ∧ 2 ≠ s.module := by
  have a : (time_ 1).formed = true := by decide
  have b : (time_ 1).crcOk = true := frame_crcOk _ _ _ _
  refine ⟨?_, by decide, by decide, by decide, by decide, by decide, by decide⟩
  have c : ((time_ 1).formed = true ∧ (time_ 1).crcOk = true) := ⟨a, b⟩
  rw [if_pos c]
  have l : ∀ d r, (syncOn (time_ 1) d r).payload.length = 32 := by intro d r; simp [syncOn, time_, frame, leBytes_length]
  refine delivers_of _ _ _ (by rfl) ?_ (by rfl) (by rfl) (by rfl) (syncOn_crcOk _ _ _ b)
  simp only [Frame.formed, l]
  rfl

def filter0 : Table W32 := [(0, 0x80000100), (1, 0x80000200)]
def can_ (f : Can → Can) : State := { act with can := [(3, f { Can.reset with mode := 1, on := true, match_ := filter0, mask := [(0, 0x1FFFFFFF), (1, 0x1FFFFFFF)] })] }
def canFrame (id : BitVec 29) (remote : Bool) : CanFrame := ⟨id, false, false, false, false, remote, 1, [1], 0⟩
def tx_ (pend : Option CanFrame) (onBus : Bool) : CanTx := ⟨⟨5, false, false, false, 1, 0, 0, []⟩, pend, none, onBus, false, none, 0⟩
def detect_ : CanDetect := ⟨.mailbox 0, 1, 7, 0, 0, false, 100⟩
def timing8 : CanTiming := ⟨1, 99, 25, 25, 1, 1, 1, 1⟩
def cfg8 : CanCfg := ⟨1, timing8, 0, 0, [], [], [], none, 1, []⟩

/-- A frame that no filter takes, a remote one, one for the first and for the second filter; a frame sent, retransmitted, aborted; bus off and back; the search at its last candidate. -/
theorem witness_CanChannels :
    (act.canOf 3).live = false ∧ ((can_ id).canOf 3).live = true ∧ ((can_ id).canOf 3).detect = none ∧ ((can_ id).canOf 3).tref.msb = false ∧
    (∀ j ∈ List.range 64, ((can_ id).canOf 3).matches_ (canFrame 0x300 false) j = false) ∧ (canFrame 0x300 true).remote = true ∧ ((can_ id).canOf 3).q0 = [] ∧
    ((can_ id).canOf 3).matches_ (canFrame 0x100 false) 0 = true ∧ ((can_ id).canOf 3).matches_ (canFrame 0x200 false) 1 = true ∧
    ((can_ id).canOf 3).matches_ (canFrame 0x200 false) 0 = false ∧ (tget (0 : W32) ((can_ id).canOf 3).match_ 1).getLsbD 29 = false ∧
    (let x := (can_ fun x => { x with tx := [tx_ (some (canFrame 5 false)) true] }).canOf 3
     x.live = true ∧ x.tx[0]? = some (tx_ (some (canFrame 5 false)) true) ∧ (tx_ (some (canFrame 5 false)) true).aborting = false ∧ (∀ o ∈ x.tx, o.aborting = false)) ∧
    ((can_ fun x => { x with estate := 2 }).canOf 3).estate = 2 ∧ ({ can_ id with timers := [(.canOn 3, 0)] } : State).expired (.canOn 3) = true ∧ ((can_ id).canOf 3).mode ≠ 0 ∧
    (let s := { can_ fun x => { x with detect := some detect_ } with timers := [(.canDwell 3, 0), (.canSearch 3, 0)] }
     (s.canOf 3).detect = some detect_ ∧ s.expired (.canDwell 3) = true ∧ s.expired (.canSearch 3) = true) ∧
    (reqFits (req 0x0B01 []) (can_ id) = true ∧ (can_ id).canCfgOk cfg8 = true ∧ (can_ id).canCfgOk { cfg8 with mode := 4 } = false) ∧
    (let r := req 0x0B02 [3, 0, 0, 0]
     reqFits r (can_ id) = true ∧ field r.payload 0 1 = 3 ∧ field r.payload 1 1 = 0 ∧
     ((can_ fun x => { x with tx := [tx_ none false] }).canOf 3).tx[0]? = some (tx_ none false) ∧
     ((can_ fun x => { x with tx := [tx_ (some (canFrame 5 false)) false] }).canOf 3).tx[0]? = some (tx_ (some (canFrame 5 false)) false)) ∧
    (let r := req 0x0B03 ([3, 1, 0, 0] ++ leBytes 4 60000 ++ leBytes 2 10 ++ leBytes 2 0)
     reqFits r (can_ id) = true ∧ r.payload.length = 12 ∧ field r.payload 0 1 < 4 ∧ field r.payload 1 1 < 2 ∧ 100 ≤ field r.payload 4 4 ∧ field r.payload 4 4 ≤ 60000 ∧
     10 ≤ field r.payload 8 2 ∧ field r.payload 8 2 ≤ 1000 ∧ ((can_ fun x => { x with mode := 3 }).canOf 3).mode = 3 ∧ ((can_ id).canOf 3).mode ≠ 3) := by decide +kernel
theorem witness_CanChannels_frames :
    (let x (n : Nat) := (can_ fun x => { x with match_ := [(0, 0xA0000100)], q1 := List.replicate n (canFrame 1 false) }).canOf 3
     (x 63).matches_ (canFrame 0x100 false) 0 = true ∧ (tget (0 : W32) (x 63).match_ 0).getLsbD 29 = true ∧ (x 63).q1.length < 64 ∧ 64 ≤ (x 64).q1.length) ∧
    64 ≤ ((can_ fun x => { x with q0 := List.replicate 64 (0, canFrame 1 false) }).canOf 3).q0.length ∧
    (let s := can_ fun x => { x with tref := 0x80000080 }
     s.active = true ∧ (s.canOf 3).tref.msb = true ∧ (canFrame 0x80 false).ide = false ∧ (s.canOf 3).refStop = false ∧ (canFrame 0x80 false).id.toNat % 2 ^ 11 = bitsAt (s.canOf 3).tref.toNat 0 11) ∧
    (detect_.good < 3 ∧ 3 ≤ { detect_ with good := 3, apply := true, index := 7 }.good ∧ ((can_ id).canOf 3).table[7]?.isSome = true) ∧
    (let s := can_ fun x => { x with ref := some (canFrame 0x80 false), tx := [tx_ (some (canFrame 5 false)) false] }
     (s.canOf 3).live = true ∧ (s.canOf 3).ref.isSome = true ∧ s.canMode (s.canOf 3) = 1 ∧ ∀ y ∈ (s.canOf 3).tx, y.onBus = false) := by decide +kernel
theorem witness_CanChannels_checks :
    goes (req 0x0B01 []) (can_ id) (fun s => [sys (req 0x0B01 []), (s.canCfgOk cfg8, .checkFail)]) .here = true ∧
    (let s : State := { can_ fun x => { x with on := false } with mod := { Mod.reset with st := .active } }
     s.joined = true ∧ cfg8.mode ≠ 0 ∧ (s.canOf 3).on = false ∧ s.armed (.canOn 3) = false) ∧
    (let r := req 0x0B02 [3, 0, 0, 0]
     let chk : State → List (Bool × Status) := fun s => [lenIs r 4, (decide (r.part = 0) || decide (((s.abortSlot r).bind fun o => s.canOwner o.cfg) = some r.part), .denied), ((s.abortSlot r).isSome, .checkFail)]
     goes r (can_ fun x => { x with tx := [tx_ none false] }) chk .here = true ∧ stops r (can_ id) chk .checkFail = true) ∧
    (let r (t d : Nat) := req 0x0B03 ([3, 1, 0, 0] ++ leBytes 4 t ++ leBytes 2 d ++ leBytes 2 0)
     let chk (r : Request) : State → List (Bool × Status) := fun s => let f := field r.payload
       [lenIs r 12, sys r, (decide (f 0 1 < 4) && decide (f 1 1 < 2) && decide (100 ≤ f 4 4) && decide (f 4 4 ≤ 60000) && decide (10 ≤ f 8 2) && decide (f 8 2 ≤ 1000), .checkFail),
        (decide ((s.canOf (f 0 1)).mode = 3) && (s.canOf (f 0 1)).detect.isNone, .notNow)]
     let s := can_ fun x => { x with mode := 3 }
     goes (r 100 10) s (chk (r 100 10)) .here = true ∧ goes (r 60000 1000) s (chk (r 60000 1000)) .here = true ∧ stops (r 99 10) s (chk (r 99 10)) .checkFail = true ∧
     stops (r 100 1001) s (chk (r 100 1001)) .checkFail = true ∧ stops (r 100 10) (can_ id) (chk (r 100 10)) .notNow = true) := by decide +kernel
def eth (rct : Option (Nat × Bool)) : EthFrame := ⟨9, rct, false, true, false, .other⟩
def stn_ (f : Station → Station) : State := { act with stn := f { Station.reset with link1 := true, link2 := true } }
def ptpMsg (d : Nat) : PtpMsg := ⟨d, 0, 0, 7⟩
def data7 : PtpData := ⟨128, 6, 0x21, 0, 128, 7, 0⟩
def ptp_ (x : PtpPort) (f : Time → Time) : State := { stn_ id with time := f { Time.reset with ptp := [(0, x)] } }
def heard7 : PtpPort := { PtpPort.reset with master := some (7, data7) }
def pub1 : StationPub := ⟨1, 0, 0, 7, 255, 1, [6]⟩

/-- Links up with and without a new address; the last ARP; the 20,000th frame of a second and the one after; a duplicate just inside 400 ms; PTP messages of the domain and of another; a better port heard twice and three times. -/
theorem witness_StationPortsAndPtp :
    (act.powered = true ∧ act.mod.st ≠ .recovery ∧ ({ act with nv := { act.nv with pendIp := some (1, 2, 3) } } : State).nv.pendIp = some (1, 2, 3) ∧ act.nv.pendIp = none) ∧
    (let s := { stn_ fun x => { x with arp := [(1, 1)] } with timers := [(.arp 1, 0)] }; tget 0 s.stn.arp 1 = 0 + 1 ∧ s.expired (.arp 1) = true ∧ s.stackOn 1 = true) ∧
    (act.stackOn 0 = false ∧ (stn_ id).stackOn 0 = true ∧ (eth none).ptp = false ∧ (eth none).vlanTagged = false ∧ (eth none).toStack = true ∧ (eth none).rct = none) ∧
    (tfind (stn_ fun x => { x with rxCnt := [(0, 0, 19999)] }).stn.rxCnt 0 = some (act.clk / 1000000000, 19999) ∧
     tfind (stn_ fun x => { x with rxCnt := [(0, 0, 20000)] }).stn.rxCnt 0 = some (act.clk / 1000000000, 20000)) ∧
    (let s := { stn_ fun x => { x with seen := [(9, 4, 0)] } with clk := 399999999 }
     s.stn.mode = 2 ∧ (eth (some (4, true))).rct = some (4, true) ∧ s.stn.seen = [(9, 4, 0)] ∧ s.clk - 0 < 400000000) ∧
    (stn_ id).due .prp = true ∧
    (reqFits (req 0x0B05 []) (stn_ id) = true ∧ (⟨2, 255, none⟩ : StationCfg).mode ≠ 3 ∧ reqFits (req 0x0B06 (four 0)) world = true ∧ pubOk pub1 = true ∧
     (world.part? pub1.part).isSome = true ∧ world.stn.pubs.length < 32) := by decide +kernel

theorem witness_StationPortsAndPtp_frames :
    (State.reset.powered = false ∧ (act.mod.st = .recovery → (1 : Fin 2).val = 0)) ∧
    ((stn_ id).stn.mode = 2 ∧ (stn_ id).mod.st ≠ .recovery ∧ (eth (some (4, true))).rct = some (4, true) ∧
     (stn_ id).stn.seen = [] ∧
     (let s := { stn_ fun x => { x with seen := [(9, 4, 0)] } with clk := 400000000 }; ∀ u ∈ s.stn.seen, 400000000 ≤ s.clk - u.2.2)) ∧
    (∀ m : BitVec 2, (stn_ fun x => { x with mode := m }).stn.mode = m) ∧
    (let r := req 0x0B05 []
     goes r (stn_ id) (fun _ => [sys r, (decide ((2 : BitVec 2) ≠ 3) && decide (255 < 256), .checkFail)]) .here = true ∧
     stops r (stn_ id) (fun _ => [sys r, (decide ((2 : BitVec 2) ≠ 3) && decide (256 < 256), .checkFail)]) .checkFail = true) ∧
    (let r := req 0x0B06 (four 0)
     let chk : State → List (Bool × Status) := fun s =>
       [own r pub1.part, (((s.stn.pub? pub1.id).map fun x => (own r x.1.part).1).getD true, .denied), s.epochIs r, (pubOk pub1, .checkFail),
        ((s.part? pub1.part).isSome, .checkFail), ((s.stn.pub? pub1.id).isSome || decide (s.stn.pubs.length < 32), .noRoom)]
     goes r world chk .here = true ∧ stops r act chk .checkFail = true) := by decide +kernel

theorem witness_StationPortsAndPtp_ptp :
    ((stn_ id).ptpTakes 0 (ptpMsg 1) = false ∧ (stn_ id).ptpTakes 0 (ptpMsg 0) = true ∧ (ptp_ { heard7 with reqAt := some 0 } id).ptpTakes 0 (ptpMsg 0) = true ∧
     ((ptp_ { heard7 with reqAt := some 0 } id).ptp 0).reqAt = some 0) ∧
    ((stn_ id).firmware = true ∧ (stn_ id).ethUp 0 = true ∧ (stn_ id).due (.ptpPdelay 0) = true) ∧
    (((stn_ id).ptp 0).current 0 = none ∧ ((ptp_ { heard7 with master := some (8, data7) } id).ptp 0).current 0 = some (8, data7) ∧ 8 ≠ (ptpMsg 0).identity ∧
     ptpBetter { data7 with priority1 := 129 } data7 = false) ∧
    (let s (n : Nat) := ptp_ { heard7 with lastSync := some 0 } fun t => { t with ptpPort := some 0, ptpBetter := n }
     (s 3).time.ptpPort = some 0 ∧ 3 ≤ (s 3).time.ptpBetter ∧ (s 2).time.ptpBetter < 3 ∧ usable (s 2).clk ((s 2).ptp 0).lastSync = true) ∧
    (((ptp_ heard7 id).ptp 0).master.map (·.1)) = some (ptpMsg 0).identity ∧ (((stn_ id).ptp 0).master.map (·.1)) ≠ some (ptpMsg 0).identity ∧
    (let s := ptp_ heard7 fun t => { t with ptpPort := some 0, everSet := true, stepThr := 1000, srcPrio := [1] }
     let m : PtpMsg := ⟨0, 1000, 0, 7⟩
     let u := s.setPtp 0 { s.ptp 0 with lastSync := some s.clk }
     s.ptpTakes 0 m = true ∧ s.time.ptpPort = some 0 ∧ u.timeSource = 0 + 1 ∧ s.time.everSet = true ∧
     s.time.stepThr.toNat ≤ (since (m.ts + BitVec.ofNat 64 (s.ptp 0).delay) m.rx).natAbs ∧ s.time.step = none) := by decide +kernel

/-! ### Supply, start and stop -/

def off (vin : Nat) : State := { State.reset with mod := { Mod.reset with st := .off }, pins := { Pins.reset with vin := vin } }
def poweredOn (st : MState) (stop : Stop) (t : Timer) : State :=
  { State.reset with mod := { Mod.reset with st := st, stop := stop }, timers := [(t, 0)], pwr := { Pwr.reset with convOn := true, holdupOk := true } }
def waitingIn (t : Timer) : State := { State.reset with timers := [(t, 0)] }

/-- VIN at 18.5 V and 33.0 V, below 17.0 V with and without converters; the start delay over with RST_N high and low; resets by RST_N and PRESENT_N. -/
theorem witness_SupplyAndStart :
    ((off 0).mod.st = .off ∧ (18500 : Nat) ≤ 33000 ∧ (off 0).pins.vin < 18500 ∧ (off 0).pins.presentN = false ∧ (off 0).pins.parityOk = true ∧ (off 0).pwr.locked = false) ∧
    (State.reset.mod.st = .bypass ∧ State.reset.pwr.convOn = false ∧ (poweredOn .active .none .led).powered = true ∧ (poweredOn .active .none .led).pwr.convOn = true ∧
     (poweredOn .active .none .led).pwr.holdupOk = true ∧ (poweredOn .active .none .led).mod.stop = .none) ∧
    (let s := waitingIn .startDelay; s.mayStart = true ∧ s.stopping = false ∧ s.expired .startDelay = true ∧ s.pins.rstN = true ∧
     ({ s with pins := { s.pins with rstN := false } } : State).mayStart = true) ∧
    (let s := poweredOn .bypass .none .rstRelease; s.mod.st = .bypass ∧ s.pwr.convOn = true ∧ s.pins.rstN = true ∧ s.pwr.tcxoBad = false ∧ s.stopping = false ∧
     s.expired .rstRelease = true) ∧
    (act.mod.st ≠ .bypass ∧ act.powered = true ∧ act.resettable = true ∧ ({ poweredOn .bypass .none .led with pins := { Pins.reset with rstN := false } } : State).pins.rstN = false) ∧
    (act.pins.presentN = false ∧ act.mod.stop = .none ∧ (onRow .synced).mod.st ≠ .active) ∧
    (let s := poweredOn .active .silent .led; s.mod.st ≠ .off ∧ s.mod.withdrawn = true) := by decide +kernel

/-- Each limit at its value and just short of it. -/
theorem witness_StopsFaultsAndBoot :
    (let s (t : Timer) := poweredOn .active (.waiting 3 false) t
     (s .stopWait).mod.stop = .waiting 3 false ∧ (s .stopWait).expired .stopWait = true ∧ (s .led).expired .stopWait = false ∧ (s .led).partnerTook = false) ∧
    (let s := poweredOn .active (.powerSeq 3) .powerSeq; s.mod.stop = .powerSeq 3 ∧ s.expired .powerSeq = true ∧ (16999 : Nat) < 17000) ∧
    (let s := poweredOn .active .none .led; s.mod.st ≠ .off ∧ s.pwr.convOn = true ∧ s.mod.stop = .none ∧ s.powered = true ∧ s.resettable = true) ∧
    (1050 ≤ (1050 : W16).toInt ∧ 750 ≤ (750 : W16).toInt ∧ 1250 ≤ (1250 : W16).toInt ∧ (1249 : W16).toInt < 1250 ∧ (949 : W16).toInt < 950) ∧
    (let s (n : Nat) : State := { waitingIn .restart with clk := 600000000000, mod := { Mod.reset with restarts := List.replicate n 0 } }
     (s 3).mod.st = .bypass ∧ (s 3).expired .restart = true ∧ (s 3).pwr.cause ≠ 0x03 ∧
     3 ≤ ((s 3).mod.restarts.filter fun t => decide ((s 3).clk - t ≤ 600000000000)).length ∧
     ((s 2).mod.restarts.filter fun t => decide ((s 2).clk - t ≤ 600000000000)).length < 3) ∧
    (let s := poweredOn .boot .none .bootLimit; s.mod.st = .boot ∧ s.expired .bootLimit = true ∧ s.resettable = true ∧ s.stopping = false ∧ s.nv.slotA.st = .confirmed ∧
     s.pwr.recoveryN = true ∧ s.nv.recReq = false ∧ s.pwr.pairSide = s.pwr.strap.getLsbD 0 ∧
     ({ s with nv := { s.nv with slotB := { s.nv.slotB with st := .valid } } } : State).nv.slotB.st = .valid) ∧
    ({ poweredOn .bypass .none .led with pwr := { Pwr.reset with tcxoBad := true, convOn := true } } : State).pwr.tcxoBad = true ∧
    (let s (st : MState) (t : Timer) : State :=
       { poweredOn st .none t with nv := { Nv.reset with slotB := { Nv.reset.slotB with st := .trial }, runB := true }, pair := { Pair.reset with view := some (view_ 5) } }
     (s .synced .trialSave).nv.slotB.st = .trial ∧ (s .synced .trialSave).nv.runB = true ∧ (s .synced .trialSave).expired .trialSave = true ∧
     (s .synced .trialLimit).expired .trialLimit = true ∧ (s .synced .trialLimit).mod.stop = .none ∧ (s .synced .trialLimit).mod.st ≠ .active ∧
     (s .active .trialLimit).active = true ∧ (s .active .trialLimit).partnerSynced = true) ∧
    (let s : State := { poweredOn .active .none .fallback with nv := { Nv.reset with fallback := some 1 } }
     s.nv.fallback.isSome = true ∧ s.expired .fallback = true ∧ s.active = true ∧ s.partnerSynced = false ∧ act.nv.fallback = none) ∧
    (waitingIn .led).expired .led = true := by decide +kernel

theorem witness_StopsFaultsAndBoot_boot :
    (let s := poweredOn .boot .none .bootLimit
     s.mod.st = .boot ∧ s.stopping = false ∧ (roundOrder.filter fun u => (s.bootFinds [] u).isSome).length < 2 ∧
     2 ≤ (roundOrder.filter fun u => (s.bootFinds [(0, 0), (1, 143)] u).isSome).length ∧ (∀ m ∈ (moving .boot false []).nv.moves, m.written = false) ∧
     ({ s with pwr := { s.pwr with strap := 0 } } : State).pwr.recoveryN = false ∧ ({ s with nv := { s.nv with recReq := true } } : State).nv.recReq = true) ∧
    (let s : State := { poweredOn .bypass .none .led with pwr := { Pwr.reset with tcxoBad := true, convOn := true } }
     s.pwr.tcxoBad = true ∧ s.mod.st = .bypass ∧ s.pwr.convOn = true ∧ s.pins.rstN = true) ∧
    (({ act with nv := { Nv.reset with runB := false } } : State).nv.slotA.st ≠ .trial ∧ act.expired .led = false) := by decide +kernel

/-! ### Instruction words of the worked examples (R102, R103, R117) -/

theorem test_words_native : decodeNative 0 0x20400000 = some (.addk 0 2 0 0) ∧ decodeNative 0 0x88820400 = some (.imldx 0 4 2 0x400) ∧
    decodeNative 0 0x00632000 = some (.add 0 3 3 4) ∧ decodeNative 0 0x3CA20008 = some (.ltsk 0 5 2 8) ∧ decodeNative 0 0xA4A0FFFC = some (.brne 0 5 0 0xFFFC) ∧
    decodeNative 0 0x84600500 = some (.imst 0 3 0x500) ∧ decodeNative 0 0x14000005 = some (.yieldPass 0 0 0 0) ∧ decodeNative 0 0 = some (.add 0 0 0 0) ∧
    decodeNative 0 0x0000000B = none ∧ decodeNative 0 0xFC000000 = none := by decide
theorem test_words_bit_logic : decodeBitLogic 0 0x04008403 = some (.blLd 0 0x8403) ∧ blLii 0x8403 = 0x210 ∧ decodeBitLogic 0 0x1400C000 = some (.blOr 0 0xC000) ∧
    decodeBitLogic 0 0x10008404 = some (.blAndn 0 0x8404) ∧ decodeBitLogic 0 0x2400C000 = some (.blSt 0 0xC000) ∧ decodeBitLogic 0 0x68000000 = some (.blEnd 0 0) ∧
    decodeBitLogic 0 0x6C000000 = none := by decide

/-! ### Operands out of the ranges the spec gives them -/

theorem test_illformed_lii : (Instr.inputDeadline 0 0x100000).wf = false ∧ (Instr.inputDeadline 0 0xFFFFF).wf = true := by decide
theorem test_illformed_frame : (Instr.pub .e { pubFrame with payload := [0] }).wf = false ∧ (Instr.pub .e { pubFrame with payload := List.replicate 1028 0 }).wf = false ∧
    (Instr.sig { pubFrame with typeVc := 0x27, payload := List.replicate 132 0 }).wf = false ∧ (Instr.pub .e pubFrame).wf = true := by decide +kernel
theorem test_illformed_req : (Instr.req .e pubFrame { row.reqMsg asker none with part := 512 }).wf = false ∧
    (Instr.req .e pubFrame { row.reqMsg asker none with origin := 4096 }).wf = false ∧
    (Instr.req .e pubFrame { row.reqMsg asker none with payload := List.replicate 4065 0 }).wf = false ∧ (Instr.rsp .e pubFrame (rspMsg true)).wf = true := by decide +kernel
theorem test_illformed_ident : (Instr.ident .e { farIdent 0 with nr := 0 }).wf = false ∧ (Instr.ident .e { farIdent 0 with nc := 65 }).wf = false ∧
    (Instr.ident .e (farIdent 0)).wf = true := by decide
theorem test_illformed_link : (Instr.ringBreak .e pubFrame { linkE with pos := 64 }).wf = false ∧ (Instr.ringPlan .e pubFrame [linkE, { linkE with ring := 64 }] 0).wf = false ∧
    (Instr.ringMend .e pubFrame linkE).wf = true := by decide
theorem test_illformed_bundle : (Instr.bundle 0 0 (List.replicate 129 ⟨6, .bits, 1⟩)).wf = false ∧ (Instr.bundle 0 0 [⟨0x100000, .bits, 1⟩]).wf = false ∧
    (Instr.bundle 0 0 words1).wf = true := by decide +kernel
theorem test_illformed_mirror : (Instr.mirror { mirror1 true with part := 512 }).wf = false ∧ (Instr.mirror { mirror1 true with cls := 8 }).wf = false ∧
    (Instr.mirror { mirror1 true with words := [⟨0x100000, .bits, 1⟩] }).wf = false ∧ (Instr.mirror (mirror1 true)).wf = true := by decide
theorem test_illformed_rules : (Instr.guardSet (.mailbox 0) (List.replicate 4097 ruleR)).wf = false ∧ (Instr.guardSet (.mailbox 0) [ruleR]).wf = true := by decide +kernel
theorem test_illformed_can : (Instr.canFrameReceived 0 { canFrame 1 false with data := List.replicate 9 0 }).wf = false ∧
    (Instr.canFrameReceived 0 { canFrame 1 false with fdf := true, data := List.replicate 65 0 }).wf = false ∧ (Instr.canFrameReceived 0 (canFrame 1 false)).wf = true := by decide +kernel
theorem test_illformed_ptp : (Instr.ptpSync 0 (ptpMsg 256)).wf = false ∧ (Instr.ptpAnnounce 0 (ptpMsg 256) data7).wf = false ∧ (Instr.ptpSync 0 (ptpMsg 255)).wf = true := by decide
theorem test_illformed_keys : (Instr.hostkeySet (.mailbox 0) 0 (List.replicate 31 0)).wf = false ∧ (Instr.safetyLogin (.mailbox 0) []).wf = false ∧
    (Instr.safetyPasswordSet (.mailbox 0) (List.replicate 17 0)).wf = false ∧ (Instr.hostkeySet (.mailbox 0) 0 (List.replicate 32 0)).wf = true := by decide +kernel
theorem test_illformed_class : (Instr.classSet (.mailbox 0) 0 90 0).wf = false ∧ (Instr.classSet (.mailbox 0) 0 105 0).wf = false ∧ (Instr.classSet (.mailbox 0) 0 100 100).wf = false ∧
    (Instr.classSet (.mailbox 0) 0 100 99).wf = true := by decide
theorem test_illformed_counts : (Instr.varRead (.mailbox 0) (List.replicate 251 0)).wf = false ∧ (Instr.vinApplied 65536).wf = false ∧ (Instr.powerLoss 65536).wf = false := by decide +kernel

/-! ### Single steps with results worked out by hand from the rules -/

/-- w4 after an instruction with w2 and w3 as given. -/
def w4 (i : Instr) (a b : W64) : W64 := ((next (exec i (regs23 a b))).lane 0).reg 4

/-- R104. -/
theorem test_add_wraps : w4 (.add 0 4 2 3) 0xFFFFFFFFFFFFFFFF 2 = 1 := by decide +kernel
theorem test_sub_order : w4 (.sub 0 4 2 3) 5 7 = 0xFFFFFFFFFFFFFFFE := by decide +kernel
theorem test_sar_keeps_sign : w4 (.sar 0 4 2 3) 0x8000000000000000 63 = 0xFFFFFFFFFFFFFFFF := by decide +kernel
theorem test_lts_signed : w4 (.lts 0 4 2 3) 0xFFFFFFFFFFFFFFFF 0 = 1 ∧ w4 (.ltu 0 4 2 3) 0xFFFFFFFFFFFFFFFF 0 = 0 := by decide +kernel
theorem test_addk_sign_extends : w4 (.addk 0 4 2 0xFFFF) 5 0 = 4 := by decide +kernel
theorem test_mulhs : w4 (.mulhs 0 4 2 3) 0xFFFFFFFFFFFFFFFF 2 = 0xFFFFFFFFFFFFFFFF := by decide +kernel
/-- R105: the quotient towards zero. -/
theorem test_divs_towards_zero : w4 (.divs 0 4 2 3) 0xFFFFFFFFFFFFFFF9 2 = 0xFFFFFFFFFFFFFFFD ∧ w4 (.rmds 0 4 2 3) 0xFFFFFFFFFFFFFFF9 2 = 0xFFFFFFFFFFFFFFFF := by
  decide +kernel
/-- R91: w0 reads zero and discards writes. -/
theorem test_w0_is_zero : ((next (exec (.add 0 0 2 3) (regs23 1 2))).lane 0).reg 0 = 0 := by decide +kernel
/-- The worked example "catching a corrupted product" of 03: y = 1,200 × (−35) / 16 + 7 in code words. -/
theorem test_coded_product : w4 (.cmul 0 4 2 3) 78625200 (-2293235) = -2751882000 := by decide +kernel
theorem test_coded_quotient : w4 (.cdiv 0 4 2 3) (-2751882000) 1048336 = -171992625 := by decide +kernel
theorem test_coded_verdicts :
    let w (v : Int) : List BWord := [⟨6, .int, BitVec.ofInt 64 v⟩]
    (verdictOf none true (w (-2618)) (w (-171533978))).1 = .pass ∧ (verdictOf none true (w (-2618)) (w (-171533962))).1 = .code ∧
    (verdictOf none true (w (-2602)) (w (-171533978))).1 = .value := by decide +kernel
/-- R106, IEEE 754: 1 + 2 = 3, 1 / 2 = 0.5, and 1/3 rounds to nearest. -/
theorem test_fadd64 : w4 (.fadd64 0 4 2 3) 0x3FF0000000000000 0x4000000000000000 = 0x4008000000000000 := by decide +kernel
theorem test_fdiv64_rounds : w4 (.fdiv64 0 4 2 3) 0x3FF0000000000000 0x4008000000000000 = 0x3FD5555555555555 := by decide +kernel
/-- R94: a store of DM is little-endian and a byte load sees the low byte. -/
theorem test_store_then_load :
    let s := withLane { lane0 with w := [(2, 0x20000), (4, 0x1122334455667788)] }
    ((next (exec (.lds8 0 5 2 0) (next (exec (.st64 0 4 2 0) s)))).lane 0).reg 5 = 0xFFFFFFFFFFFFFF88 := by decide +kernel
/-- R118, R120 and the worked example of 05: in the coded pass LD reads the complement, and OR executes as AND with the complement. -/
theorem test_coded_rung :
    let s (b : Bool) : State := { bworld with lanes := [(0, { bit0 with pass := true, acc := b })] }
    ((next (exec (.blLd 0 0x143) (s false))).lane 0).acc = true ∧ ((next (exec (.blOr 0 0x143) (s false))).lane 0).acc = false ∧
    ((next (exec (.blAndn 0 0x143) (s false))).lane 0).acc = false := by decide +kernel
/-- R349: T = T_CNT + T_OFFSET + (((T_CNT − T_ANCHOR) × T_RATE) >> 40), for a rate of −1 an arithmetic shift. -/
theorem test_corrected_time : ({ Time.reset with offset := 10, rate := 0xFFFFFFFF } : Time).correct 1 = 10 := by decide +kernel
/-- R182, R395, R80: the check values over the ASCII string 123456789. -/
theorem test_crc32c : crc32c [0x31, 0x32, 0x33, 0x34, 0x35, 0x36, 0x37, 0x38, 0x39] = 0xE3069283 := by decide +kernel
theorem test_crc32 : crc32 [0x31, 0x32, 0x33, 0x34, 0x35, 0x36, 0x37, 0x38, 0x39] = 0xCBF43926 := by decide +kernel
theorem test_crc64 : crc64 [0x31, 0x32, 0x33, 0x34, 0x35, 0x36, 0x37, 0x38, 0x39] = 0x62EC59E3F1A4F00A := by decide +kernel
/-- The worked example of 13: a stamp after the anchor, across a wrap, and a boundary before it. -/
theorem test_extended_stamps : extNear 0x01784A2BFF800000 0x00123400 = 0x01784A2C00123400 ∧ extNear 0x01784A2BFF800000 0xFF7F0000 = 0x01784A2BFF7F0000 := by decide
/-- The worked example of 10: partition 12 reads its page in bank 1 and writes it in bank 0; partition 13 is refused. -/
theorem test_guard_example :
    let g : Guard := { Guard.reset with active := [(37, ⟨0x80180D0A, 0x4000014, 0x4000017, 0⟩), (38, ⟨0x80180D0A, 0x4000814, 0x4000817, 0⟩)] }
    imgAddr 1 0x2A13 = 0x4000815098 ∧ g.allows ⟨12, .lane, .r, 0, 0x4000815098, 8⟩ = true ∧ g.allows ⟨12, .lane, .w, 0, 0x4000015098, 8⟩ = true ∧
    g.allows ⟨13, .lane, .r, 0, 0x4000815098, 8⟩ = false := by decide +kernel
/-- The worked example of 15: 500 kbit/s with a 5 Mbit/s data phase. -/
theorem test_can_timing :
    let t : CanTiming := ⟨2, 99, 25, 25, 1, 19, 5, 5⟩
    CanTiming.nbt t = 0x30618801 ∧ CanTiming.dbt t = 0x44900000 := by decide +kernel
/-- The worked example of 11: the header that the host of partition 12 writes. -/
theorem test_request_header :
    let r := (headerOf (.mailbox 12) 12 ([0x00250701, 0x18, 0x7B44D016, 0x5A3C91E0, 0, 0, 0, 0].flatMap fun x => leBytes 4 x)).req
    r.cmd = 0x0701 ∧ r.seq = 0x25 ∧ r.tag = 0x5A3C91E07B44D016 ∧ r.noirq = false := by decide +kernel
/-- R12, R23: a boundary makes the other bank CURRENT. -/
theorem test_boundary_flips_bank :
    let s : State := { act with cls := [(0, { Cls.reset with period := 100 })] }
    ((next (exec (.classBoundary 0) s)).cls_ 0).cur = true ∧ ((next (exec (.classBoundary 0) s)).cls_ 0).bnd = some 0 := by decide +kernel
/-- R451: a module in column 5 begins to start 250 ms after VIN has been valid for 10 ms. -/
theorem test_start_delay :
    let s := { off 0 with pins := { (off 0).pins with addr := 5, addrp := true } }
    tdue (next (exec (.vinApplied 24000) s)).timers .startDelay = some 260000000 := by decide +kernel
/-- R220: the ACTIVE preferred module's HEARTBEAT: STATE 6, PREFERRED. -/
theorem test_heartbeat_flags : row.ownHeartbeat.flags = 0x16 := by decide +kernel

end Sys2Proof.Tests
end

section
/-! PROOFS. Cycle classes (R31): "slower" is a linear order on the classes of a state, and the slowest of a set is its only maximum. -/
namespace Sys2Proof.Machine

/-- Class j is no slower than class k: a shorter period, or of equal periods no higher number (R31). -/
def State.noSlower (s : State) (j k : Nat) : Prop :=
  (s.cls_ j).period < (s.cls_ k).period ∨ ((s.cls_ j).period = (s.cls_ k).period ∧ j ≤ k)

theorem State.noSlower_refl (s : State) (k : Nat) : s.noSlower k k := Or.inr ⟨rfl, Nat.le_refl k⟩

theorem State.noSlower_trans {s : State} {i j k : Nat} (hij : s.noSlower i j) (hjk : s.noSlower j k) : s.noSlower i k := by
  unfold State.noSlower at *
  omega

theorem State.noSlower_antisymm {s : State} {j k : Nat} (hjk : s.noSlower j k) (hkj : s.noSlower k j) : j = k := by
  unfold State.noSlower at *
  omega

theorem State.noSlower_of_slower {s : State} {j k : Nat} (h : slower (s.cls_ k).period k (s.cls_ j).period j = true) : s.noSlower j k := by
  simp only [slower, Bool.or_eq_true, Bool.and_eq_true, decide_eq_true_eq] at h
  unfold State.noSlower
  omega

theorem State.noSlower_of_not_slower {s : State} {j k : Nat} (h : ¬ slower (s.cls_ k).period k (s.cls_ j).period j = true) : s.noSlower k j := by
  simp only [slower, Bool.or_eq_true, Bool.and_eq_true, decide_eq_true_eq] at h
  unfold State.noSlower
  omega

/-- The slower of two classes, as one step of the model's fold picks it. -/
def State.slowerOf (s : State) (j k : Nat) : Nat := if slower (s.cls_ k).period k (s.cls_ j).period j then k else j

theorem State.slowerOf_eq_or (s : State) (j k : Nat) : s.slowerOf j k = j ∨ s.slowerOf j k = k := by
  unfold State.slowerOf
  split
  · exact Or.inr rfl
  · exact Or.inl rfl

theorem State.noSlower_slowerOf (s : State) (j k : Nat) : s.noSlower j (s.slowerOf j k) ∧ s.noSlower k (s.slowerOf j k) := by
  unfold State.slowerOf
  split
  case isTrue h => exact ⟨State.noSlower_of_slower h, s.noSlower_refl k⟩
  case isFalse h => exact ⟨s.noSlower_refl j, State.noSlower_of_not_slower h⟩

theorem State.slowest_nil (s : State) : s.slowest [] = none := rfl

theorem State.slowest_singleton (s : State) (k : Nat) : s.slowest [k] = some k := rfl

theorem State.slowest_cons_cons (s : State) (j k : Nat) (ks : List Nat) : s.slowest (j :: k :: ks) = s.slowest (s.slowerOf j k :: ks) :=
  congrArg (fun m => List.foldl _ m ks) (apply_ite some _ k j).symm

/-- m is a class of the set and none of the set is slower. -/
def State.isSlowestOf (s : State) (ks : List Nat) (m : Nat) : Prop := m ∈ ks ∧ ∀ j ∈ ks, s.noSlower j m

theorem State.isSlowestOf_unique {s : State} {ks : List Nat} {m n : Nat} (hm : s.isSlowestOf ks m) (hn : s.isSlowestOf ks n) : m = n :=
  State.noSlower_antisymm (hn.2 m hm.1) (hm.2 n hn.1)

theorem State.isSlowestOf_singleton (s : State) (k : Nat) : s.isSlowestOf [k] k := by
  refine ⟨List.mem_singleton_self k, fun j hj => ?_⟩
  rw [List.mem_singleton.mp hj]
  exact s.noSlower_refl k

theorem State.isSlowestOf_cons_cons {s : State} {j k m : Nat} {ks : List Nat} (h : s.isSlowestOf (s.slowerOf j k :: ks) m) :
    s.isSlowestOf (j :: k :: ks) m := by
  obtain ⟨hmem, hmax⟩ := h
  obtain ⟨hj, hk⟩ := s.noSlower_slowerOf j k
  have hpick : s.noSlower (s.slowerOf j k) m := hmax _ List.mem_cons_self
  constructor
  · rcases List.mem_cons.mp hmem with heq | hks
    · rcases s.slowerOf_eq_or j k with hsj | hsk
      · exact List.mem_cons.mpr (Or.inl (heq.trans hsj))
      · exact List.mem_cons_of_mem j (List.mem_cons.mpr (Or.inl (heq.trans hsk)))
    · exact List.mem_cons_of_mem j (List.mem_cons_of_mem k hks)
  · intro i hi
    rcases List.mem_cons.mp hi with rfl | hi
    · exact State.noSlower_trans hj hpick
    · rcases List.mem_cons.mp hi with rfl | hi
      · exact State.noSlower_trans hk hpick
      · exact hmax i (List.mem_cons_of_mem _ hi)

/-- A set that is not empty has a slowest class, and the fold finds it. -/
theorem State.exists_slowest_cons (s : State) (k : Nat) (ks : List Nat) : ∃ m, s.slowest (k :: ks) = some m ∧ s.isSlowestOf (k :: ks) m := by
  induction ks generalizing k with
  | nil => exact ⟨k, s.slowest_singleton k, s.isSlowestOf_singleton k⟩
  | cons j ks ih =>
    obtain ⟨m, hfold, hm⟩ := ih (s.slowerOf k j)
    exact ⟨m, (s.slowest_cons_cons k j ks).trans hfold, State.isSlowestOf_cons_cons hm⟩

theorem State.slowest_eq_some_iff (s : State) (ks : List Nat) (k : Nat) : s.slowest ks = some k ↔ s.isSlowestOf ks k := by
  cases ks with
  | nil =>
    rw [s.slowest_nil]
    constructor
    · intro h
      nomatch h
    · intro h
      exact absurd h.1 List.not_mem_nil
  | cons j ks =>
    obtain ⟨m, hfold, hm⟩ := s.exists_slowest_cons j ks
    rw [hfold, Option.some.injEq]
    constructor
    · rintro rfl
      exact hm
    · exact State.isSlowestOf_unique hm

/-- Settles O30: the fold finds a slowest class of the set, and by the tie rule of R31 there is only one. -/
theorem slowestClass : Obligations.SlowestClass :=
  fun ks k s => s.slowest_eq_some_iff ks k

end Sys2Proof.Machine
end

section
/-! PROOFS. Coded multiply, divide and check (R71): the value or the trap of each operation, what an instruction makes of either, and the rules of CMUL, CDIV and CCHK by their cases. -/
namespace Sys2Proof.Machine

/-! ### The operations -/

theorem isCode_eq_false_iff (w : W64) : isCode w = false ↔ w.toInt % 65521 ≠ 0 := decide_eq_false_iff_not

/-- The guard that CMUL and CDIV share: an operand is not a code word. -/
theorem notCodes_eq_true_iff (a b : W64) : (!isCode a || !isCode b) = true ↔ ¬(a.toInt % 65521 = 0 ∧ b.toInt % 65521 = 0) := by
  rw [Bool.or_eq_true, Bool.not_eq_true', Bool.not_eq_true', isCode_eq_false_iff, isCode_eq_false_iff, Decidable.not_and_iff_or_not]

theorem codedMul_of_not_codes {a b : W64} (h : ¬(a.toInt % 65521 = 0 ∧ b.toInt % 65521 = 0)) : codedMul a b = .trap 0x09 :=
  if_pos ((notCodes_eq_true_iff a b).mpr h)

theorem codedMul_of_codes {a b : W64} (h : a.toInt % 65521 = 0 ∧ b.toInt % 65521 = 0) :
    codedMul a b = if 2 ^ 47 * 65521 ^ 2 ≤ (a.toInt * b.toInt).natAbs then .trap 0x0A
      else .ok (BitVec.ofInt 64 (a.toInt * b.toInt / 65521)) :=
  if_neg fun hn => (notCodes_eq_true_iff a b).mp hn h

/-- The guard of CDIV: the guard on code words, or a divisor of 0. -/
theorem divGuard_eq_true_iff (a b : W64) :
    (!isCode a || !isCode b || decide (b = 0)) = true ↔ ¬(a.toInt % 65521 = 0 ∧ b.toInt % 65521 = 0) ∨ b.toInt = 0 := by
  have hzero : b.toInt = 0 ↔ b = 0 := BitVec.toInt_inj (y := 0)
  rw [Bool.or_eq_true, notCodes_eq_true_iff, decide_eq_true_iff, hzero]

theorem codedDiv_of_not_codes_or_zero {a b : W64} (h : ¬(a.toInt % 65521 = 0 ∧ b.toInt % 65521 = 0) ∨ b.toInt = 0) :
    codedDiv a b = .trap 0x09 :=
  if_pos ((divGuard_eq_true_iff a b).mpr h)

theorem codedDiv_of_codes {a b : W64} (h : a.toInt % 65521 = 0 ∧ b.toInt % 65521 = 0) (hb : b.toInt ≠ 0) :
    codedDiv a b = .ok (BitVec.ofInt 64 (a.toInt.tdiv b.toInt * 65521)) :=
  if_neg fun hn => ((divGuard_eq_true_iff a b).mp hn).elim (· h) hb

theorem codedChk_of_not_code {a : W64} (h : a.toInt % 65521 ≠ 0) : codedChk a = .trap 0x09 :=
  if_pos (by rwa [Bool.not_eq_true', isCode_eq_false_iff])

theorem codedChk_of_code {a : W64} (h : a.toInt % 65521 = 0) :
    codedChk a = if 2 ^ 47 ≤ (a.toInt / 65521).natAbs then .trap 0x0A else .ok (BitVec.ofInt 64 (a.toInt / 65521)) :=
  if_neg (by rwa [Bool.not_eq_true', isCode_eq_false_iff, ne_eq, Decidable.not_not])

/-! ### The instructions -/

theorem State.coded_of_trap {s : State} {l : Nat} {f : Lane → Coded} {c : Byte} (rd : BitVec 5) (h : f (s.lane l) = .trap c) :
    s.coded l rd f = s.laneFaultOpen l c := by
  rw [State.coded, h]

theorem State.residue_of_agree {s : State} {l : Nat} (h : (s.lane l).alu = false) (body : State → State) : s.residue l body = body s :=
  if_neg (Bool.eq_false_iff.mp h)

/-- A coded result retires and counts as event 0x08 where the residue agrees (R75, R436). -/
theorem State.coded_of_ok {s : State} {l : Nat} {f : Lane → Coded} {v : W64} (rd : BitVec 5) (halu : (s.lane l).alu = false)
    (h : f (s.lane l) = .ok v) : s.coded l rd f = s.ranOn l [8] fun x => x.setReg rd v := by
  rw [State.coded, h]
  exact (State.residue_of_agree halu _).trans (State.retire_counted s l 0x08 (Lane.setReg_pc _ _ _))

section
variable {l : Fin 256} {s : State} (h : s.NativeReady l) (rd ra rb : BitVec 5)
include h

theorem exec_cmul_of_ready : exec (.cmul l rd ra rb) s = .next (s.coded l rd fun x => codedMul (x.reg ra) (x.reg rb)) :=
  congrArg Host.Outcome.next (State.native_ready h _)

theorem exec_cdiv_of_ready : exec (.cdiv l rd ra rb) s = .next (s.coded l rd fun x => codedDiv (x.reg ra) (x.reg rb)) :=
  congrArg Host.Outcome.next (State.native_ready h _)

theorem exec_cchk_of_ready : exec (.cchk l rd ra 0) s = .next (s.coded l rd fun x => codedChk (x.reg ra)) :=
  congrArg Host.Outcome.next (State.native_ready h _)

theorem exec_cchk_of_rb_ne_zero (hrb : rb ≠ 0) : exec (.cchk l rd ra rb) s = .next (s.laneFaultOpen l 0x01) :=
  congrArg Host.Outcome.next ((State.native_ready h _).trans (if_pos hrb))

end

/-- Settles O13: the cases of R71 in the order of its text; the last one is the nonzero rb field of CCHK (R103). -/
theorem codedInstructionResults : Obligations.CodedInstructionResults := by
  intro l rd ra rb s hready halu a b wrote codes
  rw [exec_cmul_of_ready hready, exec_cdiv_of_ready hready, exec_cchk_of_ready hready]
  refine ⟨fun hn => ?_, fun hc hbig => ?_, fun hc hsmall => ?_, fun hn => ?_, fun hc hb => ?_, fun hn => ?_, fun ha hbig => ?_,
    fun ha hsmall => ?_, exec_cchk_of_rb_ne_zero hready rd ra rb⟩
  · rw [State.coded_of_trap rd (codedMul_of_not_codes hn)]
  · rw [State.coded_of_trap rd ((codedMul_of_codes hc).trans (if_pos hbig))]
  · rw [State.coded_of_ok rd halu ((codedMul_of_codes hc).trans (if_neg (Nat.not_le_of_lt hsmall)))]
  · rw [State.coded_of_trap rd (codedDiv_of_not_codes_or_zero hn)]
  · rw [State.coded_of_ok rd halu (codedDiv_of_codes hc hb)]
  · rw [State.coded_of_trap rd (codedChk_of_not_code hn)]
  · rw [State.coded_of_trap rd ((codedChk_of_code ha).trans (if_pos hbig))]
  · rw [State.coded_of_ok rd halu ((codedChk_of_code ha).trans (if_neg (Nat.not_le_of_lt hsmall)))]

end Sys2Proof.Machine
end

section
/-! PROOFS. The two halves of L_CLK (R98): what a read of either half returns and does to its requester's latch, and the command that reads the low half. -/
namespace Sys2Proof.Machine

/-! ### The reads of a lane -/

theorem Lane.ctlRead_clkLo_lane (x : Lane) (n : Nat) :
    x.ctlRead n 0x038 true = (lo32 x.clk, { x with shLane := some (hi32 x.clk) }) := rfl

theorem Lane.ctlRead_clkLo_service (x : Lane) (n : Nat) :
    x.ctlRead n 0x038 false = (lo32 x.clk, { x with shSvc := some (hi32 x.clk) }) := rfl

theorem Lane.ctlRead_clkHi_lane (x : Lane) (n : Nat) :
    x.ctlRead n 0x03C true = (x.shLane.getD (hi32 x.clk), { x with shLane := none }) := rfl

theorem Lane.ctlRead_clkHi_service (x : Lane) (n : Nat) :
    x.ctlRead n 0x03C false = (x.shSvc.getD (hi32 x.clk), { x with shSvc := none }) := rfl

theorem Lane.release_shLane_of_none {x : Lane} (h : x.shLane = none) : { x with shLane := none } = x := by
  rw [← h]

theorem Lane.release_shSvc_of_none {x : Lane} (h : x.shSvc = none) : { x with shSvc := none } = x := by
  rw [← h]

section
variable {x : Lane} {h : W32} (n : Nat)

theorem Lane.ctlRead_clkHi_lane_of_latched (hlatch : x.shLane = some h) :
    x.ctlRead n 0x03C true = (h, { x with shLane := none }) := by
  rw [x.ctlRead_clkHi_lane, hlatch, Option.getD_some]

theorem Lane.ctlRead_clkHi_lane_of_free (hfree : x.shLane = none) : x.ctlRead n 0x03C true = (hi32 x.clk, x) := by
  rw [x.ctlRead_clkHi_lane, Lane.release_shLane_of_none hfree, hfree, Option.getD_none]

theorem Lane.ctlRead_clkHi_service_of_latched (hlatch : x.shSvc = some h) :
    x.ctlRead n 0x03C false = (h, { x with shSvc := none }) := by
  rw [x.ctlRead_clkHi_service, hlatch, Option.getD_some]

theorem Lane.ctlRead_clkHi_service_of_free (hfree : x.shSvc = none) : x.ctlRead n 0x03C false = (hi32 x.clk, x) := by
  rw [x.ctlRead_clkHi_service, Lane.release_shSvc_of_none hfree, hfree, Option.getD_none]

end

/-! ### The command -/

section
variable (l : Fin 256) (s : State)

theorem exec_lClkLoRead (q : Requester) : exec (.lClkLoRead l q) s = execLClkLoRead l q s := rfl

theorem execLClkLoRead_lane :
    execLClkLoRead l .lane s = .next (s.setLane l { s.lane l with shLane := some (hi32 (s.lane l).clk) }) := by
  rw [execLClkLoRead, Lane.ctlRead_clkLo_lane]

theorem execLClkLoRead_service :
    execLClkLoRead l .service s = .next (s.setLane l { s.lane l with shSvc := some (hi32 (s.lane l).clk) }) := by
  rw [execLClkLoRead, Lane.ctlRead_clkLo_service]

theorem execLClkLoRead_host : execLClkLoRead l .host s = .next s := rfl

theorem execLClkLoRead_tls : execLClkLoRead l .tls s = .next s := rfl

end

/-- Settles O27: the command by its four requesters, then the read of the high half by requester and by whether its latch holds a value. -/
theorem clockHalvesLatched : Obligations.ClockHalvesLatched := by
  intro l n s x
  simp only [exec_lClkLoRead]
  exact ⟨execLClkLoRead_lane l s, execLClkLoRead_service l s, execLClkLoRead_host l s, execLClkLoRead_tls l s,
    fun _ => Lane.ctlRead_clkHi_lane_of_latched n, Lane.ctlRead_clkHi_lane_of_free n,
    fun _ => Lane.ctlRead_clkHi_service_of_latched n, Lane.ctlRead_clkHi_service_of_free n⟩

end Sys2Proof.Machine
end

section
/-! PROOFS. Requests refused with a stale epoch (R163, R324): what a frame that leaves changes, what an answer changes, how a command row comes to refuse or to run, and the commands that carry the field. -/
namespace Sys2Proof.Machine

/-! ### What sending changes: the ports, the counters, the recorder and what has left -/

/-- t differs from s at most in what the sending of a frame reaches: the ring unit, the counters, the recorder and `out`. -/
def State.SendsOnly (s t : State) : Prop := t = { s with out := t.out, ctr := t.ctr, rcd := t.rcd, ring := t.ring }

theorem State.SendsOnly.refl (s : State) : s.SendsOnly s := rfl

theorem State.SendsOnly.trans {s t u : State} (hst : s.SendsOnly t) (htu : t.SendsOnly u) : s.SendsOnly u :=
  Eq.trans htu (congrArg (fun x : State => { x with out := u.out, ctr := u.ctr, rcd := u.rcd, ring := u.ring }) hst)

theorem State.send_eq (s : State) (o : Out) : s.send o = { s with out := (s.send o).out } := by
  unfold State.send
  split <;> rfl

theorem State.sendsOnly_send (s : State) (o : Out) : s.SendsOnly (s.send o) := by
  rw [s.send_eq o]
  rfl

theorem State.sendsOnly_setPort (s : State) (p : Port) (x : PortSt) : s.SendsOnly (s.setPort p x) := rfl

theorem State.sendsOnly_portCnt (s : State) (p : Port) (f : PortCnt → PortCnt) : s.SendsOnly (s.portCnt p f) := rfl

theorem State.sendsOnly_count (s : State) (e : CtrEv) : s.SendsOnly (s.count e) := rfl

theorem State.sendsOnly_control (s : State) (p : Port) (kind : Byte) (f : Frame) (more : List Byte) : s.SendsOnly (s.control p kind f more) :=
  s.sendsOnly_send _

theorem State.sendsOnly_recordOnce (s : State) (code source kind key : Nat) (p0 : W32) :
    s.SendsOnly ((s.record code 0 source p0 0 0 0).markOnce kind key) := rfl

theorem State.sendsOnly_unreachable (s : State) (p : Port) (dst : Nat) : s.SendsOnly (s.unreachable p dst) := by
  unfold State.unreachable
  dsimp only
  split
  · exact (s.sendsOnly_portCnt p _).trans (State.sendsOnly_recordOnce _ _ _ _ _ _)
  · exact s.sendsOnly_portCnt p _

theorem State.sendsOnly_dropBreak (s : State) (p : Port) (n : Nat) : s.SendsOnly (s.dropBreak p n) := by
  unfold State.dropBreak
  dsimp only
  split
  · exact .refl s
  split
  · exact (s.sendsOnly_portCnt p _).trans (State.sendsOnly_recordOnce _ _ _ _ _ _)
  · exact s.sendsOnly_portCnt p _

theorem State.sendsOnly_release (s : State) (o : Option Org) : s.SendsOnly (s.release o) := by
  cases o with
  | none => exact .refl s
  | some o =>
    unfold State.release
    dsimp only
    split
    · exact .refl s
    · exact s.sendsOnly_send _

theorem State.sendsOnly_finish (s : State) (p : Port) (n : Nat) : s.SendsOnly (s.finish p n) := by
  induction n generalizing s with
  | zero => exact .refl s
  | succ n ih =>
    unfold State.finish
    dsimp only
    split
    · exact .refl s
    split
    · exact .refl s
    split
    · exact ((s.sendsOnly_setPort p _).trans (State.sendsOnly_release _ _)).trans (ih _)
    · exact (((s.sendsOnly_setPort p _).trans (State.sendsOnly_control _ _ _ _ _)).trans (State.sendsOnly_release _ _)).trans (ih _)

theorem State.sendsOnly_start (s : State) (p : Port) (t : Tx) : s.SendsOnly (s.start p t) :=
  ((s.sendsOnly_setPort p _).trans (State.sendsOnly_send _ _)).trans (State.sendsOnly_count _ _)

theorem State.sendsOnly_startNext (s : State) (p : Port) : s.SendsOnly (s.startNext p) := by
  unfold State.startNext
  dsimp only
  split
  · exact .refl s
  split
  · exact s.sendsOnly_start p _
  split
  · exact ((s.sendsOnly_setPort p _).trans (State.sendsOnly_control _ _ _ _ _)).trans (State.sendsOnly_start _ _ _)
  · exact .refl s

theorem State.sendsOnly_drain (s : State) (p : Port) (n : Nat) : s.SendsOnly (s.drain p n) :=
  (s.sendsOnly_finish p n).trans (State.sendsOnly_startNext _ _)

theorem State.sendsOnly_queue (s : State) (p : Port) (t : Tx) : s.SendsOnly (s.queue p t) := by
  unfold State.queue
  dsimp only
  split
  · exact .refl s
  split
  · exact s.sendsOnly_dropBreak p 1
  · exact (s.sendsOnly_setPort p _).trans (State.sendsOnly_drain _ _ _)

theorem State.sendsOnly_transmit (s : State) (p : Port) (f : Frame) (body : Option Msg) : s.SendsOnly (s.transmit p f body) :=
  s.sendsOnly_queue p _

theorem State.sendsOnly_sendRouted (s : State) (f : Frame) (body : Option Msg) : s.SendsOnly (s.sendRouted f body) := by
  unfold State.sendRouted
  split
  · exact .refl s
  split
  · exact s.sendsOnly_transmit _ _ body
  split
  · split
    · exact s.sendsOnly_unreachable _ _
    · exact s.sendsOnly_transmit _ f body
  split
  · exact s.sendsOnly_unreachable _ _
  · exact s.sendsOnly_transmit _ _ body

theorem State.sendsOnly_sendRsp (s : State) (dst : Nat) (m : RspMsg) : s.SendsOnly (s.sendRsp dst m) :=
  s.sendsOnly_sendRouted _ _

theorem State.SendsOnly.mb_eq {s t : State} (h : s.SendsOnly t) : t.mb = s.mb := by
  rw [h]

/-! ### The final answer to a request -/

/-- The request has left the queue with its timers, before its answer is put anywhere (R326). -/
def State.settledReq (s : State) (r : Request) : State :=
  { s with mb := { s.mb with
      queue := s.mb.queue.filter fun x => !(decide (x.src = r.src) && decide (x.seq = r.seq) && decide (x.cmd = r.cmd)),
      fwd := s.mb.fwd.filter fun x => !(decide (x.1.src = r.src) && decide (x.1.seq = r.seq) && decide (x.1.cmd = r.cmd)),
      gather := s.mb.gather.filter fun x => decide (x.1 ≠ (r.src, r.cmd, r.seq)) } }.disarmReq r

theorem State.key_ne_of_mem_settledReq {s : State} {r x : Request} (h : x ∈ (s.settledReq r).mb.queue) : x.key ≠ r.key := by
  intro hkey
  obtain ⟨hsrc, hcmd, hseq⟩ : x.src = r.src ∧ x.cmd = r.cmd ∧ x.seq = r.seq := by simpa [Request.key] using hkey
  have hkept := (List.mem_filter.mp h).2
  simp [hsrc, hcmd, hseq] at hkept

/-- The RSP that answers a forwarded request (R331). -/
def Request.rsp (r : Request) (code : W16) (detail : Nat) (payload : List Byte) : RspMsg :=
  { session := r.tag, cmd := r.cmd, seq := r.seq, interim := false, status := code, detail := BitVec.ofNat 32 detail, payload := payload }

/-- The RSP is kept as the latest of its origin and session (R331). -/
def State.keepRsp (s : State) (o : Nat) (m : RspMsg) : State :=
  { s with mb := { s.mb with rsps := (o, m) :: s.mb.rsps.filter fun x => !(decide (x.1 = o) && decide (x.2.session = m.session)) } }

/-- The response that answers a request of this module's own mailboxes and connections (R322). -/
def State.responseTo (s : State) (r : Request) (code : W16) (detail : Nat) (payload : List Byte) : Response :=
  { cmd := r.cmd, seq := r.seq, status := code, rflags := 0, detail := BitVec.ofNat 32 detail, time := s.now32, epoch := s.pl.epoch,
    payload := payload, noirq := r.noirq, key := r.tag }

theorem ReqSrc.eq_forwarded_of_isForwarded {q : ReqSrc} (h : ReqSrc.isForwarded q = true) : ∃ o tag seq, q = .forwarded o tag seq := by
  cases q with
  | mailbox n | tls c => nomatch h
  | forwarded o tag seq => exact ⟨o, tag, seq, rfl⟩

theorem State.answerCode_of_forwarded {s : State} {r : Request} {o : Fin 4096} {tag : W64} {seq : W16} (hsrc : r.src = .forwarded o tag seq)
    (code : W16) (detail : Nat) (payload : List Byte) :
    s.answerCode r code detail payload = ((s.settledReq r).keepRsp o.val (r.rsp code detail payload)).sendRsp o.val (r.rsp code detail payload) := by
  unfold State.answerCode
  rw [hsrc]
  simp only [State.settledReq, hsrc]
  rfl

theorem State.answerCode_of_local {s : State} {r : Request} (hsrc : ReqSrc.isForwarded r.src = false) (code : W16) (detail : Nat) (payload : List Byte) :
    s.answerCode r code detail payload = (s.settledReq r).putResponse r.src (s.responseTo r code detail payload) := by
  unfold State.answerCode
  cases hr : r.src with
  | mailbox n | tls c =>
    simp only [State.settledReq, hr]
    rfl
  | forwarded o tag seq =>
    rw [hr] at hsrc
    nomatch hsrc

/-- A response put at its source changes mailboxes and connections and what has left. -/
theorem State.putResponse_eq (s : State) (src : ReqSrc) (x : Response) :
    s.putResponse src x = { s with mb := (s.putResponse src x).mb, out := (s.putResponse src x).out } := by
  cases src with
  | mailbox n => rfl
  | forwarded o tag seq => rfl
  | tls c =>
    unfold State.putResponse
    dsimp only
    split
    · rfl
    · rw [State.send_eq]

theorem State.putResponse_queue (s : State) (src : ReqSrc) (x : Response) : (s.putResponse src x).mb.queue = s.mb.queue := by
  cases src with
  | mailbox n => rfl
  | forwarded o tag seq => rfl
  | tls c =>
    unfold State.putResponse
    dsimp only
    split
    · rfl
    · rw [State.send_eq]

/-- The response is the last one of its mailbox, and of its connection where that is open (R318, R328). -/
theorem State.putResponse_last {s : State} {src : ReqSrc} (x : Response) (hopen : ∀ c, src = .tls c → ∃ y ∈ s.mb.tls, y.conn = c.val) :
    tfind (s.putResponse src x).mb.last (srcIx src) = some x := by
  cases src with
  | mailbox n => exact tfind_tput_self _ _ _
  | forwarded o tag seq => exact tfind_tput_self _ _ _
  | tls c =>
    have hconn : (s.mb.tls.any fun y => decide (y.conn = c.val)) = true := by simpa using hopen c rfl
    unfold State.putResponse
    dsimp only
    rw [hconn, State.send_eq]
    exact tfind_tput_self _ _ _

theorem State.putResponse_now32 (s : State) (src : ReqSrc) (x : Response) : (s.putResponse src x).now32 = s.now32 := by
  rw [s.putResponse_eq src x]
  rfl

theorem State.putResponse_pl (s : State) (src : ReqSrc) (x : Response) : (s.putResponse src x).pl = s.pl := by
  rw [s.putResponse_eq src x]

section
variable {s : State} {r : Request} (st : Status) (detail : Nat) (payload : List Byte)

theorem State.answered_of_forwarded {o : Fin 4096} {tag : W64} {seq : W16} (hsrc : r.src = .forwarded o tag seq) :
    Answered s (s.answer r st detail payload) r st detail payload := by
  rw [State.answer, State.answerCode_of_forwarded hsrc, Answered, (State.sendsOnly_sendRsp _ _ _).mb_eq, hsrc]
  exact ⟨fun x hx => State.key_ne_of_mem_settledReq hx, List.mem_cons_self⟩

theorem State.answered_of_local (hsrc : ReqSrc.isForwarded r.src = false) : Answered s (s.answer r st detail payload) r st detail payload := by
  have hlast := (s.settledReq r).putResponse_last (src := r.src) (s.responseTo r (BitVec.ofNat 16 st.num) detail payload)
  rw [State.answer, State.answerCode_of_local hsrc]
  refine ⟨fun x hx => ?_, ?_⟩
  · rw [State.putResponse_queue] at hx
    exact State.key_ne_of_mem_settledReq hx
  · rw [State.putResponse_now32, State.putResponse_pl]
    cases hr : r.src with
    | mailbox n | tls c =>
      rw [hr] at hlast
      exact hlast
    | forwarded o tag seq =>
      rw [hr] at hsrc
      nomatch hsrc

theorem State.answerOf_of_forwarded {o : Fin 4096} {tag : W64} {seq : W16} (hsrc : r.src = .forwarded o tag seq) :
    s.AnswerOf (s.answer r st detail payload) r := by
  refine ⟨?_, fun hlocal => ?_⟩
  · rw [State.answer, State.answerCode_of_forwarded hsrc, State.sendsOnly_sendRsp _ _ _]
    rfl
  · rw [hsrc] at hlocal
    nomatch hlocal

theorem State.answerOf_of_local (hsrc : ReqSrc.isForwarded r.src = false) : s.AnswerOf (s.answer r st detail payload) r := by
  rw [State.answer, State.answerCode_of_local hsrc, State.putResponse_eq]
  exact ⟨rfl, fun _ => ⟨rfl, rfl, rfl⟩⟩

end

/-- Every final answer stands where the rules put it and changes nothing else (R318, R326, R331). -/
theorem State.answer_answers (s : State) (r : Request) (st : Status) (detail : Nat) (payload : List Byte) :
    Answered s (s.answer r st detail payload) r st detail payload ∧ s.AnswerOf (s.answer r st detail payload) r := by
  cases hfwd : ReqSrc.isForwarded r.src with
  | true =>
    obtain ⟨o, tag, seq, hsrc⟩ := ReqSrc.eq_forwarded_of_isForwarded hfwd
    exact ⟨State.answered_of_forwarded st detail payload hsrc, State.answerOf_of_forwarded st detail payload hsrc⟩
  | false => exact ⟨State.answered_of_local st detail payload hfwd, State.answerOf_of_local st detail payload hfwd⟩

theorem refuses_refuse (s : State) (r : Request) (st : Status) : Refuses (.next (s.refuse r st)) s r st :=
  ⟨_, rfl, s.answer_answers r st 0 []⟩

/-! ### How a command row refuses or runs its request (R324, R326, R330) -/

theorem firstFail_cons_of_ok {c : Bool × Status} (h : c.1 = true) (cs : List (Bool × Status)) : firstFail (c :: cs) = firstFail cs :=
  if_pos h

theorem firstFail_cons_of_not_ok {c : Bool × Status} (h : c.1 = false) (cs : List (Bool × Status)) : firstFail (c :: cs) = some c.2 :=
  if_neg (Bool.eq_false_iff.mp h)

section
variable {s : State} {q : ReqSrc} {code : Nat} {r : Request} (hreq : s.reqOf q code = some r) {acts : Request → Acts}
  {checks : Request → List (Bool × Status)} (body : Request → State → State)
include hreq

theorem State.command_of_fail {st : Status} (hfail : firstFail (checks r) = some st) : s.command q code acts checks body = s.refuse r st := by
  simp only [State.command, hreq, hfail]

theorem State.command_of_executor (hpass : firstFail (checks r) = none) (hexec : s.executor (acts r) = true) :
    s.command q code acts checks body = body r s := by
  simp only [State.command, hreq, hpass, hexec, Bool.true_or, if_true]

end

/-! ### Checks that a session of partition 0 passes (R333) -/

theorem sys_ok {r : Request} (h : r.part = 0) : (sys r).1 = true := decide_eq_true h

theorem own_ok {r : Request} (h : r.part = 0) (p : Nat) : (own r p).1 = true := by
  rw [own, decide_eq_true h, Bool.true_or]

theorem State.ownP_ok (s : State) {r : Request} (h : r.part = 0) (p : Nat) : (s.ownP r p).1 = true := by
  rw [State.ownP, decide_eq_true h, Bool.true_or]

theorem State.forceRight_ok (s : State) {r : Request} (h : r.part = 0) : (s.forceRight r).1 = true := by
  unfold State.forceRight
  split
  · rfl
  · rw [decide_eq_true h, Bool.true_or]

/-- PLACE_QUERY's right: any partition's plan, or every partition's with 0xFFFF (R341). -/
theorem placeRight_ok {r : Request} (h : r.part = 0) : (decide (r.partAt4 = 0xFFFF) || (own r r.partAt4).1) = true := by
  rw [own_ok h, Bool.or_true]

/-- VAR_READ's right: partition 0 reads any variable (R335). -/
theorem readRight_ok {r : Request} {mine : Bool} (h : r.part = 0) : (decide (r.part = 0) || mine) = true := by
  rw [decide_eq_true h, Bool.true_or]

/-- STATION_PUB_SET's right on a publication that is set already (R414). -/
theorem State.pubRight_ok (s : State) {r : Request} (h : r.part = 0) (id : W32) :
    (match s.stn.pub? id with | some x => (own r x.1.part).1 | none => true) = true := by
  split
  · exact own_ok h _
  · rfl

theorem lenIs_ok {r : Request} {n : Nat} (h : r.payload.length = n) : (lenIs r n).1 = true := decide_eq_true h

/-! ### The epoch field (R163, R324 step 6) -/

theorem State.epochIs_ok_iff (s : State) (r : Request) : (s.epochIs r).1 = true ↔ s.EpochFits r := by
  simp only [State.epochIs, State.EpochFits, Bool.or_eq_true, decide_eq_true_eq]

theorem State.epochIs_not_ok {s : State} {r : Request} (h : ¬ s.EpochFits r) : (s.epochIs r).1 = false :=
  Bool.eq_false_iff.mpr fun hok => h ((s.epochIs_ok_iff r).mp hok)

section
variable {s : State} {q : ReqSrc} {code : Nat} {r : Request} (hreq : s.reqOf q code = some r) (hstale : ¬ s.EpochFits r)
  {acts : Request → Acts} {c₁ c₂ : Request → Bool × Status} {rest : Request → List (Bool × Status)} {body : Request → State → State}
include hstale

theorem State.firstFail_stale (cs : List (Bool × Status)) : firstFail (s.epochIs r :: cs) = some .staleEpoch :=
  firstFail_cons_of_not_ok (State.epochIs_not_ok hstale) cs

theorem State.firstFail_one_stale {c : Bool × Status} (hc : c.1 = true) (cs : List (Bool × Status)) :
    firstFail (c :: s.epochIs r :: cs) = some .staleEpoch :=
  (firstFail_cons_of_ok hc _).trans (State.firstFail_stale hstale cs)

theorem State.firstFail_two_stale {c d : Bool × Status} (hc : c.1 = true) (hd : d.1 = true) (cs : List (Bool × Status)) :
    firstFail (c :: d :: s.epochIs r :: cs) = some .staleEpoch :=
  (firstFail_cons_of_ok hc _).trans (State.firstFail_one_stale hstale hd cs)

include hreq

theorem State.command_one_stale (h₁ : (c₁ r).1 = true) :
    Refuses (.next (s.command q code acts (fun r => c₁ r :: s.epochIs r :: rest r) body)) s r .staleEpoch := by
  rw [State.command_of_fail hreq body (State.firstFail_one_stale hstale h₁ (rest r))]
  exact refuses_refuse s r .staleEpoch

theorem State.command_two_stale (h₁ : (c₁ r).1 = true) (h₂ : (c₂ r).1 = true) :
    Refuses (.next (s.command q code acts (fun r => c₁ r :: c₂ r :: s.epochIs r :: rest r) body)) s r .staleEpoch := by
  rw [State.command_of_fail hreq body (State.firstFail_two_stale hstale h₁ h₂ (rest r))]
  exact refuses_refuse s r .staleEpoch

end

/-! ### The rows that do more than run one command -/

theorem exec_forceSet_of_turn {q : ReqSrc} {s : State} (h : s.forceTurn q 0x0701 = true) :
    exec (.forceSet q) s = .next (s.command q 0x0701 (fun r => .home (s.homePair r.vid)) s.forceSetChecks State.setForce) := by
  change execForceSet q s = _
  rw [execForceSet, h]
  rfl

theorem exec_forceClear_of_turn {q : ReqSrc} {s : State} (h : s.forceTurn q 0x0702 = true) :
    exec (.forceClear q) s = .next (s.command q 0x0702 (fun r => .home (s.homePair r.vid))
      (fun r => [lenIs r 16, s.forceRight r, s.epochIs r, ((s.homed r.vid).isSome, .checkFail)]) State.clearForce) := by
  change execForceClear q s = _
  rw [execForceClear, h]
  rfl

/-- A PROGRAM_LOAD that is refused keeps nothing of what is staged (R339). -/
theorem exec_programLoad_of_fail {q : ReqSrc} {pkgs : List Package} {s : State} {r : Request} {st : Status}
    (hreq : s.reqOf q 0x0301 = some r) (hfail : firstFail (s.loadChecks pkgs r) = some st) :
    exec (.programLoad q pkgs) s = .next (s.command q 0x0301 (fun _ => .leader) (s.loadChecks pkgs) (State.loadProgram pkgs)) := by
  change execProgramLoad q pkgs s = _
  simp only [execProgramLoad, hreq, hfail, Option.isNone_some, Bool.and_false, Bool.false_eq_true, if_false]

/-! ### The command that shows the field at 0 -/

theorem State.epochFits_of_zero (s : State) {r : Request} (h : field r.payload 0 4 = 0) : s.EpochFits r := Or.inl h

theorem State.workTaken_startWork (s : State) (r : Request) (w : Work) : WorkTaken (.next (s.startWork r w)) s r w :=
  ⟨_, rfl, rfl, rfl, rfl⟩

/-- A GUARD_COMMIT of partition 0 whose epoch fits is taken up by the leader (R299). -/
theorem exec_guardCommit_of_epochFits {q : ReqSrc} {s : State} {r : Request} (hreq : s.reqOf q 0x0209 = some r) (hpart : r.part = 0)
    (hepoch : s.EpochFits r) (hexec : s.executor .leader = true) : exec (.guardCommit q) s = .next (s.startWork r .guard) := by
  have hpass : firstFail [sys r, s.epochIs r] = none :=
    (firstFail_cons_of_ok (sys_ok hpart) _).trans (firstFail_cons_of_ok ((s.epochIs_ok_iff r).mpr hepoch) [])
  exact congrArg Host.Outcome.next (State.command_of_executor hreq _ hpass hexec)

/-- Settles O49: in every row the checks before the epoch's pass, so that STALE_EPOCH is the first failure and refuses the request; a field of 0 fits, and GUARD_COMMIT is taken up. -/
theorem staleEpochRefused : Obligations.StaleEpochRefused := by
  intro q r part k cfg x parts pkgs vids pub s hpart is len refused
  refine ⟨fun hnonzero hother => ?_, fun hzero hexec hreq => ?_⟩
  · have hstale : ¬ s.EpochFits r := not_or.mpr ⟨hnonzero, hother⟩
    refine ⟨fun h => ?partitionCreate, fun h => ?partitionRemove, fun h => ?partitionStart, fun h => ?partitionStop,
      fun h hlen => ?partitionSetProfile, fun h => ?guardCommit, fun h => ?partitionSetReservation, fun h hlen => ?programLoad,
      fun h hlen => ?programActivate, fun h hlen => ?programConfirm, fun h hlen => ?programRevert, fun h hlen => ?programDiscard,
      fun h period phase => ?classSet, fun h hlen => ?placeQuery, fun h => ?placeRebalance, fun h hturn hlen => ?forceSet,
      fun h hturn hlen => ?forceClear, fun h hvids => ?varRead, fun h => ?stationPubSet⟩
    case partitionCreate | partitionRemove | guardCommit | partitionSetReservation | classSet | placeRebalance =>
      exact State.command_one_stale h hstale (sys_ok hpart)
    case partitionStart => exact State.command_one_stale h hstale (s.ownP_ok hpart part)
    case partitionStop => exact State.command_one_stale h hstale (own_ok hpart part)
    case partitionSetProfile | programDiscard => exact State.command_two_stale h hstale (lenIs_ok hlen) (own_ok hpart r.partAt4)
    case programActivate | programConfirm | programRevert =>
      exact State.command_two_stale h hstale (lenIs_ok hlen) (s.ownP_ok hpart r.partAt4)
    case placeQuery => exact State.command_two_stale h hstale (lenIs_ok hlen) (placeRight_ok hpart)
    case programLoad =>
      rw [exec_programLoad_of_fail h (State.firstFail_two_stale hstale (lenIs_ok hlen) (own_ok hpart r.partAt4) _)]
      exact State.command_two_stale h hstale (lenIs_ok hlen) (own_ok hpart r.partAt4)
    case forceSet =>
      rw [exec_forceSet_of_turn hturn]
      exact State.command_two_stale h hstale (lenIs_ok hlen) (s.forceRight_ok hpart)
    case forceClear =>
      rw [exec_forceClear_of_turn hturn]
      exact State.command_two_stale h hstale (lenIs_ok hlen) (s.forceRight_ok hpart)
    case varRead => exact State.command_two_stale h hstale (decide_eq_true hvids) (readRight_ok hpart)
    case stationPubSet => exact State.command_two_stale h hstale (own_ok hpart pub.part) (s.pubRight_ok hpart pub.id)
  · rw [exec_guardCommit_of_epochFits hreq hpart (s.epochFits_of_zero hzero) hexec]
    exact s.workTaken_startWork r .guard

end Sys2Proof.Machine
end
